-- ==== Sys2Proof/Word.lean ====
section
/-! DEFINITION. The bit-vector types the manual uses as bits: bytes, 32-bit register words, 64-bit
pairs and instruction words, the 52-bit global address and the 128 bits of a capability (R5, R12, R17, R19). -/

namespace Sys2Proof

/-- Eight bits of memory. -/
abbrev Byte := BitVec 8

/-- A 32-bit register word (R12). -/
abbrev Word := BitVec 32

/-- 64 bits: a register pair or an instruction word (R37, R55). -/
abbrev DWord := BitVec 64

/-- 128 bits: a register quad or the bits of a capability (R19, R60). -/
abbrev QWord := BitVec 128

/-- A boolean as one bit of a 32-bit word. -/
def bit32 (b : Bool) : Word := if b then 1#32 else 0#32

/-- The signed value of a word as an integer. -/
def Word.s (w : Word) : Int := w.toInt

/-- The low 32 bits of an integer. -/
def ofInt32 (i : Int) : Word := BitVec.ofInt 32 i

end Sys2Proof
end

