-- ==== Sys2Proof/Syntax.lean ====
section
/-! DEFINITION. The instruction syntax: one constructor per row of spec/opcode_table.json. Encoded words
carry the raw fields of their body format (R56, R58, R60, R67), reserved and unused fields included, so that nothing of a
word is dropped; WellFormed and Machine/Checks say which field values R72 accepts. Events of the device,
the host, firmware and the peers carry as arguments what the outside world supplies or which of several
pending items the event takes. -/

namespace Sys2Proof

/-- A capability: 128 bits and the tag (R19). -/
structure Cap where
  bits : QWord
  tag : Bool
  deriving DecidableEq, Repr

/-- The guard field of a full word (R56, R57). -/
structure Guard where
  pn : BitVec 1
  pg : BitVec 6
  deriving DecidableEq, Repr

/-- An 11-bit operand specifier (R60). -/
structure Spec11 where
  reg : BitVec 8
  sel : BitVec 3
  deriving DecidableEq, Repr

/-- Format TRI (R58). -/
structure Tri where
  d : BitVec 8
  a : Spec11
  b : Spec11
  c : Spec11
  t : BitVec 4
  deriving DecidableEq, Repr

/-- Format I12 (R58). -/
structure I12 where
  d : BitVec 8
  a : Spec11
  imm : BitVec 12
  z : BitVec 10
  t : BitVec 4
  deriving DecidableEq, Repr

/-- Format I20 (R58). -/
structure I20 where
  d : BitVec 8
  imm : BitVec 20
  z : BitVec 13
  t : BitVec 4
  deriving DecidableEq, Repr

/-- Format M (R58, R63): OFF is split into its register code and its scale. -/
structure MF where
  d : BitVec 8
  cap : BitVec 5
  off : BitVec 8
  sc : BitVec 3
  disp : BitVec 12
  rh : BitVec 2
  sz : BitVec 3
  scope : BitVec 2
  ord : BitVec 2
  deriving DecidableEq, Repr

/-- Format B (R58). -/
structure BF where
  disp : BitVec 25
  aux : BitVec 8
  reg : BitVec 8
  flags : BitVec 4
  deriving DecidableEq, Repr

/-- Format X (R58). -/
structure XF where
  x0 : BitVec 8
  x1 : BitVec 8
  x2 : BitVec 8
  x3 : BitVec 8
  flags : BitVec 9
  t : BitVec 4
  deriving DecidableEq, Repr

/-- Format S (R58). -/
structure SF where
  d : BitVec 8
  a : Spec11
  num : BitVec 16
  flags : BitVec 6
  t : BitVec 4
  deriving DecidableEq, Repr

/-- One slot of a pair word (R67). -/
structure Slot where
  op : BitVec 6
  d : BitVec 8
  a : BitVec 8
  b : BitVec 8
  i : BitVec 1
  deriving DecidableEq, Repr

/-- A capability in wire form (R428): `home` is HOME, `codeOk` says whether its CODE verifies at the port. -/
structure WireCap where
  bits : QWord
  home : BitVec 8
  codeOk : Bool
  deriving DecidableEq, Repr

/-- What a peer's reply to an access carries (R274, R431, R432): its time, the bytes read, a capability
read as data, and a refusal (cause and reason) where the ingress port or the peer's home refused it. -/
structure PeerAnswer where
  time : DWord
  data : QWord
  cap : Option WireCap
  refused : Option (Byte × Byte)
  deriving DecidableEq, Repr

/-- What the host's completion of a device request carries (R147, R436): bytes, or Unsupported Request or Completer Abort. -/
structure PcieAnswer where
  data : QWord
  ok : Bool
  deriving DecidableEq, Repr

/-- What an uncorrectable ECC error makes unreadable for a word: the word itself, a byte of its access, a register, or an accumulator block (R391). -/
inductive EccData where
  | fetch
  | access (byte : Nat)
  | register (r : BitVec 8)
  | block (b : Nat)
  deriving DecidableEq, Repr

/-- Where an uncorrectable ECC error is found (R391, R392): in what lanes of a sheaf are about to read, with its site (R379), in a copy engine's transfer, or in an
item of a save area. -/
inductive EccTarget where
  | lanes (sh : Nat) (mask : Word) (data : EccData) (site : BitVec 8)
  | transfer (core : Nat)
  | save (ctx : Nat) (reason : BitVec 8)
  | restore (ctx : Nat)
  deriving DecidableEq, Repr

/-- A unit that asks for a power permit (R336). -/
inductive PermitUnit where
  | array (k : Nat)
  | copy
  deriving DecidableEq, Repr

/-- Why firmware stops a context (R392, R404). -/
inductive StopReason where
  | quantum | vfDisable | halt | migration | thermal
  deriving DecidableEq, Repr

/-- The kind of an access that reaches an ingress port (R431); `storeCheck` is the check of a store that a run has buffered (R129), `sigwait` the first load of
a SIGWAIT and `sigdone` the end of its wait (R241). -/
inductive IngressOp where
  | load | store | storeCheck | loadCap | storeCap | atom (op : BitVec 4) | cas | csend | crecv | sigwait | sigdone
  deriving DecidableEq, Repr

/-- An inbound access with the capability it is made through (R431) and the sender's logical time (R267). -/
structure IngressReq where
  peer : Nat
  time : DWord
  cap : WireCap
  op : IngressOp
  off : Nat
  size : Nat
  data : QWord
  data2 : QWord
  carried : Option WireCap
  sender : DWord
  deriving DecidableEq, Repr

/-- The descriptor firmware sets for a multicast-reduce group (R337). -/
structure GroupDesc where
  type : BitVec 2
  dies : List Nat
  peers : List Nat
  lines : Nat
  dest : List (Nat × Cap)
  deriving DecidableEq, Repr

/-- One range of a rake pass as a peer sends it (R331, R334). -/
structure SweepRange where
  base : Nat
  len : Nat
  relocate : Bool
  delta : BitVec 52
  colour : BitVec 12
  deriving DecidableEq, Repr

/-- What the boot ROM finds (R442, R443): the two firmware images with their signatures, the digests of the
stages that run, and the outcome of each boot step. -/
structure BootInput where
  imageA : List Byte
  sigA : List Byte
  imageB : List Byte
  sigB : List Byte
  stages : List (BitVec 256)
  absentStackDies : List Nat
  sixCoreClusters : List Nat
  failedPorts : List Nat
  bridgesOk : Bool
  deriving DecidableEq, Repr

/-- The instructions: one constructor per row of the opcode table. -/
inductive Instr where
  /-- ADD (R89). -/
  | add (h : Guard) (o : Tri)
  /-- SUB (R89). -/
  | sub (h : Guard) (o : Tri)
  /-- MUL (R89). -/
  | mul (h : Guard) (o : Tri)
  /-- MULH (R89). -/
  | mulh (h : Guard) (o : Tri)
  /-- MULHU (R89). -/
  | mulhu (h : Guard) (o : Tri)
  /-- MAD (R89). -/
  | mad (h : Guard) (o : Tri)
  /-- AND (R89). -/
  | and (h : Guard) (o : Tri)
  /-- OR (R89). -/
  | or (h : Guard) (o : Tri)
  /-- XOR (R89). -/
  | xor (h : Guard) (o : Tri)
  /-- ANDN (R89). -/
  | andn (h : Guard) (o : Tri)
  /-- ORN (R89). -/
  | orn (h : Guard) (o : Tri)
  /-- SHL (R89). -/
  | shl (h : Guard) (o : Tri)
  /-- SHR (R89). -/
  | shr (h : Guard) (o : Tri)
  /-- SAR (R89). -/
  | sar (h : Guard) (o : Tri)
  /-- ROT (R89). -/
  | rot (h : Guard) (o : Tri)
  /-- SEL (R90). -/
  | sel (h : Guard) (o : Tri)
  /-- MIN (R91). -/
  | min (h : Guard) (o : Tri)
  /-- MAX (R91). -/
  | max (h : Guard) (o : Tri)
  /-- ABS (R91). -/
  | abs (h : Guard) (o : Tri)
  /-- CLZ (R91). -/
  | clz (h : Guard) (o : Tri)
  /-- POPC (R91). -/
  | popc (h : Guard) (o : Tri)
  /-- BREV (R91). -/
  | brev (h : Guard) (o : Tri)
  /-- BFX (R92). -/
  | bfx (h : Guard) (o : Tri)
  /-- BFI (R92). -/
  | bfi (h : Guard) (o : Tri)
  /-- DIV (R91). -/
  | div (h : Guard) (o : Tri)
  /-- REM (R91). -/
  | rem (h : Guard) (o : Tri)
  /-- ADDC (R93). -/
  | addc (h : Guard) (o : Tri)
  /-- SUBB (R93). -/
  | subb (h : Guard) (o : Tri)
  /-- LOP3 (R94). -/
  | lop3 (h : Guard) (o : Tri)
  /-- PRMT (R95). -/
  | prmt (h : Guard) (o : Tri)
  /-- MOV (R91). -/
  | mov (h : Guard) (o : Tri)
  /-- SAD (R91). -/
  | sad (h : Guard) (o : Tri)
  /-- ADDI (R96). -/
  | addi (h : Guard) (o : I12)
  /-- ANDI (R96). -/
  | andi (h : Guard) (o : I12)
  /-- ORI (R96). -/
  | ori (h : Guard) (o : I12)
  /-- XORI (R96). -/
  | xori (h : Guard) (o : I12)
  /-- SHLI (R96). -/
  | shli (h : Guard) (o : I12)
  /-- SHRI (R96). -/
  | shri (h : Guard) (o : I12)
  /-- SARI (R96). -/
  | sari (h : Guard) (o : I12)
  /-- MULI (R96). -/
  | muli (h : Guard) (o : I12)
  /-- LIH (R97). -/
  | lih (h : Guard) (o : I20)
  /-- ICMP (R98). -/
  | icmp (h : Guard) (o : Tri)
  /-- FCMP (R98). -/
  | fcmp (h : Guard) (o : Tri)
  /-- FCLASS (R100). -/
  | fclass (h : Guard) (o : Tri)
  /-- PLOP3 (R101). -/
  | plop3 (h : Guard) (o : Tri)
  /-- P2G (R102). -/
  | p2g (h : Guard) (o : Tri)
  /-- G2P (R102). -/
  | g2p (h : Guard) (o : Tri)
  /-- FADD (R103). -/
  | fadd (h : Guard) (o : Tri)
  /-- FSUB (R103). -/
  | fsub (h : Guard) (o : Tri)
  /-- FMUL (R103). -/
  | fmul (h : Guard) (o : Tri)
  /-- FFMA (R103). -/
  | ffma (h : Guard) (o : Tri)
  /-- FMIN (R103). -/
  | fmin (h : Guard) (o : Tri)
  /-- FMAX (R103). -/
  | fmax (h : Guard) (o : Tri)
  /-- FABS (R103). -/
  | fabs (h : Guard) (o : Tri)
  /-- FNEG (R103). -/
  | fneg (h : Guard) (o : Tri)
  /-- FRND (R104). -/
  | frnd (h : Guard) (o : Tri)
  /-- FSCL (R105). -/
  | fscl (h : Guard) (o : Tri)
  /-- CVT (R106). -/
  | cvt (h : Guard) (o : Tri)
  /-- PACKH (R107). -/
  | packh (h : Guard) (o : Tri)
  /-- PACKBL (R108). -/
  | packbl (h : Guard) (o : Tri)
  /-- PACKBH (R108). -/
  | packbh (h : Guard) (o : Tri)
  /-- PACKN (R109). -/
  | packn (h : Guard) (o : Tri)
  /-- UNPK (R110). -/
  | unpk (h : Guard) (o : Tri)
  /-- DOT4I (R111). -/
  | dot4i (h : Guard) (o : Tri)
  /-- DOT4U (R111). -/
  | dot4u (h : Guard) (o : Tri)
  /-- DOT8I (R111). -/
  | dot8i (h : Guard) (o : Tri)
  /-- DOT4F (R112). -/
  | dot4f (h : Guard) (o : Tri)
  /-- DOT8F (R112). -/
  | dot8f (h : Guard) (o : Tri)
  /-- DOT2H (R112). -/
  | dot2h (h : Guard) (o : Tri)
  /-- FRCP (R113). -/
  | frcp (h : Guard) (o : Tri)
  /-- FRSQ (R114). -/
  | frsq (h : Guard) (o : Tri)
  /-- FSQRT (R113). -/
  | fsqrt (h : Guard) (o : Tri)
  /-- FEXP2 (R114). -/
  | fexp2 (h : Guard) (o : Tri)
  /-- FLOG2 (R114). -/
  | flog2 (h : Guard) (o : Tri)
  /-- FSIN (R114). -/
  | fsin (h : Guard) (o : Tri)
  /-- FCOS (R114). -/
  | fcos (h : Guard) (o : Tri)
  /-- FTANH (R114). -/
  | ftanh (h : Guard) (o : Tri)
  /-- FDIV (R113). -/
  | fdiv (h : Guard) (o : Tri)
  /-- BRA (R120). -/
  | bra (h : Guard) (o : BF)
  /-- BRX (R120). -/
  | brx (h : Guard) (o : BF)
  /-- CALL (R120). -/
  | call (h : Guard) (o : BF)
  /-- CALLC (R121). -/
  | callc (h : Guard) (o : BF)
  /-- RET (R120). -/
  | ret (h : Guard) (o : BF)
  /-- RET_FAR (R122). -/
  | retFar (h : Guard) (o : BF)
  /-- LOOP (R120). -/
  | loop (h : Guard) (o : BF)
  /-- JMARK (R188). -/
  | jmark (h : Guard) (o : BF)
  /-- JOIN (R189). -/
  | join (h : Guard) (o : BF)
  /-- YIELD (R236). -/
  | yield (h : Guard) (o : BF)
  /-- EXIT (R123). -/
  | exit (h : Guard) (o : BF)
  /-- NOP (R120). -/
  | nop (h : Guard) (o : BF)
  /-- RUNB (R126). -/
  | runb (h : Guard) (o : BF)
  /-- RUNE (R126). -/
  | rune (h : Guard) (o : BF)
  /-- ENTER (R124). -/
  | enter (h : Guard) (o : BF)
  /-- LEAVE (R124). -/
  | leave (h : Guard) (o : BF)
  /-- SHFL (R231). -/
  | shfl (h : Guard) (o : Tri)
  /-- SHFLP (R231). -/
  | shflp (h : Guard) (o : Tri)
  /-- VANY (R232). -/
  | vany (h : Guard) (o : Tri)
  /-- VALL (R232). -/
  | vall (h : Guard) (o : Tri)
  /-- BALLOT (R233). -/
  | ballot (h : Guard) (o : Tri)
  /-- REDUX (R234). -/
  | redux (h : Guard) (o : Tri)
  /-- SCAN (R234). -/
  | scan (h : Guard) (o : Tri)
  /-- MATCH (R233). -/
  | matchm (h : Guard) (o : Tri)
  /-- RDVINIT (R192). -/
  | rdvinit (h : Guard) (o : Tri)
  /-- RDVARR (R192). -/
  | rdvarr (h : Guard) (o : Tri)
  /-- RDVWAIT (R192). -/
  | rdvwait (h : Guard) (o : Tri)
  /-- RDVAW (R192). -/
  | rdvaw (h : Guard) (o : Tri)
  /-- SIGWAIT (R241). -/
  | sigwait (h : Guard) (o : Tri)
  /-- SIGPOST (R240). -/
  | sigpost (h : Guard) (o : Tri)
  /-- PHASE (R242). -/
  | phase (h : Guard) (o : Tri)
  /-- LIVE (R244). -/
  | live (h : Guard) (o : Tri)
  /-- HOP (R245). -/
  | hop (h : Guard) (o : Tri)
  /-- LAUNCH (R248). -/
  | launch (h : Guard) (o : Tri)
  /-- LWAIT (R249). -/
  | lwait (h : Guard) (o : Tri)
  /-- LD (R143). -/
  | ld (h : Guard) (o : MF)
  /-- ST (R143). -/
  | st (h : Guard) (o : MF)
  /-- LDW (R296). -/
  | ldw (h : Guard) (o : MF)
  /-- LDC (R144). -/
  | ldc (h : Guard) (o : MF)
  /-- STC (R144). -/
  | stc (h : Guard) (o : MF)
  /-- LDS (R304). -/
  | lds (h : Guard) (o : MF)
  /-- STS (R304). -/
  | sts (h : Guard) (o : MF)
  /-- CAS (R145). -/
  | cas (h : Guard) (o : MF)
  /-- CASS (R305). -/
  | cass (h : Guard) (o : MF)
  /-- PREF (R302). -/
  | pref (h : Guard) (o : MF)
  /-- ATOM_ADD (R146). -/
  | atomAdd (h : Guard) (o : MF)
  /-- ATOM_MIN (R146). -/
  | atomMin (h : Guard) (o : MF)
  /-- ATOM_MAX (R146). -/
  | atomMax (h : Guard) (o : MF)
  /-- ATOM_MINU (R146). -/
  | atomMinu (h : Guard) (o : MF)
  /-- ATOM_MAXU (R146). -/
  | atomMaxu (h : Guard) (o : MF)
  /-- ATOM_AND (R146). -/
  | atomAnd (h : Guard) (o : MF)
  /-- ATOM_OR (R146). -/
  | atomOr (h : Guard) (o : MF)
  /-- ATOM_XOR (R146). -/
  | atomXor (h : Guard) (o : MF)
  /-- ATOM_XCHG (R146). -/
  | atomXchg (h : Guard) (o : MF)
  /-- ATOM_FADD (R146). -/
  | atomFadd (h : Guard) (o : MF)
  /-- ATOM_FMIN (R146). -/
  | atomFmin (h : Guard) (o : MF)
  /-- ATOM_FMAX (R146). -/
  | atomFmax (h : Guard) (o : MF)
  /-- ATOM_INC (R146). -/
  | atomInc (h : Guard) (o : MF)
  /-- ATOMS_ADD (R306). -/
  | atomsAdd (h : Guard) (o : MF)
  /-- ATOMS_MIN (R306). -/
  | atomsMin (h : Guard) (o : MF)
  /-- ATOMS_MAX (R306). -/
  | atomsMax (h : Guard) (o : MF)
  /-- ATOMS_MINU (R306). -/
  | atomsMinu (h : Guard) (o : MF)
  /-- ATOMS_MAXU (R306). -/
  | atomsMaxu (h : Guard) (o : MF)
  /-- ATOMS_AND (R306). -/
  | atomsAnd (h : Guard) (o : MF)
  /-- ATOMS_OR (R306). -/
  | atomsOr (h : Guard) (o : MF)
  /-- ATOMS_XOR (R306). -/
  | atomsXor (h : Guard) (o : MF)
  /-- ATOMS_XCHG (R306). -/
  | atomsXchg (h : Guard) (o : MF)
  /-- ATOMS_FADD (R306). -/
  | atomsFadd (h : Guard) (o : MF)
  /-- ATOMS_FMIN (R306). -/
  | atomsFmin (h : Guard) (o : MF)
  /-- ATOMS_FMAX (R306). -/
  | atomsFmax (h : Guard) (o : MF)
  /-- ATOMS_INC (R306). -/
  | atomsInc (h : Guard) (o : MF)
  /-- FENCE (R300). -/
  | fence (h : Guard) (o : MF)
  /-- CHECK (R298). -/
  | check (h : Guard) (o : MF)
  /-- WSET (R297). -/
  | wset (h : Guard) (o : MF)
  /-- BANKCFG (R307). -/
  | bankcfg (h : Guard) (o : MF)
  /-- CGETB (R132). -/
  | cgetb (h : Guard) (o : Tri)
  /-- CGETL (R132). -/
  | cgetl (h : Guard) (o : Tri)
  /-- CGETP (R132). -/
  | cgetp (h : Guard) (o : Tri)
  /-- CGETC (R132). -/
  | cgetc (h : Guard) (o : Tri)
  /-- CGETK (R132). -/
  | cgetk (h : Guard) (o : Tri)
  /-- CGETT (R132). -/
  | cgett (h : Guard) (o : Tri)
  /-- CNARROW (R133). -/
  | cnarrow (h : Guard) (o : Tri)
  /-- CANDP (R134). -/
  | candp (h : Guard) (o : Tri)
  /-- CSEAL (R136). -/
  | cseal (h : Guard) (o : Tri)
  /-- CUNSEAL (R137). -/
  | cunseal (h : Guard) (o : Tri)
  /-- CMOV (R134). -/
  | cmov (h : Guard) (o : Tri)
  /-- CCLRT (R134). -/
  | cclrt (h : Guard) (o : Tri)
  /-- CTEST (R135). -/
  | ctest (h : Guard) (o : Tri)
  /-- CSEND (R139). -/
  | csend (h : Guard) (o : Tri)
  /-- CRECV (R140). -/
  | crecv (h : Guard) (o : Tri)
  /-- CSETU (R134). -/
  | csetu (h : Guard) (o : Tri)
  /-- TDEF (R345). -/
  | tdef (h : Guard) (o : XF)
  /-- TFILL (R346). -/
  | tfill (h : Guard) (o : XF)
  /-- TFILL_RESUME (R346). -/
  | tfillResume (h : Guard) (o : XF)
  /-- TDRAIN (R346). -/
  | tdrain (h : Guard) (o : XF)
  /-- TDRAIN_RESUME (R346). -/
  | tdrainResume (h : Guard) (o : XF)
  /-- TWAIT (R347). -/
  | twait (h : Guard) (o : XF)
  /-- TSTAT (R347). -/
  | tstat (h : Guard) (o : XF)
  /-- TFREE (R348). -/
  | tfree (h : Guard) (o : XF)
  /-- TGIVE (R348). -/
  | tgive (h : Guard) (o : XF)
  /-- FSTART (R350). -/
  | fstart (h : Guard) (o : XF)
  /-- FPUSH (R351). -/
  | fpush (h : Guard) (o : XF)
  /-- FPOP (R352). -/
  | fpop (h : Guard) (o : XF)
  /-- FWAIT (R352). -/
  | fwait (h : Guard) (o : XF)
  /-- FSTOP (R353). -/
  | fstop (h : Guard) (o : XF)
  /-- CMDRUN (R355). -/
  | cmdrun (h : Guard) (o : XF)
  /-- CMDPOLL (R356). -/
  | cmdpoll (h : Guard) (o : XF)
  /-- RKMARK (R357). -/
  | rkmark (h : Guard) (o : XF)
  /-- RKMARK_RELOCATE (R357). -/
  | rkmarkRelocate (h : Guard) (o : XF)
  /-- RKPASS (R358). -/
  | rkpass (h : Guard) (o : XF)
  /-- RKPASS_RELOCATE (R358). -/
  | rkpassRelocate (h : Guard) (o : XF)
  /-- RKWAIT (R359). -/
  | rkwait (h : Guard) (o : XF)
  /-- RKSTAT (R359). -/
  | rkstat (h : Guard) (o : XF)
  /-- STMR (R360). -/
  | stmr (h : Guard) (o : XF)
  /-- MRWAIT (R361). -/
  | mrwait (h : Guard) (o : XF)
  /-- MMA (R364). -/
  | mma (h : Guard) (o : XF)
  /-- ACCALLOC (R365). -/
  | accalloc (h : Guard) (o : XF)
  /-- ACCFREE (R366). -/
  | accfree (h : Guard) (o : XF)
  /-- ACCZERO (R366). -/
  | acczero (h : Guard) (o : XF)
  /-- ACCRD (R367). -/
  | accrd (h : Guard) (o : XF)
  /-- ACCWR (R367). -/
  | accwr (h : Guard) (o : XF)
  /-- ACCST (R368). -/
  | accst (h : Guard) (o : XF)
  /-- BHT (R369). -/
  | bht (h : Guard) (o : XF)
  /-- TQNT (R369). -/
  | tqnt (h : Guard) (o : XF)
  /-- TTRN (R369). -/
  | ttrn (h : Guard) (o : XF)
  /-- SRR (R149). -/
  | srr (h : Guard) (o : SF)
  /-- SRW (R149). -/
  | srw (h : Guard) (o : SF)
  /-- TRAP (R150). -/
  | trap (h : Guard) (o : SF)
  /-- ERET (R386). -/
  | eret (h : Guard) (o : SF)
  /-- BRK (R150). -/
  | brk (h : Guard) (o : SF)
  /-- PERF (R151). -/
  | perf (h : Guard) (o : SF)
  /-- SLEEP (R151). -/
  | sleep (h : Guard) (o : SF)
  /-- PARKQ (R151). -/
  | parkq (h : Guard) (o : SF)
  /-- PAIR_WORD (R117). -/
  | pairWord (x y : Slot) (z : BitVec 1)
  /-- SHEAF_CHOICE (R181). -/
  | sheafChoice (core quad : Nat)
  /-- YIELD_HOLD_END (R236). -/
  | yieldHoldEnd (sh ln : Nat)
  /-- RUN_COMMIT (R129). -/
  | runCommit (sh ln : Nat)
  /-- JOIN_RELEASE (R189). -/
  | joinRelease (sh ln : Nat)
  /-- SLEEP_END (R151). -/
  | sleepEnd (sh ln : Nat)
  /-- PHASE_OVERRUN (R195). -/
  | phaseOverrun (team : Nat)
  /-- ASYNC_FAULT_DELIVERY (R390). -/
  | asyncFaultDelivery (sh ln : Nat)
  /-- SIGWAIT_RELOAD (R241). -/
  | sigwaitReload (sh ln : Nat)
  /-- SIGWAIT_HOST_POLL (R241). -/
  | sigwaitHostPoll (sh ln : Nat) (value : DWord)
  /-- LTIME_TICK (R271). -/
  | ltimeTick (core : Nat)
  /-- SEASON_BOUNDARY (R269). -/
  | seasonBoundary
  /-- HOME_RENEW (R272). -/
  | homeRenew (i : Nat)
  /-- LOAD_REPLY (R272). -/
  | loadReply (i : Nat) (ans : PeerAnswer)
  /-- HOME_WRITE (R273). -/
  | homeWrite (i : Nat)
  /-- HOME_READ (R273). -/
  | homeRead (core addr : Nat)
  /-- STORE_ACK (R273). -/
  | storeAck (i : Nat) (ans : PeerAnswer)
  /-- OTHER_PARTY_WRITE (R273). -/
  | otherPartyWrite (addr : Nat) (data : List Byte)
  /-- CSEND_AT_HOME (R139). -/
  | csendAtHome (i : Nat)
  /-- CRECV_AT_HOME (R140). -/
  | crecvAtHome (i : Nat)
  /-- CONDITIONAL_WRITEBACK (R285). -/
  | conditionalWriteback (i : Nat)
  /-- WRITEBACK_REPLY (R285). -/
  | writebackReply (i : Nat)
  /-- WRITE_LOST_ANSWER (R389). -/
  | writeLostAnswer (i : Nat)
  /-- GRANULE_ENTRY_WRITE (R266). -/
  | granuleEntryWrite (die granule : Nat) (entry : BitVec 16)
  /-- HELD_ACCESS_RECHECK (R27). -/
  | heldAccessRecheck (i : Nat)
  /-- ECC_UNCORRECTABLE (R391). -/
  | eccUncorrectable (target : EccTarget)
  /-- BANK_SWITCH_DONE (R260). -/
  | bankSwitchDone (core bank : Nat)
  /-- STAGE_SET_DISPATCH (R198). -/
  | stageSetDispatch (cluster : Nat)
  /-- STEAL_REQUEST (R200). -/
  | stealRequest (thief : Nat)
  /-- STEAL_REPLY (R201). -/
  | stealReply (thief : Nat)
  /-- TEAM_RETIRE (R202). -/
  | teamRetire (team : Nat)
  /-- LAUNCH_COMPLETE (R203). -/
  | launchComplete (launch : Nat)
  /-- RUNNER_START (R206). -/
  | runnerStart (launch : Nat)
  /-- RUNNER_COMPLETE (R207). -/
  | runnerComplete (launch : Nat)
  /-- TRAVEL_DEPART (R213). -/
  | travelDepart (sh ln : Nat)
  /-- PACKET_RELAY (R222). -/
  | packetRelay (i : Nat)
  /-- RING_TO_FIFO (R222). -/
  | ringToFifo (launch seg core : Nat)
  /-- PACKET_PLACE (R218). -/
  | packetPlace (launch seg core : Nat)
  /-- SHEAF_RELEASE (R218). -/
  | sheafRelease (sh : Nat)
  /-- DEPTH_BROADCAST (R219). -/
  | depthBroadcast (core : Nat)
  /-- CUTTING_ADD (R220). -/
  | cuttingAdd (launch seg core : Nat)
  /-- CUTTING_REMOVE (R220). -/
  | cuttingRemove (launch seg slot : Nat)
  /-- COPY_ROW (R318). -/
  | copyRow (core : Nat)
  /-- TILE_TRANSFER_DONE (R313). -/
  | tileTransferDone (core : Nat)
  /-- COMMAND_COPY_DONE (R321). -/
  | commandCopyDone (core : Nat)
  /-- MMA_COMPLETE (R328). -/
  | mmaComplete (core array : Nat)
  /-- ARRAY_OP_DONE (R369). -/
  | arrayOpDone (core array : Nat)
  /-- ACCALLOC_GRANT (R329). -/
  | accallocGrant (core : Nat)
  /-- RAKE_PASS_START (R332). -/
  | rakePassStart
  /-- RAKE_BATCH (R332). -/
  | rakeBatch
  /-- RAKE_PEER_REPORT (R334). -/
  | rakePeerReport (peer : Nat)
  /-- RAKE_PASS_COMPLETE (R334). -/
  | rakePassComplete
  /-- PERMIT_REQUEST (R336). -/
  | permitRequest (core : Nat) (unit : PermitUnit)
  /-- PERMIT_GRANT (R336). -/
  | permitGrant (die : Nat)
  /-- MR_DELIVERY (R338). -/
  | mrDelivery (group line : Nat)
  /-- MR_SWITCH_SUM (R433). -/
  | mrSwitchSum (group line : Nat) (sum : List Word)
  /-- MR_GROUP_INVALIDATE (R433). -/
  | mrGroupInvalidate (group : Nat)
  /-- HANDLER_ENTRY (R384). -/
  | handlerEntry (sh sub : Nat)
  /-- STOP_REQUEST (R392). -/
  | stopRequest (ctx : Nat) (why : StopReason)
  /-- UNIT_ACK (R393). -/
  | unitAck (ctx die : Nat)
  /-- CONTEXT_STOPPED (R392). -/
  | contextStopped (ctx : Nat)
  /-- SAVE (R396). -/
  | save (ctx : Nat)
  /-- RESTORE (R398). -/
  | restore (ctx : Nat)
  /-- QUANTUM_CHANGE (R406). -/
  | quantumChange
  /-- QUEUE_MAPPING (R410). -/
  | queueMapping
  /-- QUEUE_KICK (R407). -/
  | queueKick (fn queue : Nat) (tail : Word)
  /-- QUEUE_COMMAND_BEGIN (R408). -/
  | queueCommandBegin (queue : Nat) (host : List Byte)
  /-- QUEUE_NOP (R408). -/
  | queueNop (queue : Nat)
  /-- QUEUE_LAUNCH (R408). -/
  | queueLaunch (queue : Nat)
  /-- QUEUE_WAIT (R408). -/
  | queueWait (queue : Nat) (host : DWord)
  /-- QUEUE_POST (R408). -/
  | queuePost (queue : Nat)
  /-- ADMIN_DB (R402). -/
  | adminDb (fn : Nat) (tail : Word)
  /-- CTX_CREATE (R403). -/
  | ctxCreate (fn : Nat) (cmd : List Byte)
  /-- CTX_HANDLER (R403). -/
  | ctxHandler (fn : Nat) (cmd : List Byte)
  /-- CTX_DESTROY (R412). -/
  | ctxDestroy (fn : Nat) (cmd : List Byte)
  /-- OBJ_LOAD (R168). -/
  | objLoad (fn : Nat) (cmd file : List Byte)
  /-- Q_CREATE (R403). -/
  | qCreate (fn : Nat) (cmd : List Byte)
  /-- Q_DESTROY (R403). -/
  | qDestroy (fn : Nat) (cmd : List Byte)
  /-- MON_SET (R416). -/
  | monSet (fn : Nat) (cmd : List Byte)
  /-- CNT_CLEAR (R403). -/
  | cntClear (fn : Nat) (cmd : List Byte)
  /-- APERTURE (R439). -/
  | aperture (fn : Nat) (cmd : List Byte)
  /-- MON_READ (R403). -/
  | monRead (fn : Nat) (cmd : List Byte)
  /-- CTX_QUERY (R403). -/
  | ctxQuery (fn : Nat) (cmd : List Byte)
  /-- VF_COLOURS (R400). -/
  | vfColours (fn : Nat) (cmd : List Byte) (colours : List Nat)
  /-- QTAB_WRITE (R405). -/
  | qtabWrite (fn : Nat) (cmd : List Byte)
  /-- CTX_MIGRATE (R434). -/
  | ctxMigrate (fn : Nat) (cmd mask : List Byte) (queues : List Nat)
  /-- PCT_WRITE (R429). -/
  | pctWrite (fn : Nat) (cmd : List Byte)
  /-- ATTEST (R442). -/
  | attest (fn : Nat) (cmd : List Byte)
  /-- VF_EN (R411). -/
  | vfEn (value : DWord)
  /-- VF_RESET (R412). -/
  | vfReset (vf : Nat)
  /-- EVT_HEAD (R414). -/
  | evtHead (fn : Nat) (value : Word)
  /-- EVT_DROP (R438). -/
  | evtDrop (fn : Nat)
  /-- REGISTER_WRITE (R438). -/
  | registerWrite (fn off width : Nat) (value : DWord)
  /-- APERTURE_READ (R439). -/
  | apertureRead (fn win off size : Nat)
  /-- APERTURE_WRITE (R439). -/
  | apertureWrite (fn win off : Nat) (data : List Byte)
  /-- COUNTER_OVERFLOW (R413). -/
  | counterOverflow (ctx k : Nat)
  /-- INGRESS_ACCESS (R431). -/
  | ingressAccess (req : IngressReq)
  /-- PORT_STATE_CHANGE (R427). -/
  | portStateChange (port state : Nat)
  /-- KEY_AGREEMENT (R428). -/
  | keyAgreement (port : Nat) (partner : Nat) (signed : Bool)
  /-- EPOCH_GRACE_END (R428). -/
  | epochGraceEnd (port : Nat)
  /-- THERMAL_STOP (R444). -/
  | thermalStop (die temp : Nat)
  /-- THERMAL_RESUME (R444). -/
  | thermalResume (die temp : Nat)
  /-- BOOT (R442). -/
  | boot (input : BootInput)
  /-- STACK_CACHE_SPILL (R125). -/
  | stackCacheSpill (core quad line : Nat) (fill : Bool)
  /-- OBJECT_UNLOAD (R172). -/
  | objectUnload (ctx object : Nat)
  /-- GROUP_DESCRIPTOR_SET (R337). -/
  | groupDescriptorSet (group : Nat) (desc : GroupDesc)
  /-- PEER_SWEEP (R334). -/
  | peerSweep (peer pass : Nat) (ranges : List SweepRange)
  /-- PCIE_COMPLETION (R436). -/
  | pcieCompletion (i : Nat) (ans : PcieAnswer)
  /-- PCIE_WRITE_DEPARTURE (R290). -/
  | pcieWriteDeparture (i : Nat)
  /-- EVT_CTL (R438). -/
  | evtCtl (fn : Nat) (value : Word)
  deriving DecidableEq, Repr

end Sys2Proof
end

