-- ==== Sys2Proof/Machine/Checks.lean ====
section
/-! DEFINITION. Which field values an instruction word accepts: the checks of R72 in the order of their reason codes,
for every word of the opcode map, against a kernel's register and predicate allocation (R61). -/

namespace Sys2Proof

/-- How wide a register operand is: one register, an F64 pair, another pair, or a quad (R37, R60, R62). -/
inductive Wd where
  | one | f64 | pair | quad
  deriving DecidableEq, Repr

/-- A register field as an instruction uses it. -/
inductive Use where
  /-- an 11-bit source (R60, R62) -/
  | src (x : Spec11) (w : Wd)
  /-- an 8-bit source code -/
  | code (r : BitVec 8) (w : Wd)
  /-- a destination -/
  | dst (r : BitVec 8) (w : Wd)
  /-- a register both read and written in place -/
  | both (r : BitVec 8) (w : Wd)
  /-- a pair written through an 11-bit field -/
  | dst11 (x : Spec11)
  /-- a g-register and nothing else (R118) -/
  | gOnly (r : BitVec 8)
  /-- a published slot: a g-register or empty (R126) -/
  | slot (r : BitVec 8)
  /-- a predicate number -/
  | pred (n : Nat)
  /-- a capability register number -/
  | creg (n : Nat)
  deriving DecidableEq, Repr

/-- What R72 looks at in one word, reason by reason: the guard rule, the fixed fields, the registers, the codes. -/
structure Chk where
  always : Bool
  zero : Bool
  uses : List Use
  codes : Bool
  deriving DecidableEq, Repr

/-- The 11-bit number of a specifier. -/
def Spec11.num (x : Spec11) : Nat := x.reg.toNat * 8 + x.sel.toNat

/-- An 11-bit field at its R59 value. -/
def unused11 (x : Spec11) : Bool := x.reg == 0xFF#8 && x.sel == 0#3

/-- An 8-bit field at its R59 value. -/
def unused8 (r : BitVec 8) : Bool := r == 0xFF#8

/-- A control byte's upper bits are zero (R64). -/
def ctl (x : Spec11) : Bool := x.num < 256

/-- A T code lies in a list. -/
def tIn (t : BitVec 4) (l : List Nat) : Bool := l.contains t.toNat

/-- The width an operand has under a T code: a pair for F64, whether or not the instruction accepts it. Log 24 (DEDUCED). -/
def tw (t : BitVec 4) : Wd := if t == 14#4 then .f64 else .one

/-- Elements of a T code (R36, 04 CONV). -/
def elemCount (t : Nat) : Nat :=
  if t = 14 then 1 else if t < 3 then 1 else if t < 7 then 2 else if t < 11 then 4 else if t < 14 then 8 else 0

/-- A width by SZ code (R60, R63). Log 24 (DEDUCED). -/
def szw (sz : BitVec 3) : Wd := if sz == 3#3 then .pair else if sz == 4#3 then .quad else .one

/-- The memory operand of an M word (R63): a register code only where there is one. -/
def offUse (o : MF) : List Use := if o.off == 0xFF#8 then [] else [.code o.off .one]

/-- With no offset register the scale is zero (R63). -/
def offZero (o : MF) : Bool := o.off != 0xFF#8 || o.sc == 0#3

/-- OFF at its R59 value. -/
def offUnused (o : MF) : Bool := o.off == 0xFF#8 && o.sc == 0#3

/-- Scale codes 101 to 111 are reserved. -/
def scOk (o : MF) : Bool := o.sc.toNat ≤ 4

/-- The special registers of R152: known numbers. -/
def sprKnown (n : Nat) : Bool :=
  [0x0, 0x1, 0x10, 0x11, 0x20, 0x30, 0x31, 0x32, 0x33, 0x34, 0x35, 0x40, 0x41, 0x42, 0x50, 0x70, 0x200, 0x300, 0x301].contains n
    || (0x60 ≤ n && n ≤ 0x67) || (0x100 ≤ n && n ≤ 0x107)

/-- The special registers of R152 that are 64 bits wide. -/
def sprWide (n : Nat) : Bool := n == 0x200 || n == 0x300 || n == 0x301

/-- A two-source word with its C field unused. -/
def chk2 (o : Tri) (ts : List Nat) : Chk :=
  { always := false, zero := unused11 o.c, uses := [.dst o.d (tw o.t), .src o.a (tw o.t), .src o.b (tw o.t)], codes := tIn o.t ts }

/-- A three-source word; the third source has its own width. -/
def chk3 (o : Tri) (ts : List Nat) : Chk :=
  { always := false, zero := true, uses := [.dst o.d (tw o.t), .src o.a (tw o.t), .src o.b (tw o.t), .src o.c (tw o.t)],
    codes := tIn o.t ts }

/-- A one-source word with B and C unused. -/
def chk1 (o : Tri) (ts : List Nat) : Chk :=
  { always := false, zero := unused11 o.b && unused11 o.c, uses := [.dst o.d (tw o.t), .src o.a (tw o.t)], codes := tIn o.t ts }

/-- An I12 word; shifts keep IMM12[11:5] zero (R96). Log 24 (DEDUCED). -/
def chkImm (o : I12) (shift : Bool) : Chk :=
  { always := false, zero := o.z == 0#10 && (!shift || o.imm.toNat < 32), uses := [.dst o.d .one, .src o.a .one], codes := o.t == 0#4 }

/-- CVT and PACK*: the control byte of R64 gives STYPE. -/
def stype (o : Tri) : Nat := o.c.num / 16 % 16

/-- A PACK* word. -/
def chkPack (o : Tri) (ts ss : List Nat) : Chk :=
  { always := false, zero := ctl o.c, uses := [.dst o.d .one, .src o.a .one, .src o.b .one], codes := tIn o.t ts && ss.contains (stype o) }

/-- A predicate named by A[10:3], with A[2:0] zero. -/
def predA (x : Spec11) : Use := .pred x.reg.toNat

/-- A control-transfer body with nothing but a displacement. -/
def chkB (o : BF) (zero : Bool) (uses : List Use) : Chk :=
  { always := false, zero := zero && o.flags == 0#4, uses := uses, codes := true }

/-- A SYNC word with a point byte (R238). -/
def pointOk (x : Spec11) : Bool := x.num < 24

/-- A memory word on global memory. -/
def chkMem (o : MF) (uses : List Use) (szs ords : List Nat) (zero : Bool) : Chk :=
  { always := false, zero := zero && offZero o, uses := uses ++ offUse o,
    codes := szs.contains o.sz.toNat && ords.contains o.ord.toNat && scOk o }

/-- A memory word on scratch (R292): CAP and RH zero, SCOPE team. -/
def chkScr (o : MF) (uses : List Use) (szs ords : List Nat) (rhOk : Bool) : Chk :=
  { always := false, zero := rhOk && o.cap == 0#5 && offZero o, uses := uses ++ offUse o,
    codes := szs.contains o.sz.toNat && ords.contains o.ord.toNat && scOk o && o.scope == 0#2 }

/-- The data register of an atomic: read, and written unless N (R146). -/
def atomUse (o : MF) : List Use :=
  if o.rh.toNat / 2 = 1 then [.code o.d (szw o.sz)] else [.both o.d (szw o.sz)]

/-- A CAP-group word: T is 0, tested as a T code (R66). Log 24 (DEDUCED). -/
def chkCap (o : Tri) (zero : Bool) (uses : List Use) : Chk :=
  { always := false, zero := zero, uses := uses, codes := o.t == 0#4 }

/-- An X word: unused fields, flags, registers, codes. Log 24 (DEDUCED). -/
def chkX (zero : Bool) (uses : List Use) (codes : Bool) : Chk := { always := false, zero := zero, uses := uses, codes := codes }

/-- A SYS word: flags and T zero (R148). -/
def chkS (o : SF) (zero : Bool) (uses : List Use) (codes : Bool) : Chk :=
  { always := false, zero := zero && o.flags == 0#6 && o.t == 0#4, uses := uses, codes := codes }

/-- CVT: the same element count, different types (R106). -/
def chkCvt (o : Tri) : Chk :=
  { always := false, zero := unused11 o.b && ctl o.c,
    uses := [.dst o.d (tw o.t), .src o.a (if stype o = 14 then .f64 else .one)],
    codes := o.t != 15#4 && stype o != 15 && elemCount o.t.toNat == elemCount (stype o) && o.t.toNat != stype o }

/-- UNPK: its control byte (R110). -/
def chkUnpk (o : Tri) : Chk :=
  { always := false, zero := unused11 o.b && ctl o.c && o.c.num / 8 % 2 == 0, uses := [.dst o.d .one, .src o.a .one],
    codes := 3 ≤ stype o && stype o ≤ 13 && o.c.num % 8 < elemCount (stype o) &&
      (if [3, 4, 9, 10, 12].contains (stype o) then o.t == 2#4 else tIn o.t [0, 1, 2]) }

/-- REDUX and SCAN (R234). -/
def chkScan (o : Tri) : Chk :=
  { always := false, zero := o.b.num < 8 && o.b.num < 6, uses := [.dst o.d (tw o.t), .src o.a (tw o.t), .src o.c (tw o.t)],
    codes := tIn o.t [0, 1, 2, 3, 4, 14] && (o.b.num < 3 || tIn o.t [0, 1]) }

/-- What R72 looks at in every word of the map. -/
def wordChk : Instr → Chk
  | .add _ o => chk2 o [0, 1, 5, 6, 7, 8, 11, 13]
  | .sub _ o => chk2 o [0, 1, 5, 6, 7, 8, 11, 13]
  | .mul _ o => chk2 o [0, 1, 5, 6, 7, 8]
  | .mulh _ o => chk2 o [0, 5]
  | .mulhu _ o => chk2 o [1, 6]
  | .mad _ o => chk3 o [0, 1, 5, 6]
  | .and _ o => chk2 o [0]
  | .or _ o => chk2 o [0]
  | .xor _ o => chk2 o [0]
  | .andn _ o => chk2 o [0]
  | .orn _ o => chk2 o [0]
  | .shl _ o => chk2 o [0, 1, 5, 6, 7, 8]
  | .shr _ o => chk2 o [0, 1, 5, 6, 7, 8]
  | .sar _ o => chk2 o [0, 1, 5, 6, 7, 8]
  | .rot _ o => chk2 o [0]
  | .sel _ o => { always := false, zero := ctl o.c && o.c.num / 64 % 2 == 0, uses := [.dst o.d (tw o.t), .src o.a (tw o.t), .src o.b (tw o.t), .pred (o.c.num % 64)], codes := tIn o.t [0, 14] }
  | .min _ o => chk2 o [0, 1, 5, 6, 7, 8]
  | .max _ o => chk2 o [0, 1, 5, 6, 7, 8]
  | .abs _ o => chk1 o [0, 5, 7, 11]
  | .clz _ o => chk1 o [0]
  | .popc _ o => chk1 o [0]
  | .brev _ o => chk1 o [0]
  | .bfx _ o => chk3 o [0, 1]
  | .bfi _ o => chk3 o [0]
  | .div _ o => chk2 o [0, 1]
  | .rem _ o => chk2 o [0, 1]
  | .addc _ o => { always := false, zero := o.c.num < 64, uses := [.dst o.d .one, .src o.a .one, .src o.b .one, .pred (o.c.num % 64)], codes := tIn o.t [1] }
  | .subb _ o => { always := false, zero := o.c.num < 64, uses := [.dst o.d .one, .src o.a .one, .src o.b .one, .pred (o.c.num % 64)], codes := tIn o.t [1] }
  | .lop3 _ o => { always := false, zero := ctl o.c, uses := [.dst o.d .one, .src o.a .one, .src o.b .one], codes := tIn o.t [0] }
  | .prmt _ o => chk3 o [0]
  | .mov _ o => chk1 o [0, 14]
  | .sad _ o => chk3 o [5, 6, 7, 8]
  | .addi _ o => chkImm o false
  | .andi _ o => chkImm o false
  | .ori _ o => chkImm o false
  | .xori _ o => chkImm o false
  | .shli _ o => chkImm o true
  | .shri _ o => chkImm o true
  | .sari _ o => chkImm o true
  | .muli _ o => chkImm o false
  | .lih _ o => { always := false, zero := o.z == 0#13, uses := [.dst o.d .one], codes := o.t == 0#4 }
  | .icmp _ o => { always := false, zero := o.c.num < 24 && o.c.num % 8 < 6, uses := [.pred o.d.toNat, .src o.a .one, .src o.b .one], codes := tIn o.t [0, 1] }
  | .fcmp _ o => { always := false, zero := o.c.num < 24, uses := [.pred o.d.toNat, .src o.a (tw o.t), .src o.b (tw o.t)], codes := tIn o.t [2, 14] }
  | .fclass _ o => { always := false, zero := unused11 o.b && ctl o.c, uses := [.pred o.d.toNat, .src o.a (tw o.t)], codes := tIn o.t [2, 14] }
  | .plop3 _ o => { always := false, zero := o.a.sel == 0#3 && o.b.sel == 0#3 && ctl o.c, uses := [.pred o.d.toNat, predA o.a, predA o.b], codes := tIn o.t [0] }
  | .p2g _ o => { always := false, zero := unused11 o.a && unused11 o.b && o.c.num < 2, uses := [.dst o.d .one], codes := tIn o.t [0] }
  | .g2p _ o => { always := false, zero := unused8 o.d && o.c.num < 2, uses := [.src o.a .one, .src o.b .one], codes := tIn o.t [0] }
  | .fadd _ o => chk2 o [2, 3, 4, 14]
  | .fsub _ o => chk2 o [2, 3, 4, 14]
  | .fmul _ o => chk2 o [2, 3, 4, 14]
  | .ffma _ o => chk3 o [2, 3, 4, 14]
  | .fmin _ o => chk2 o [2, 3, 4, 14]
  | .fmax _ o => chk2 o [2, 3, 4, 14]
  | .fabs _ o => chk1 o [2, 3, 4, 9, 10, 12, 14]
  | .fneg _ o => chk1 o [2, 3, 4, 9, 10, 12, 14]
  | .frnd _ o => { always := false, zero := unused11 o.b && o.c.num < 16 && o.c.num % 8 < 6, uses := [.dst o.d (tw o.t), .src o.a (tw o.t)], codes := tIn o.t [2, 3, 4, 14] }
  | .fscl _ o => { always := false, zero := unused11 o.c, uses := [.dst o.d (tw o.t), .src o.a (tw o.t), .src o.b .one], codes := tIn o.t [2, 3, 4, 14] }
  | .cvt _ o => chkCvt o
  | .packh _ o => chkPack o [3, 4, 5, 6] [0, 1, 2]
  | .packbl _ o => chkPack o [7, 8, 9, 10] [0, 1, 2]
  | .packbh _ o => chkPack o [7, 8, 9, 10] [0, 1, 2]
  | .packn _ o => chkPack o [11, 12, 13] [7, 8, 9, 10]
  | .unpk _ o => chkUnpk o
  | .dot4i _ o => chk3 o [7]
  | .dot4u _ o => chk3 o [8]
  | .dot8i _ o => chk3 o [11]
  | .dot4f _ o => chk3 o [9, 10]
  | .dot8f _ o => chk3 o [12]
  | .dot2h _ o => chk3 o [3, 4]
  | .frcp _ o => chk1 o [2, 14]
  | .frsq _ o => chk1 o [2, 3]
  | .fsqrt _ o => chk1 o [2, 14]
  | .fexp2 _ o => chk1 o [2, 3]
  | .flog2 _ o => chk1 o [2, 3]
  | .fsin _ o => chk1 o [2, 3]
  | .fcos _ o => chk1 o [2, 3]
  | .ftanh _ o => chk1 o [2, 3]
  | .fdiv _ o => chk2 o [2, 14]
  | .bra _ o => chkB o (o.aux == 0#8 && unused8 o.reg) []
  | .brx _ o => chkB o (o.aux == 0#8) [.code o.reg .one]
  | .call _ o => chkB o (o.aux == 0#8 && unused8 o.reg) []
  | .callc _ o => chkB o (o.disp == 0#25) [.creg o.reg.toNat]
  | .ret _ o => chkB o (o.disp == 0#25 && o.aux == 0#8) [.gOnly o.reg]
  | .retFar _ o => { always := false, zero := o.disp == 0#25 && o.flags == 1#4, uses := [.gOnly o.reg, .creg o.aux.toNat], codes := true }
  | .loop _ o => chkB o (o.aux == 0#8) [.gOnly o.reg]
  | .jmark _ o => chkB o (o.disp == 0#25 && o.aux.toNat < 8 && unused8 o.reg) []
  | .join _ o => chkB o (o.disp == 0#25 && o.aux.toNat < 8 && unused8 o.reg) []
  | .yield _ o => chkB o (o.disp == 0#25 && o.aux == 0#8 && unused8 o.reg) []
  | .exit _ o => chkB o (o.disp == 0#25 && o.aux == 0#8 && unused8 o.reg) []
  | .nop _ o => chkB o (o.disp == 0#25 && o.aux == 0#8 && unused8 o.reg) []
  | .runb _ o => { always := true, zero := o.disp == 0#25 && 1 ≤ o.aux.toNat && o.aux.toNat ≤ 24 && unused8 o.reg && o.flags == 0#4, uses := [], codes := true }
  | .rune _ o => { always := true, zero := o.disp.toNat % 512 == 0 && o.flags == 0#4, uses := [.slot (o.disp.extractLsb' 17 8), .slot (o.disp.extractLsb' 9 8), .slot o.aux, .slot o.reg], codes := true }
  | .enter _ o => chkB o (1 ≤ o.disp.toNat && o.disp.toNat ≤ 65536 && o.aux == 0#8 && unused8 o.reg) []
  | .leave _ o => chkB o (1 ≤ o.disp.toNat && o.disp.toNat ≤ 65536 && o.aux == 0#8 && unused8 o.reg) []
  | .shfl _ o => { always := false, zero := true, uses := [.dst o.d (tw o.t), .src o.a (tw o.t), .src o.b .one, .src o.c (tw o.t)], codes := tIn o.t [0, 14] }
  | .shflp _ o => { always := false, zero := unused11 o.c, uses := [.both o.d (tw o.t), .src o.a (tw o.t), .src o.b .one], codes := tIn o.t [0, 14] }
  | .vany _ o => { always := false, zero := o.a.sel == 0#3 && unused11 o.b && unused11 o.c, uses := [.pred o.d.toNat, predA o.a], codes := tIn o.t [0] }
  | .vall _ o => { always := false, zero := o.a.sel == 0#3 && unused11 o.b && unused11 o.c, uses := [.pred o.d.toNat, predA o.a], codes := tIn o.t [0] }
  | .ballot _ o => { always := false, zero := o.a.sel == 0#3 && o.b.num < (if o.t == 14#4 then 1 else 2) && unused11 o.c, uses := [.dst o.d (tw o.t), predA o.a], codes := tIn o.t [0, 14] }
  | .redux _ o => chkScan o
  | .scan _ o => chkScan o
  | .matchm _ o => { always := false, zero := o.b.num < 2 && unused11 o.c, uses := [.dst o.d .one, .src o.a (tw o.t)], codes := tIn o.t [0, 14] }
  | .rdvinit _ o => chkCap o (unused8 o.d && unused11 o.b && pointOk o.c) [.src o.a .one]
  | .rdvarr _ o => chkCap o (unused11 o.a && unused11 o.b && pointOk o.c) [.pred o.d.toNat]
  | .rdvwait _ o => chkCap o (unused11 o.a && unused11 o.b && pointOk o.c) [.pred o.d.toNat]
  | .rdvaw _ o => chkCap o (unused8 o.d && unused11 o.a && unused11 o.b && pointOk o.c) []
  | .sigwait _ o => chkCap o (unused8 o.d && o.c.num < 2) [.creg o.a.num, .src o.b .pair]
  | .sigpost _ o => chkCap o (unused8 o.d && unused11 o.c) [.creg o.a.num, .src o.b .one]
  | .phase _ o => chkCap o (unused8 o.d && unused11 o.b && unused11 o.c) [.src o.a .one]
  | .live _ o => chkCap o (unused8 o.d && unused11 o.c) [.src o.a .one, .src o.b .one]
  | .hop _ o => chkCap o (unused8 o.d && unused11 o.b && unused11 o.c) [.src o.a .one]
  | .launch _ o => chkCap o (unused11 o.b && unused11 o.c) [.dst o.d .pair, .creg o.a.num]
  | .lwait _ o => chkCap o (unused8 o.d && unused11 o.b && unused11 o.c) [.src o.a .one]
  | .ld _ o => chkMem o [.dst o.d (szw o.sz)] [0, 1, 2, 3, 4, 5, 6] [0, 1] true
  | .st _ o => chkMem o [.code o.d (szw o.sz)] [0, 1, 2, 3, 4] [0, 2] true
  | .ldw _ o => chkMem o [.dst o.d (szw o.sz)] [0, 1, 2, 3, 4, 5, 6] [0, 1] true
  | .ldc _ o => chkMem o [.creg o.d.toNat] [4] [0, 1] true
  | .stc _ o => chkMem o [.creg o.d.toNat] [4] [0, 2] true
  | .lds _ o => chkScr o [.dst o.d (szw o.sz)] [0, 1, 2, 3, 4, 5, 6] [0, 1] (o.rh == 0#2)
  | .sts _ o => chkScr o [.code o.d (szw o.sz)] [0, 1, 2, 3, 4] [0, 2] (o.rh == 0#2)
  | .cas _ o => chkMem o [.both o.d (if o.sz == 3#3 then .quad else .pair)] [2, 3] [0, 1, 2, 3] true
  | .cass _ o => chkScr o [.both o.d (if o.sz == 3#3 then .quad else .pair)] [2, 3] [0, 1, 2, 3] (o.rh == 0#2)
  | .pref _ o => chkMem o [] [0] [0] (unused8 o.d)
  | .atomAdd _ o => chkMem o (atomUse o) [2, 3] [0, 1, 2, 3] (o.rh.toNat % 2 == 0)
  | .atomMin _ o => chkMem o (atomUse o) [2, 3] [0, 1, 2, 3] (o.rh.toNat % 2 == 0)
  | .atomMax _ o => chkMem o (atomUse o) [2, 3] [0, 1, 2, 3] (o.rh.toNat % 2 == 0)
  | .atomMinu _ o => chkMem o (atomUse o) [2, 3] [0, 1, 2, 3] (o.rh.toNat % 2 == 0)
  | .atomMaxu _ o => chkMem o (atomUse o) [2, 3] [0, 1, 2, 3] (o.rh.toNat % 2 == 0)
  | .atomAnd _ o => chkMem o (atomUse o) [2, 3] [0, 1, 2, 3] (o.rh.toNat % 2 == 0)
  | .atomOr _ o => chkMem o (atomUse o) [2, 3] [0, 1, 2, 3] (o.rh.toNat % 2 == 0)
  | .atomXor _ o => chkMem o (atomUse o) [2, 3] [0, 1, 2, 3] (o.rh.toNat % 2 == 0)
  | .atomXchg _ o => chkMem o (atomUse o) [2, 3] [0, 1, 2, 3] (o.rh.toNat % 2 == 0)
  | .atomFadd _ o => chkMem o (atomUse o) [2, 3] [0, 1, 2, 3] (o.rh.toNat % 2 == 0)
  | .atomFmin _ o => chkMem o (atomUse o) [2, 3] [0, 1, 2, 3] (o.rh.toNat % 2 == 0)
  | .atomFmax _ o => chkMem o (atomUse o) [2, 3] [0, 1, 2, 3] (o.rh.toNat % 2 == 0)
  | .atomInc _ o => chkMem o (atomUse o) [2, 3] [0, 1, 2, 3] (o.rh.toNat % 2 == 0)
  | .atomsAdd _ o => chkScr o (atomUse o) [2, 3] [0, 1, 2, 3] (o.rh.toNat % 2 == 0)
  | .atomsMin _ o => chkScr o (atomUse o) [2, 3] [0, 1, 2, 3] (o.rh.toNat % 2 == 0)
  | .atomsMax _ o => chkScr o (atomUse o) [2, 3] [0, 1, 2, 3] (o.rh.toNat % 2 == 0)
  | .atomsMinu _ o => chkScr o (atomUse o) [2, 3] [0, 1, 2, 3] (o.rh.toNat % 2 == 0)
  | .atomsMaxu _ o => chkScr o (atomUse o) [2, 3] [0, 1, 2, 3] (o.rh.toNat % 2 == 0)
  | .atomsAnd _ o => chkScr o (atomUse o) [2, 3] [0, 1, 2, 3] (o.rh.toNat % 2 == 0)
  | .atomsOr _ o => chkScr o (atomUse o) [2, 3] [0, 1, 2, 3] (o.rh.toNat % 2 == 0)
  | .atomsXor _ o => chkScr o (atomUse o) [2, 3] [0, 1, 2, 3] (o.rh.toNat % 2 == 0)
  | .atomsXchg _ o => chkScr o (atomUse o) [2, 3] [0, 1, 2, 3] (o.rh.toNat % 2 == 0)
  | .atomsFadd _ o => chkScr o (atomUse o) [2, 3] [0, 1, 2, 3] (o.rh.toNat % 2 == 0)
  | .atomsFmin _ o => chkScr o (atomUse o) [2, 3] [0, 1, 2, 3] (o.rh.toNat % 2 == 0)
  | .atomsFmax _ o => chkScr o (atomUse o) [2, 3] [0, 1, 2, 3] (o.rh.toNat % 2 == 0)
  | .atomsInc _ o => chkScr o (atomUse o) [2, 3] [0, 1, 2, 3] (o.rh.toNat % 2 == 0)
  | .fence _ o => { always := false, zero := unused8 o.d && o.rh == 0#2 && o.cap == 0#5 && offUnused o && o.disp == 0#12, uses := [], codes := o.sz == 0#3 && o.ord == 0#2 }
  | .check _ o => { always := false, zero := unused8 o.d && o.rh == 0#2 && o.cap == 0#5 && offUnused o && o.disp == 0#12, uses := [], codes := o.sz == 0#3 && o.ord == 0#2 && o.scope == 0#2 }
  | .wset _ o => { always := false, zero := unused8 o.d && o.rh == 0#2 && o.cap == 0#5, uses := offUse o, codes := o.sz == 0#3 && o.ord == 0#2 && o.scope == 0#2 && o.sc == 0#3 }
  | .bankcfg _ o => { always := false, zero := o.rh == 0#2 && o.cap == 0#5 && offUnused o && o.disp.toNat / 1024 == 0 && o.disp.toNat / 64 % 4 == 0 && o.disp.toNat % 64 < 48 && o.disp.toNat / 256 % 4 < 3, uses := [.dst o.d .one], codes := o.sz == 0#3 && o.ord == 0#2 && o.scope == 0#2 }
  | .cgetb _ o => chkCap o (unused11 o.b && unused11 o.c) [.dst o.d .pair, .creg o.a.num]
  | .cgetl _ o => chkCap o (unused11 o.b && unused11 o.c) [.dst o.d .pair, .creg o.a.num]
  | .cgetp _ o => chkCap o (unused11 o.b && unused11 o.c) [.dst o.d .one, .creg o.a.num]
  | .cgetc _ o => chkCap o (unused11 o.b && unused11 o.c) [.dst o.d .one, .creg o.a.num]
  | .cgetk _ o => chkCap o (unused11 o.b && unused11 o.c) [.dst o.d .one, .creg o.a.num]
  | .cgett _ o => chkCap o (unused11 o.b && unused11 o.c) [.dst o.d .one, .creg o.a.num]
  | .cnarrow _ o => chkCap o true [.creg o.d.toNat, .creg o.a.num, .src o.b .pair, .src o.c .pair]
  | .candp _ o => chkCap o (unused11 o.c) [.creg o.d.toNat, .creg o.a.num, .src o.b .one]
  | .cseal _ o => chkCap o true [.creg o.d.toNat, .creg o.a.num, .creg o.b.num, .src o.c .one]
  | .cunseal _ o => chkCap o (unused11 o.c) [.creg o.d.toNat, .creg o.a.num, .creg o.b.num]
  | .cmov _ o => chkCap o (unused11 o.b && unused11 o.c) [.creg o.d.toNat, .creg o.a.num]
  | .cclrt _ o => chkCap o (unused11 o.b && unused11 o.c) [.creg o.d.toNat, .creg o.a.num]
  | .ctest _ o => chkCap o (unused11 o.c) [.pred o.d.toNat, .creg o.a.num, .creg o.b.num]
  | .csend _ o => chkCap o true [.pred o.d.toNat, .creg o.a.num, .creg o.b.num, .src o.c .pair]
  | .crecv _ o => chkCap o true [.creg o.d.toNat, .creg o.a.num, .dst11 o.b, .dst11 o.c]
  | .csetu _ o => chkCap o (unused11 o.c) [.creg o.d.toNat, .creg o.a.num, .src o.b .one]
  | .tdef _ o => chkX (o.flags == 0#9) [.code o.x1 .one, .code o.x2 .one, .code o.x3 .one] (o.t != 15#4)
  | .tfill _ o => chkX (o.flags.toNat < 8 && o.flags.toNat % 2 == 0) [.creg o.x1.toNat, .code o.x2 .one, .code o.x3 .one] (o.t == 0#4)
  | .tfillResume _ o => chkX (o.flags.toNat < 8 && o.flags.toNat % 2 == 1) [.creg o.x1.toNat, .code o.x2 .one, .code o.x3 .one] (o.t == 0#4)
  | .tdrain _ o => chkX (o.flags.toNat < 8 && o.flags.toNat % 2 == 0) [.creg o.x1.toNat, .code o.x2 .one, .code o.x3 .one] (o.t == 0#4)
  | .tdrainResume _ o => chkX (o.flags.toNat < 8 && o.flags.toNat % 2 == 1) [.creg o.x1.toNat, .code o.x2 .one, .code o.x3 .one] (o.t == 0#4)
  | .twait _ o => chkX (o.flags == 0#9 && unused8 o.x1 && unused8 o.x2 && unused8 o.x3) [] (o.t == 0#4)
  | .tstat _ o => chkX (o.flags == 0#9 && unused8 o.x2 && unused8 o.x3) [.dst o.x0 .pair] (o.t == 0#4)
  | .tfree _ o => chkX (o.flags == 0#9 && unused8 o.x1 && unused8 o.x2 && unused8 o.x3) [] (o.t == 0#4)
  | .tgive _ o => chkX (o.flags == 0#9 && unused8 o.x1 && unused8 o.x2 && unused8 o.x3) [] (o.t == 0#4)
  | .fstart _ o => chkX (o.flags == 0#9 && unused8 o.x2 && unused8 o.x3) [.dst o.x0 .one] (o.t == 0#4)
  | .fpush _ o => chkX (o.flags == 0#9 && unused8 o.x3 && o.x0.toNat < 8) [.code o.x1 .quad] (o.t == 0#4)
  | .fpop _ o => chkX (o.flags == 0#9 && unused8 o.x3 && o.x1.toNat < 8) ([.dst o.x0 .quad] ++ (if unused8 o.x2 then [] else [.pred o.x2.toNat])) (o.t == 0#4)
  | .fwait _ o => chkX (o.flags == 0#9 && unused8 o.x3 && o.x1.toNat < 8 && 1 ≤ o.x2.toNat && o.x2.toNat ≤ 64) [.pred o.x0.toNat] (o.t == 0#4)
  | .fstop _ o => chkX (o.flags == 0#9 && unused8 o.x0 && unused8 o.x1 && unused8 o.x2 && unused8 o.x3) [] (o.t == 0#4)
  | .cmdrun _ o => chkX (o.flags == 0#9 && unused8 o.x0 && unused8 o.x2 && unused8 o.x3) [.creg o.x1.toNat] (o.t == 0#4)
  | .cmdpoll _ o => chkX (o.flags == 0#9 && unused8 o.x3) [.pred o.x0.toNat, .creg o.x1.toNat, .code o.x2 .pair] (o.t == 0#4)
  | .rkmark _ o => chkX (o.flags == 0#9) [.pred o.x0.toNat, .creg o.x1.toNat, .code o.x2 .pair, .code o.x3 .pair] (o.t == 0#4)
  | .rkmarkRelocate _ o => chkX (o.flags == 1#9) [.pred o.x0.toNat, .creg o.x1.toNat, .code o.x2 .pair, .code o.x3 .quad] (o.t == 0#4)
  | .rkpass _ o => chkX (o.flags.toNat < 4 && o.flags.toNat % 2 == 0 && (if o.flags.toNat / 2 = 1 then unused8 o.x2 else unused8 o.x3)) ([.dst o.x0 .pair, .creg o.x1.toNat] ++ (if o.flags.toNat / 2 = 1 then [.creg o.x3.toNat] else [.code o.x2 .pair])) (o.t == 0#4)
  | .rkpassRelocate _ o => chkX (o.flags.toNat < 4 && o.flags.toNat % 2 == 1 && (if o.flags.toNat / 2 = 1 then unused8 o.x2 else unused8 o.x3)) ([.dst o.x0 .pair, .creg o.x1.toNat] ++ (if o.flags.toNat / 2 = 1 then [.creg o.x3.toNat] else [.code o.x2 .pair])) (o.t == 0#4)
  | .rkwait _ o => chkX (o.flags == 0#9 && unused8 o.x1 && unused8 o.x2 && unused8 o.x3) [.code o.x0 .one] (o.t == 0#4)
  | .rkstat _ o => chkX (o.flags == 0#9 && unused8 o.x2 && unused8 o.x3) [.dst o.x0 .pair, .code o.x1 .one] (o.t == 0#4)
  | .stmr _ o => chkX (o.flags == 0#9 && unused8 o.x3) [.code o.x0 .one, .creg o.x1.toNat, .code o.x2 .one] (tIn o.t [0, 2, 4])
  | .mrwait _ o => chkX (o.flags == 0#9 && unused8 o.x3) [.code o.x0 .one, .creg o.x1.toNat, .code o.x2 .one] (o.t == 0#4)
  | .mma _ o => chkX (o.flags == 0#9 && unused8 o.x3) [.code o.x0 .one] (o.t == 0#4)
  | .accalloc _ o => chkX (o.flags.toNat < 3 && unused8 o.x3) [.pred o.x0.toNat, .dst o.x1 .one] (o.t == 0#4)
  | .accfree _ o => chkX (o.flags == 0#9 && unused8 o.x2 && unused8 o.x3) [.code o.x0 .one] (o.t == 0#4)
  | .acczero _ o => chkX (o.flags == 0#9 && unused8 o.x1 && unused8 o.x2 && unused8 o.x3) [.code o.x0 .one] (tIn o.t [0, 14])
  | .accrd _ o => chkX (o.flags == 0#9 && unused8 o.x3 && o.x2.toNat < 8 && (o.t != 0#4 || o.x2.toNat < 4)) [.dst o.x0 .quad, .code o.x1 .one] (tIn o.t [0, 14])
  | .accwr _ o => chkX (o.flags == 0#9 && unused8 o.x3 && o.x2.toNat < 8 && (o.t != 0#4 || o.x2.toNat < 4)) [.code o.x0 .quad, .code o.x1 .one] (tIn o.t [0, 14])
  | .accst _ o => chkX (o.flags.toNat < 32 && unused8 o.x3) ([.code o.x1 .one] ++ (if o.flags.toNat / 16 = 1 then [] else [.code o.x2 .one])) (tIn o.t [0, 2, 3, 4, 7, 9, 10, 11, 12, 14])
  | .bht _ o => chkX (o.flags == 0#9 && unused8 o.x2 && unused8 o.x3 && [16, 32, 64].contains o.x1.toNat) [] (o.t == 0#4)
  | .tqnt _ o => chkX (o.flags.toNat < 32 && unused8 o.x3) (if o.flags.toNat / 16 = 1 then [] else [.code o.x2 .one]) (o.t == 0#4)
  | .ttrn _ o => chkX (o.flags == 0#9 && unused8 o.x2 && unused8 o.x3) [] (o.t == 0#4)
  | .srr _ o => chkS o (unused11 o.a) [.dst o.d (if sprWide o.num.toNat then .pair else .one)] (sprKnown o.num.toNat)
  | .srw _ o => chkS o (unused8 o.d) [.src o.a (if sprWide o.num.toNat then .pair else .one)] (sprKnown o.num.toNat)
  | .trap _ o => chkS o (unused8 o.d && unused11 o.a) [] true
  | .eret _ o => chkS o (unused8 o.d && unused11 o.a && o.num == 0#16) [] true
  | .brk _ o => chkS o (unused8 o.d && unused11 o.a) [] true
  | .perf _ o => chkS o (unused11 o.a && o.num.toNat < 8) [.dst o.d .pair] true
  | .sleep _ o => chkS o (unused8 o.d && o.num == 0#16) [.src o.a .one] true
  | .parkq _ o => chkS o (unused11 o.a && o.num == 0#16) [.dst o.d .pair] true
  | .pairWord _ _ _ => chkX true [] true
  | .sheafChoice _ _ => chkX true [] true
  | .yieldHoldEnd _ _ => chkX true [] true
  | .runCommit _ _ => chkX true [] true
  | .joinRelease _ _ => chkX true [] true
  | .sleepEnd _ _ => chkX true [] true
  | .phaseOverrun _ => chkX true [] true
  | .asyncFaultDelivery _ _ => chkX true [] true
  | .sigwaitReload _ _ => chkX true [] true
  | .sigwaitHostPoll _ _ _ => chkX true [] true
  | .ltimeTick _ => chkX true [] true
  | .seasonBoundary => chkX true [] true
  | .homeRenew _ => chkX true [] true
  | .loadReply _ _ => chkX true [] true
  | .homeWrite _ => chkX true [] true
  | .homeRead _ _ => chkX true [] true
  | .storeAck _ _ => chkX true [] true
  | .otherPartyWrite _ _ => chkX true [] true
  | .csendAtHome _ => chkX true [] true
  | .crecvAtHome _ => chkX true [] true
  | .conditionalWriteback _ => chkX true [] true
  | .writebackReply _ => chkX true [] true
  | .writeLostAnswer _ => chkX true [] true
  | .granuleEntryWrite _ _ _ => chkX true [] true
  | .heldAccessRecheck _ => chkX true [] true
  | .eccUncorrectable _ => chkX true [] true
  | .bankSwitchDone _ _ => chkX true [] true
  | .stageSetDispatch _ => chkX true [] true
  | .stealRequest _ => chkX true [] true
  | .stealReply _ => chkX true [] true
  | .teamRetire _ => chkX true [] true
  | .launchComplete _ => chkX true [] true
  | .runnerStart _ => chkX true [] true
  | .runnerComplete _ => chkX true [] true
  | .travelDepart _ _ => chkX true [] true
  | .packetRelay _ => chkX true [] true
  | .ringToFifo _ _ _ => chkX true [] true
  | .packetPlace _ _ _ => chkX true [] true
  | .sheafRelease _ => chkX true [] true
  | .depthBroadcast _ => chkX true [] true
  | .cuttingAdd _ _ _ => chkX true [] true
  | .cuttingRemove _ _ _ => chkX true [] true
  | .copyRow _ => chkX true [] true
  | .tileTransferDone _ => chkX true [] true
  | .commandCopyDone _ => chkX true [] true
  | .mmaComplete _ _ => chkX true [] true
  | .arrayOpDone _ _ => chkX true [] true
  | .accallocGrant _ => chkX true [] true
  | .rakePassStart => chkX true [] true
  | .rakeBatch => chkX true [] true
  | .rakePeerReport _ => chkX true [] true
  | .rakePassComplete => chkX true [] true
  | .permitRequest _ _ => chkX true [] true
  | .permitGrant _ => chkX true [] true
  | .mrDelivery _ _ => chkX true [] true
  | .mrSwitchSum _ _ _ => chkX true [] true
  | .mrGroupInvalidate _ => chkX true [] true
  | .handlerEntry _ _ => chkX true [] true
  | .stopRequest _ _ => chkX true [] true
  | .unitAck _ _ => chkX true [] true
  | .contextStopped _ => chkX true [] true
  | .save _ => chkX true [] true
  | .restore _ => chkX true [] true
  | .quantumChange => chkX true [] true
  | .queueMapping => chkX true [] true
  | .queueKick _ _ _ => chkX true [] true
  | .queueCommandBegin _ _ => chkX true [] true
  | .queueNop _ => chkX true [] true
  | .queueLaunch _ => chkX true [] true
  | .queueWait _ _ => chkX true [] true
  | .queuePost _ => chkX true [] true
  | .adminDb _ _ => chkX true [] true
  | .ctxCreate _ _ => chkX true [] true
  | .ctxHandler _ _ => chkX true [] true
  | .ctxDestroy _ _ => chkX true [] true
  | .objLoad _ _ _ => chkX true [] true
  | .qCreate _ _ => chkX true [] true
  | .qDestroy _ _ => chkX true [] true
  | .monSet _ _ => chkX true [] true
  | .cntClear _ _ => chkX true [] true
  | .aperture _ _ => chkX true [] true
  | .monRead _ _ => chkX true [] true
  | .ctxQuery _ _ => chkX true [] true
  | .vfColours _ _ _ => chkX true [] true
  | .qtabWrite _ _ => chkX true [] true
  | .ctxMigrate _ _ _ _ => chkX true [] true
  | .pctWrite _ _ => chkX true [] true
  | .attest _ _ => chkX true [] true
  | .vfEn _ => chkX true [] true
  | .vfReset _ => chkX true [] true
  | .evtHead _ _ => chkX true [] true
  | .evtDrop _ => chkX true [] true
  | .registerWrite _ _ _ _ => chkX true [] true
  | .apertureRead _ _ _ _ => chkX true [] true
  | .apertureWrite _ _ _ _ => chkX true [] true
  | .counterOverflow _ _ => chkX true [] true
  | .ingressAccess _ => chkX true [] true
  | .portStateChange _ _ => chkX true [] true
  | .keyAgreement _ _ _ => chkX true [] true
  | .epochGraceEnd _ => chkX true [] true
  | .thermalStop _ _ => chkX true [] true
  | .thermalResume _ _ => chkX true [] true
  | .boot _ => chkX true [] true
  | .stackCacheSpill _ _ _ _ => chkX true [] true
  | .objectUnload _ _ => chkX true [] true
  | .groupDescriptorSet _ _ => chkX true [] true
  | .peerSweep _ _ _ => chkX true [] true
  | .pcieCompletion _ _ => chkX true [] true
  | .pcieWriteDeparture _ => chkX true [] true
  | .evtCtl _ _ => chkX true [] true

/-- The guard of a full word; events and pair words have none. -/
def Instr.guard : Instr → Option Guard
  | .add h _ => some h
  | .sub h _ => some h
  | .mul h _ => some h
  | .mulh h _ => some h
  | .mulhu h _ => some h
  | .mad h _ => some h
  | .and h _ => some h
  | .or h _ => some h
  | .xor h _ => some h
  | .andn h _ => some h
  | .orn h _ => some h
  | .shl h _ => some h
  | .shr h _ => some h
  | .sar h _ => some h
  | .rot h _ => some h
  | .sel h _ => some h
  | .min h _ => some h
  | .max h _ => some h
  | .abs h _ => some h
  | .clz h _ => some h
  | .popc h _ => some h
  | .brev h _ => some h
  | .bfx h _ => some h
  | .bfi h _ => some h
  | .div h _ => some h
  | .rem h _ => some h
  | .addc h _ => some h
  | .subb h _ => some h
  | .lop3 h _ => some h
  | .prmt h _ => some h
  | .mov h _ => some h
  | .sad h _ => some h
  | .addi h _ => some h
  | .andi h _ => some h
  | .ori h _ => some h
  | .xori h _ => some h
  | .shli h _ => some h
  | .shri h _ => some h
  | .sari h _ => some h
  | .muli h _ => some h
  | .lih h _ => some h
  | .icmp h _ => some h
  | .fcmp h _ => some h
  | .fclass h _ => some h
  | .plop3 h _ => some h
  | .p2g h _ => some h
  | .g2p h _ => some h
  | .fadd h _ => some h
  | .fsub h _ => some h
  | .fmul h _ => some h
  | .ffma h _ => some h
  | .fmin h _ => some h
  | .fmax h _ => some h
  | .fabs h _ => some h
  | .fneg h _ => some h
  | .frnd h _ => some h
  | .fscl h _ => some h
  | .cvt h _ => some h
  | .packh h _ => some h
  | .packbl h _ => some h
  | .packbh h _ => some h
  | .packn h _ => some h
  | .unpk h _ => some h
  | .dot4i h _ => some h
  | .dot4u h _ => some h
  | .dot8i h _ => some h
  | .dot4f h _ => some h
  | .dot8f h _ => some h
  | .dot2h h _ => some h
  | .frcp h _ => some h
  | .frsq h _ => some h
  | .fsqrt h _ => some h
  | .fexp2 h _ => some h
  | .flog2 h _ => some h
  | .fsin h _ => some h
  | .fcos h _ => some h
  | .ftanh h _ => some h
  | .fdiv h _ => some h
  | .bra h _ => some h
  | .brx h _ => some h
  | .call h _ => some h
  | .callc h _ => some h
  | .ret h _ => some h
  | .retFar h _ => some h
  | .loop h _ => some h
  | .jmark h _ => some h
  | .join h _ => some h
  | .yield h _ => some h
  | .exit h _ => some h
  | .nop h _ => some h
  | .runb h _ => some h
  | .rune h _ => some h
  | .enter h _ => some h
  | .leave h _ => some h
  | .shfl h _ => some h
  | .shflp h _ => some h
  | .vany h _ => some h
  | .vall h _ => some h
  | .ballot h _ => some h
  | .redux h _ => some h
  | .scan h _ => some h
  | .matchm h _ => some h
  | .rdvinit h _ => some h
  | .rdvarr h _ => some h
  | .rdvwait h _ => some h
  | .rdvaw h _ => some h
  | .sigwait h _ => some h
  | .sigpost h _ => some h
  | .phase h _ => some h
  | .live h _ => some h
  | .hop h _ => some h
  | .launch h _ => some h
  | .lwait h _ => some h
  | .ld h _ => some h
  | .st h _ => some h
  | .ldw h _ => some h
  | .ldc h _ => some h
  | .stc h _ => some h
  | .lds h _ => some h
  | .sts h _ => some h
  | .cas h _ => some h
  | .cass h _ => some h
  | .pref h _ => some h
  | .atomAdd h _ => some h
  | .atomMin h _ => some h
  | .atomMax h _ => some h
  | .atomMinu h _ => some h
  | .atomMaxu h _ => some h
  | .atomAnd h _ => some h
  | .atomOr h _ => some h
  | .atomXor h _ => some h
  | .atomXchg h _ => some h
  | .atomFadd h _ => some h
  | .atomFmin h _ => some h
  | .atomFmax h _ => some h
  | .atomInc h _ => some h
  | .atomsAdd h _ => some h
  | .atomsMin h _ => some h
  | .atomsMax h _ => some h
  | .atomsMinu h _ => some h
  | .atomsMaxu h _ => some h
  | .atomsAnd h _ => some h
  | .atomsOr h _ => some h
  | .atomsXor h _ => some h
  | .atomsXchg h _ => some h
  | .atomsFadd h _ => some h
  | .atomsFmin h _ => some h
  | .atomsFmax h _ => some h
  | .atomsInc h _ => some h
  | .fence h _ => some h
  | .check h _ => some h
  | .wset h _ => some h
  | .bankcfg h _ => some h
  | .cgetb h _ => some h
  | .cgetl h _ => some h
  | .cgetp h _ => some h
  | .cgetc h _ => some h
  | .cgetk h _ => some h
  | .cgett h _ => some h
  | .cnarrow h _ => some h
  | .candp h _ => some h
  | .cseal h _ => some h
  | .cunseal h _ => some h
  | .cmov h _ => some h
  | .cclrt h _ => some h
  | .ctest h _ => some h
  | .csend h _ => some h
  | .crecv h _ => some h
  | .csetu h _ => some h
  | .tdef h _ => some h
  | .tfill h _ => some h
  | .tfillResume h _ => some h
  | .tdrain h _ => some h
  | .tdrainResume h _ => some h
  | .twait h _ => some h
  | .tstat h _ => some h
  | .tfree h _ => some h
  | .tgive h _ => some h
  | .fstart h _ => some h
  | .fpush h _ => some h
  | .fpop h _ => some h
  | .fwait h _ => some h
  | .fstop h _ => some h
  | .cmdrun h _ => some h
  | .cmdpoll h _ => some h
  | .rkmark h _ => some h
  | .rkmarkRelocate h _ => some h
  | .rkpass h _ => some h
  | .rkpassRelocate h _ => some h
  | .rkwait h _ => some h
  | .rkstat h _ => some h
  | .stmr h _ => some h
  | .mrwait h _ => some h
  | .mma h _ => some h
  | .accalloc h _ => some h
  | .accfree h _ => some h
  | .acczero h _ => some h
  | .accrd h _ => some h
  | .accwr h _ => some h
  | .accst h _ => some h
  | .bht h _ => some h
  | .tqnt h _ => some h
  | .ttrn h _ => some h
  | .srr h _ => some h
  | .srw h _ => some h
  | .trap h _ => some h
  | .eret h _ => some h
  | .brk h _ => some h
  | .perf h _ => some h
  | .sleep h _ => some h
  | .parkq h _ => some h
  | .pairWord _ _ _ => none
  | .sheafChoice _ _ => none
  | .yieldHoldEnd _ _ => none
  | .runCommit _ _ => none
  | .joinRelease _ _ => none
  | .sleepEnd _ _ => none
  | .phaseOverrun _ => none
  | .asyncFaultDelivery _ _ => none
  | .sigwaitReload _ _ => none
  | .sigwaitHostPoll _ _ _ => none
  | .ltimeTick _ => none
  | .seasonBoundary => none
  | .homeRenew _ => none
  | .loadReply _ _ => none
  | .homeWrite _ => none
  | .homeRead _ _ => none
  | .storeAck _ _ => none
  | .otherPartyWrite _ _ => none
  | .csendAtHome _ => none
  | .crecvAtHome _ => none
  | .conditionalWriteback _ => none
  | .writebackReply _ => none
  | .writeLostAnswer _ => none
  | .granuleEntryWrite _ _ _ => none
  | .heldAccessRecheck _ => none
  | .eccUncorrectable _ => none
  | .bankSwitchDone _ _ => none
  | .stageSetDispatch _ => none
  | .stealRequest _ => none
  | .stealReply _ => none
  | .teamRetire _ => none
  | .launchComplete _ => none
  | .runnerStart _ => none
  | .runnerComplete _ => none
  | .travelDepart _ _ => none
  | .packetRelay _ => none
  | .ringToFifo _ _ _ => none
  | .packetPlace _ _ _ => none
  | .sheafRelease _ => none
  | .depthBroadcast _ => none
  | .cuttingAdd _ _ _ => none
  | .cuttingRemove _ _ _ => none
  | .copyRow _ => none
  | .tileTransferDone _ => none
  | .commandCopyDone _ => none
  | .mmaComplete _ _ => none
  | .arrayOpDone _ _ => none
  | .accallocGrant _ => none
  | .rakePassStart => none
  | .rakeBatch => none
  | .rakePeerReport _ => none
  | .rakePassComplete => none
  | .permitRequest _ _ => none
  | .permitGrant _ => none
  | .mrDelivery _ _ => none
  | .mrSwitchSum _ _ _ => none
  | .mrGroupInvalidate _ => none
  | .handlerEntry _ _ => none
  | .stopRequest _ _ => none
  | .unitAck _ _ => none
  | .contextStopped _ => none
  | .save _ => none
  | .restore _ => none
  | .quantumChange => none
  | .queueMapping => none
  | .queueKick _ _ _ => none
  | .queueCommandBegin _ _ => none
  | .queueNop _ => none
  | .queueLaunch _ => none
  | .queueWait _ _ => none
  | .queuePost _ => none
  | .adminDb _ _ => none
  | .ctxCreate _ _ => none
  | .ctxHandler _ _ => none
  | .ctxDestroy _ _ => none
  | .objLoad _ _ _ => none
  | .qCreate _ _ => none
  | .qDestroy _ _ => none
  | .monSet _ _ => none
  | .cntClear _ _ => none
  | .aperture _ _ => none
  | .monRead _ _ => none
  | .ctxQuery _ _ => none
  | .vfColours _ _ _ => none
  | .qtabWrite _ _ => none
  | .ctxMigrate _ _ _ _ => none
  | .pctWrite _ _ => none
  | .attest _ _ => none
  | .vfEn _ => none
  | .vfReset _ => none
  | .evtHead _ _ => none
  | .evtDrop _ => none
  | .registerWrite _ _ _ _ => none
  | .apertureRead _ _ _ _ => none
  | .apertureWrite _ _ _ _ => none
  | .counterOverflow _ _ => none
  | .ingressAccess _ => none
  | .portStateChange _ _ => none
  | .keyAgreement _ _ _ => none
  | .epochGraceEnd _ => none
  | .thermalStop _ _ => none
  | .thermalResume _ _ => none
  | .boot _ => none
  | .stackCacheSpill _ _ _ _ => none
  | .objectUnload _ _ => none
  | .groupDescriptorSet _ _ => none
  | .peerSweep _ _ _ => none
  | .pcieCompletion _ _ => none
  | .pcieWriteDeparture _ => none
  | .evtCtl _ _ => none

/-- A g-register name lies in the allocation (R61). -/
def gAlloc (regs n : Nat) : Bool := n + 4 ≤ regs || (189 ≤ n && n ≤ 191) || regs == 192

/-- A predicate name lies in the allocation (R61). -/
def pAlloc (preds n : Nat) : Bool := n < preds

/-- The registers a wide code covers. -/
def Wd.span : Wd → Nat
  | .one => 1
  | .f64 => 2
  | .pair => 2
  | .quad => 4


/-- A wide code is an aligned g-register (R37, R60). -/
def wideOk (r : BitVec 8) : Wd → Bool
  | .one => true
  | .quad => r.toNat < 0xC0 && r.toNat % 4 == 0
  | _ => r.toNat < 0xC0 && r.toNat % 2 == 0

/-- Every g-register a code of a width covers lies in the allocation (the first alone where the code is misaligned);
other classes are always present. Log 25 (DEDUCED). -/
def spanAlloc (regs : Nat) (r : BitVec 8) (w : Wd) : Bool :=
  !(r.toNat < 0xC0) || (List.range (if wideOk r w then w.span else 1)).all fun k => gAlloc regs (r.toNat + k)

/-- The sel3 codes a wide source accepts (R62). -/
def selOk (x : Spec11) : Wd → Bool
  | .one => true
  | .f64 => x.sel == 0#3 || x.sel == 7#3
  | _ => x.sel == 0#3

/-- Reason 0x05: the code may stand where it stands (R60, R126); the high bits of a c-register field are part of its code. Log 24 (DEDUCED). -/
def use05 : Use → Bool
  | .src x _ => x.reg.toNat < 0xF8
  | .code r _ => r.toNat < 0xF8
  | .dst r _ => r.toNat ≤ 0xF0
  | .both r _ => r.toNat ≤ 0xF0
  | .dst11 x => x.reg.toNat ≤ 0xF0
  | .gOnly r => r.toNat < 0xC0
  | .slot r => r.toNat < 0xC0 || r.toNat == 0xFF
  | .pred n => n ≤ 47
  | .creg n => n < 32

/-- Reason 0x06: the name lies in the kernel's allocation (R61). Log 25 (DEDUCED). -/
def use06 (regs preds : Nat) : Use → Bool
  | .src x w => spanAlloc regs x.reg w
  | .code r w => spanAlloc regs r w
  | .dst r w => spanAlloc regs r w
  | .both r w => spanAlloc regs r w
  | .dst11 x => spanAlloc regs x.reg .pair
  | .gOnly r => spanAlloc regs r .one
  | .slot r => spanAlloc regs r .one
  | .pred n => pAlloc preds n
  | .creg _ => true

/-- Reason 0x08: a wide register is aligned and of the right class, and its sel3 is allowed. Log 25 (DEDUCED). -/
def use08 : Use → Bool
  | .src x w => wideOk x.reg w && selOk x w
  | .code r w => wideOk r w
  | .dst r w => wideOk r w
  | .both r w => wideOk r w
  | .dst11 x => wideOk x.reg .pair && x.sel == 0#3
  | _ => true

/-- The guard names a predicate or is "always" (R57, reason 0x03). -/
def guardOk (g : Guard) (always : Bool) : Bool :=
  (g.pg.toNat < 48 || (g.pg == 63#6 && g.pn == 0#1)) && (!always || g.pg == 63#6)

/-- The registers of a pair slot as uses (R68). -/
def slotUses (s : Slot) : List Use :=
  if s.op == 12#6 then
    (if s.i == 1#1 then [.dst s.d .one] else [.dst s.d .one, .code s.a .one])
  else if s.i == 1#1 then [.dst s.d .one, .code s.a .one] else [.dst s.d .one, .code s.a .one, .code s.b .one]

/-- The unused source field of a MOV slot holds 0xFF (R68). Log 24 (DEDUCED). -/
def slotMov (s : Slot) : Bool := s.op != 12#6 || (if s.i == 1#1 then s.a == 0xFF#8 else s.b == 0xFF#8)

/-- The distinct g-registers a slot reads. -/
def slotG (s : Slot) : List Nat := (slotUses s).filterMap fun u =>
  match u with
  | .code r _ => if r.toNat < 0xC0 then some r.toNat else none
  | _ => none

/-- No two distinct g-registers of a list share a bank (R69). -/
def banksOk : List Nat → Bool
  | [] => true
  | n :: t => t.all (fun m => m == n || m % 4 != n % 4) && banksOk t

/-- The first failing check of a pair word, in the order of R72. Log 24 (DEDUCED). -/
def pairReason (regs preds : Nat) (x y : Slot) (z : BitVec 1) : Option Byte :=
  let us := slotUses x ++ slotUses y
  if 21 ≤ x.op.toNat || 21 ≤ y.op.toNat then some 0x02
  else if !(z == 0#1 && slotMov x && slotMov y) then some 0x04
  else if !us.all use05 then some 0x05
  else if !us.all (use06 regs preds) then some 0x06
  else if x.d == y.d && x.d != 0xF0#8 then some 0x11
  else if !banksOk (slotG x ++ slotG y) then some 0x12
  else if (x.i == 1#1 && 13 ≤ x.op.toNat) || (y.i == 1#1 && 13 ≤ y.op.toNat) then some 0x13
  else none

/-- The first failing check of a full word, in the order of R72. -/
def fullReason (regs preds : Nat) (g : Guard) (k : Chk) : Option Byte :=
  if !guardOk g k.always then some 0x03
  else if !k.zero then some 0x04
  else if !k.uses.all use05 then some 0x05
  else if !(k.uses.all (use06 regs preds) && (g.pg == 63#6 || pAlloc preds g.pg.toNat)) then some 0x06
  else if !k.codes then some 0x07
  else if !k.uses.all use08 then some 0x08
  else none

/-- The first failing check of an instruction; events have none. Log 25 (DEDUCED). -/
def wordReason (regs preds : Nat) (i : Instr) : Option Byte :=
  match i with
  | .pairWord x y z => pairReason regs preds x y z
  | _ =>
    match Instr.guard i with
    | some g => fullReason regs preds g (wordChk i)
    | none => none

end Sys2Proof
end

