-- ==== Sys2Proof/Config.lean ====
section
/-! DEFINITION. The values the manual leaves open, as constants with no body, and the fixed figures of the part. A
statement that holds of the model holds whatever these functions are. -/

namespace Sys2Proof

/-- A free byte, applied to the model's own counter `State.free` (a value the manual does not state). -/
opaque Config.freeByte : Nat → Byte

/-- A free 32-bit value, applied to the model's own counter `State.free`. -/
opaque Config.freeWord : Nat → Word

/-- A free 64-bit value, applied to the model's own counter `State.free`. -/
opaque Config.freeDWord : Nat → DWord

/-- A free choice between two permitted results, applied to the model's own counter `State.free`. -/
opaque Config.freeBool : Nat → Bool

/-- A free natural number, applied to the model's own counter `State.free`. -/
opaque Config.freeNat : Nat → Nat

/-- Which neighbour a faithfully rounded special function returns (R114): the function's number, its element
format and the input's bits; true picks the neighbour above. The device's tables are not published.
Log 11 (DEDUCED). -/
opaque Config.sfuUpper : Nat → Nat → DWord → Bool

/-- The order of the lanes of one word that touch the same bytes at device or system scope (R294): the lane
with the lower key goes first; the first argument is the model's counter. -/
opaque Config.laneKey : Nat → Nat → Nat

/-- SHA3-256 of a byte string (R442). Log 10 (DESIGN CHOICE). -/
opaque Config.sha3 : List Byte → BitVec 256

/-- ML-DSA-44 verification against the Rilnum key in the boot ROM (R442): digest and signature.
Log 10 (DESIGN CHOICE). -/
opaque Config.verify : BitVec 256 → List Byte → Bool

/-- The ML-DSA-44 signature under the device attestation key (R442), byte by byte. Log 10 (DESIGN CHOICE). -/
opaque Config.signByte : List Byte → Nat → Byte

/-- The 256-bit key a port pair agrees (R428): port, partner and epoch. Log 10 (DESIGN CHOICE). -/
opaque Config.portKey : Nat → Nat → Nat → BitVec 256

/-- KMAC256 over a wire form (R428). Log 10 (DESIGN CHOICE). -/
opaque Config.kmac : BitVec 256 → List Byte → DWord

/-- The silicon revision fused in the ID register (R438). -/
opaque Config.revision : Byte

/-- Firmware's choice of a free 2 MiB granule for a code region or a save area (R170, R396), by the model's counter.
Log 21 (DESIGN CHOICE). -/
opaque Config.place : Nat → Nat

/-- Where `.caps` ends in the globals image of an object file (R156, R162): the header of R154 does not give it. Log 43 (DEDUCED). -/
opaque Config.capsEnd : List Byte → Nat

/-- A fabric switch that a port is joined to reaches a peer (R425, R426): port and peer. Log 49 (DESIGN CHOICE). -/
opaque Config.behindSwitch : Nat → Nat → Bool

/-- Accumulated power and temperature: whether the governor may grant a permit now (R336), by the model's counter. -/
opaque Config.permitFree : Nat → Bool

/-- The length of a lease, in ticks (R271). -/
def Config.lease : Nat := 64

/-- Cycles in a season (R269). -/
def Config.seasonCycles : Nat := 1024

/-- Cores of the package with every cluster at seven (R1, R206). -/
def Config.cores : Nat := 448

/-- The device number that names the issuing device (R17). Log 7 (DESIGN CHOICE). -/
def Config.selfDevice : Nat := 0x1FF

end Sys2Proof
end

