-- ==== Sys2Proof/Machine/Tab.lean ====
section
/-! DEFINITION. A finite table keyed by natural numbers, as a list of pairs in rising key order. Every
register file, sparse memory and device table of the state is one. `get` reads an unlisted key as a
given default, and `set` keeps the canonical form: keys strictly rising and no entry equal to the default. -/

namespace Sys2Proof

/-- A finite table: a list of (key, value) pairs, keys strictly rising. -/
abbrev Tab (α : Type) := List (Nat × α)

/-- The value listed for a key, if any. -/
def Tab.at? {α : Type} : Tab α → Nat → Option α
  | [], _ => none
  | (k, v) :: t, x => if k = x then some v else Tab.at? t x

/-- The table without any entry for a key. -/
def Tab.drop {α : Type} : Tab α → Nat → Tab α
  | [], _ => []
  | (k, v) :: t, x => if k = x then Tab.drop t x else (k, v) :: Tab.drop t x

/-- The table with a pair put before the first entry of a larger key. -/
def Tab.insert {α : Type} : Tab α → Nat → α → Tab α
  | [], x, w => [(x, w)]
  | (k, v) :: t, x, w => if k < x then (k, v) :: Tab.insert t x w else (x, w) :: (k, v) :: t

/-- The table with one key's entry replaced. -/
def Tab.put {α : Type} (t : Tab α) (x : Nat) (w : α) : Tab α := Tab.insert (Tab.drop t x) x w

/-- The value of a key, an unlisted key reading as the default. -/
def Tab.get {α : Type} (d : α) (t : Tab α) (x : Nat) : α :=
  match Tab.at? t x with
  | some v => v
  | none => d

/-- The table with a key set, an entry equal to the default being left out. -/
def Tab.set {α : Type} [DecidableEq α] (d : α) (t : Tab α) (x : Nat) (w : α) : Tab α :=
  if w = d then Tab.drop t x else Tab.put t x w

/-- The keys of a table, in order. -/
def Tab.keys {α : Type} (t : Tab α) : List Nat := t.map (·.1)

/-- The values of a table, in key order. -/
def Tab.vals {α : Type} (t : Tab α) : List α := t.map (·.2)

/-- The table with a function applied to one key's value (the default where it is unlisted). -/
def Tab.modify {α : Type} (d : α) (t : Tab α) (x : Nat) (f : α → α) : Tab α :=
  Tab.put t x (f (Tab.get d t x))

/-- The lowest natural number below `n` that is not a key. -/
def Tab.firstFree {α : Type} (t : Tab α) (n : Nat) : Option Nat :=
  (List.range n).find? fun k => (Tab.at? t k).isNone

/-- The first position at which a list of naturals is minimal, with its value. -/
def minPos : List (Nat × Nat) → Option (Nat × Nat)
  | [] => none
  | (k, v) :: t =>
    match minPos t with
    | none => some (k, v)
    | some (k', v') => if v' < v then some (k', v') else some (k, v)

/-- Insert into a list kept in rising order of a key, after equal keys. -/
def insertBy {α : Type} (key : α → Nat) (x : α) : List α → List α
  | [] => [x]
  | y :: t => if key x < key y then x :: y :: t else y :: insertBy key x t

/-- A list sorted by a key, equal keys keeping their order. -/
def sortBy {α : Type} (key : α → Nat) : List α → List α
  | [] => []
  | l => l.foldl (fun acc x => insertBy key x acc) []

end Sys2Proof
end

