-- ==== Sys2Proof/Machine/State.lean ====
section
/-! DEFINITION. The state of the machine as plain data: every register, table, queue and memory the manual
names, each under the rule that names it; the reasons a step can stop; and the state after reset. -/

namespace Sys2Proof.Machine

/-- Memory: address and byte pairs, addresses strictly rising, no entry zero (an unlisted byte reads as 0).
Log 4 (DESIGN CHOICE). -/
abbrev Memory := List Host.Cell

/-- The special registers held per thread (R14, R152). `wstat` holds STRUCK and NSTRUCK; PENDING is counted from the watch table. -/
structure Spr where
  frm : Word
  fexc : Word
  wrep : Word
  wstat : Word
  stklim : Word
  cause : Word
  faddr : Word
  faddrhi : Word
  fpc : Word
  finfo : Word
  livelo : Word
  livehi : Word
  deriving DecidableEq, Repr

/-- A store a run has buffered (R127): where it goes, what it writes, and its place in the run. -/
structure RunStore where
  scratch : Bool
  addr : Nat
  size : Nat
  data : QWord
  tagged : Bool
  colour : Nat
  cap : Cap
  hint : Nat
  rel : Bool
  scope : Nat
  pos : Nat
  checked : Bool
  deriving DecidableEq, Repr

/-- The first late failure of an access of a run (R129). -/
structure Late where
  cause : Byte
  reason : Byte
  addr : Nat
  pos : Nat
  deriving DecidableEq, Repr

/-- A run in progress in one lane (R126 to R129): its RUNB, its length, the words done, the published registers,
the values at RUNB to which a discard returns, the buffered stores (`checked` once one has passed its check) and the store words counted; the loads made after a
buffered store, each with its address, its bytes and the write time read (R284); `going` once its checks have passed and its stores perform.
Log 63 (DESIGN CHOICE). -/
structure Run where
  start : Word
  n : Nat
  pos : Nat
  pub : List Nat
  g0 : Tab Word
  p0 : Tab Bool
  fexc0 : Word
  stores : List RunStore
  nst : Nat
  late : Option Late
  after : List (Nat × Nat × Nat)
  going : Bool
  deriving DecidableEq, Repr

/-- What a fault reports (R377 to R380). -/
structure FaultInfo where
  cause : Byte
  reason : Byte
  detail : BitVec 16
  addr : Nat
  scr : Bool
  drain : Bool
  async : Bool
  after : Bool
  pos : Option Nat
  deriving DecidableEq, Repr

/-- Why a lane is not ready (R180). Log 13 (DEDUCED). -/
inductive Hold where
  /-- the word of its group waits and has not begun -/
  | stall
  /-- the word of its group has begun and goes on when its wait ends -/
  | again
  /-- the lane's part of its group's word is done; the s-registers it would write (R84) -/
  | done (ws : List (Nat × Word))
  /-- the lane's part of its group's word ended in a fault, which is taken when the word ends (R381) -/
  | failed (f : FaultInfo)
  /-- a watch entry of the lane was struck; it goes to its repair target when the word ends (R299) -/
  | struck
  /-- waiting at JOIN `j`n (R189) -/
  | join (n : Nat)
  /-- RDVWAIT or RDVAW on a point, and the completions it had then: their parity is the parity waited on (R192) -/
  | rdv (rp turns : Nat)
  /-- SIGWAIT: capability, threshold, EXT (R241) -/
  | sigwait (cap : Cap) (thr : Nat) (ext : Bool)
  /-- SLEEP with its remaining cycles (R151) -/
  | sleep (left : Nat)
  /-- YIELD with its remaining choices (R236) -/
  | yielded (left : Nat)
  /-- LWAIT on a handle (R249) -/
  | lwait (handle : Word)
  /-- the trailer of a run (R129) -/
  | trailer
  /-- CSEND or CRECV waiting for the mailbox's home (R139, R140) -/
  | mail
  /-- a reply from a peer or from the host (R274) -/
  | reply
  /-- an access held at a granule in transit (R27) -/
  | transit
  /-- ACCALLOC in the core's queue (R329) -/
  | acc
  /-- a bank switch in progress, and the register that receives the status 0 (R307, R350) -/
  | bank (b : Nat) (d : BitVec 8)
  /-- ACCST, BHT, TQNT or TTRN in progress on an array (R369) -/
  | array
  /-- MRWAIT: group, contributing member, and the generation count waited for (R361) -/
  | mr (group member : Nat) (target : Word)
  /-- a travel in progress to an offset (R213), and the offset that a fault of the departure reports: the run of the word that sent it (R299) -/
  | travel (target source : Word)
  deriving DecidableEq, Repr

/-- What a lane's thread is (R123, R213). -/
inductive LaneStatus where
  | live | exited | departed
  deriving DecidableEq, Repr

/-- A parked lane: its sub-sheaf, and whether it is in handler mode (R381, R385). -/
structure Park where
  sub : Nat
  inHandler : Bool
  deriving DecidableEq, Repr

/-- A waiting GRANULE_WRITE_LOST (R389). -/
structure Loss where
  addr : Nat
  colour : Nat
  deriving DecidableEq, Repr

/-- A thread (R12): registers, code capability, PC, special registers, coordinates, and what it is doing; `word` numbers a word of its group that has begun
and not ended (R179), `buf` holds the granules that its word has read so far of structures (R246, R321). -/
structure Thread where
  status : LaneStatus
  g : Tab Word
  p : Tab Bool
  c : Tab Cap
  t : Tab Word
  code : Cap
  pc : Word
  spr : Spr
  lane : Nat
  tid : Nat
  gangid : Nat
  teamid : Nat
  stage : Nat
  seg : Nat
  run : Option Run
  word : Option Nat
  hold : Option Hold
  park : Option Park
  unissued : Nat
  losses : List Loss
  lossMore : Nat
  overrun : Option Nat
  buf : List Cap
  deriving DecidableEq, Repr

/-- A forming sheaf of a runner core (R218), with the stamps of the packets placed in it, lane by lane (R225). -/
structure Forming where
  seg : Nat
  tpc : Word
  start : Nat
  stamps : List Nat
  deriving DecidableEq, Repr

/-- A parked sub-sheaf (R381, R384). -/
structure Sub where
  mask : Word
  savedCode : Cap
  inHandler : Bool
  deriving DecidableEq, Repr

/-- A sheaf: 32 lanes of one quadrant with what they share (R176, R177). -/
structure Sheaf where
  ctx : Nat
  launch : Nat
  team : Option Nat
  width : Nat
  half : Nat
  pair : Option Nat
  regs : Nat
  allocRegs : Nat
  allocPreds : Nat
  s : Tab Word
  j : Tab Word
  lanes : Tab Thread
  wait : Nat
  forming : Option Forming
  subs : Tab Sub
  deriving DecidableEq, Repr

/-- A copy of a line in a data cache, an atomic buffer or a stack cache (R262, R293, R125, R451). -/
structure Copy where
  data : BitVec 1024
  tags : Byte
  wts : Nat
  rts : Nat
  colour : Nat
  valid : BitVec 2
  hint : Nat
  bank : Nat
  used : Nat
  deriving DecidableEq, Repr

/-- A watch entry (R275): the thread, the line, the write time read, the logical time of the load (R280), STRUCK, and whether the thread's open run
made it. Log 66 (DEDUCED). -/
structure Watch where
  sh : Nat
  ln : Nat
  line : Nat
  w : Nat
  pts : Nat
  struck : Bool
  inRun : Bool
  deriving DecidableEq, Repr

/-- The modes of a scratch bank (R259). -/
inductive BankMode where
  | cache | scratch | fifo
  deriving DecidableEq, Repr

/-- A bank: its mode, a switch in progress, a FIFO reservation, and who set its mode (R260, R261). -/
structure Bank where
  mode : BankMode
  switching : Option BankMode
  reserved : Bool
  byUnit : Bool
  byCfg : Bool
  deriving DecidableEq, Repr

/-- The states of a tile (R311). -/
inductive TileState where
  | empty | filling | ready | draining
  deriving DecidableEq, Repr

/-- A tile-table entry (R311). `faddr` keeps the failing row's address that R314 reports. -/
structure Tile where
  state : TileState
  engine : Bool
  flt : Bool
  cause : Byte
  faddr : Nat
  prog : Nat
  fmt : BitVec 4
  team : Nat
  rows : Nat
  pitch : Nat
  elems : Nat
  sbase : Nat
  giv : Bool
  deriving DecidableEq, Repr

/-- An accumulator block: the team that holds it, its 512 words, the MMAs queued or running on it (R326, R328), and whether an ACCFREE waits for it (R343).
Log 32 (DEDUCED). -/
structure AccBlock where
  team : Option Nat
  words : Tab Word
  pending : Nat
  freeing : Bool
  deriving DecidableEq, Repr

/-- A request in a copy engine's queue (R317): a tile transfer or a command copy. -/
inductive CopyReq where
  | tile (ctx launch : Nat) (entry : Nat) (drain : Bool) (cap : Cap) (off stride : Nat) (hint : Nat) (fed : Bool)
  | command (ctx launch : Nat) (src dst sig : Cap) (soff doff len done : Nat) (tags : Bool) (hint : Nat) (failed : Bool)
  deriving DecidableEq, Repr

/-- An operation in an array's queue (R328, R330, R368), with the sheaf and lanes that issued it; an MMA keeps the geometry of its tiles. -/
inductive ArrayOp where
  | mma (sh : Nat) (blocks : List Nat) (a b : Tile) (mask : Word)
  | accst (sh : Nat) (blocks : List Nat) (k : Nat) (scale : Option Nat) (exps : Tab Word) (t : BitVec 4) (rm pol : Nat) (mask : Word)
  | bht (sh : Nat) (k n : Nat) (mask : Word)
  | tqnt (sh : Nat) (kd ks : Nat) (scale : Option Nat) (exp : Word) (rm pol : Nat) (mask : Word)
  | ttrn (sh : Nat) (kd ks : Nat) (mask : Word)
  deriving DecidableEq, Repr

/-- A matrix array: its queue and the K-steps the MMA at its head has done (R328); the cycles of activity that its permit still covers (R336). -/
structure ArraySt where
  queue : List ArrayOp
  steps : Nat
  permit : Nat
  deriving DecidableEq, Repr

/-- The feeder of a core (R323 to R325); `ending` while an FSTOP waits for its transfers (R343, R353). -/
structure Feeder where
  team : Option Nat
  ctx : Nat
  bank : Nat
  code : Cap
  pc : Word
  g : Tab Word
  p : Tab Bool
  c : Tab Cap
  frm : Word
  closed : Bool
  ending : Bool
  faulted : Option (Byte × Word)
  queues : Tab (List QWord)
  deriving DecidableEq, Repr

/-- A waiting ACCALLOC (R329). -/
structure AccReq where
  team : Nat
  sh : Nat
  mask : Word
  pred : Nat
  dest : BitVec 8
  m : Nat
  arr : Nat
  deriving DecidableEq, Repr

/-- A core (R257 to R278, R310): logical time, banks, scratch with its tags, copies, watch table, tiles,
accumulators and engines; `copyPermit` is the activity that the copy engine's permit still covers (R336). -/
structure CoreSt where
  pts : Nat
  banks : Tab Bank
  scratch : Memory
  stags : Tab Bool
  dcache : Tab Copy
  atoms : Tab Copy
  watch : List Watch
  tiles : Tab Tile
  acc : Tab AccBlock
  copyq : List CopyReq
  copyPermit : Nat
  array0 : ArraySt
  array1 : ArraySt
  feeder : Feeder
  accq : List AccReq
  deriving DecidableEq, Repr

/-- A quadrant: the sheaf slot last chosen plus one, and the stack cache's copies (R181, R125). -/
structure Quad where
  rr : Nat
  stack : Tab Copy
  deriving DecidableEq, Repr

/-- A line in a slice (R263 to R265), kept in the set's recency order. -/
structure SLine where
  line : Nat
  wts : Nat
  rts : Nat
  hint : Nat
  dirty : Bool
  deriving DecidableEq, Repr

/-- A slice: `mwts`, `mrts` and its sets, each in recency order, most recent first (R263, R264). -/
structure Slice where
  mwts : Nat
  mrts : Nat
  sets : Tab (List SLine)
  deriving DecidableEq, Repr

/-- A rendezvous point (R191): `turns` counts its completions, and PHASE is the lowest bit of that count. -/
structure Rdv where
  expect : Nat
  arrived : Nat
  turns : Nat
  deriving DecidableEq, Repr

/-- A resident team (R173, R198): its place and resources, its rendezvous points and its phase timer. -/
structure Team where
  launch : Nat
  ctx : Nat
  core : Nat
  index : Nat
  stage : Nat
  gangs : Nat
  width : Nat
  sheaves : List Nat
  sbase : Nat
  slen : Nat
  tbase : Nat
  tcount : Nat
  accHint : Nat
  rps : Tab Rdv
  phaseN : Option Nat
  phaseCount : Nat
  deriving DecidableEq, Repr

/-- A travel packet (R215), its holder and sender; `old` marks one that was in flight when the running revoke pass began (R224); `stamp` orders packets by
their arrival at a FIFO (R225). -/
structure Packet where
  launch : Nat
  tpc : Word
  seg : Nat
  tid : Nat
  gangid : Nat
  teamid : Nat
  pts : Nat
  live : DWord
  pred : BitVec 16
  spr : Spr
  g189 : Word
  g190 : Word
  g191 : Word
  c : Tab Cap
  g : Tab Word
  holder : Nat
  sender : Nat
  old : Bool
  stamp : Nat
  deriving DecidableEq, Repr

/-- A segment of a runner launch (R208), with the holders in force and a change due at the next season boundary (R220). -/
structure Segment where
  codeOff : Nat
  codeLen : Nat
  choice : Nat
  gather : Nat
  fifob : Nat
  holders : List Nat
  pending : Option (List Nat)
  draining : List Nat
  deriving DecidableEq, Repr

/-- The runner side of a launch (R205 to R225): the overflow capability and ring size, segments, arrival FIFOs
keyed by segment × 512 + core, the depths last broadcast, ring heads and tails, thread and exit counts. -/
structure Runner where
  ovf : Cap
  rsize : Nat
  segs : List Segment
  fifos : Tab (List Packet)
  depths : Tab Nat
  banks : Tab (List Nat)
  threads : Nat
  exits : Nat
  started : Bool
  deriving DecidableEq, Repr

/-- A team control block: one unstarted stage set (R197). -/
structure Tcb where
  launch : Nat
  index : Nat
  deriving DecidableEq, Repr

/-- An accepted launch (R196 to R203). -/
structure Launch where
  ctx : Nat
  code : Cap
  args : Cap
  signal : Cap
  stack : Cap
  entry : Nat
  n : Nat
  g : Nat
  w : Nat
  s : Nat
  regs : Nat
  preds : Nat
  scratch : Nat
  stksz : Nat
  accHint : Nat
  allocRegs : Nat
  allocPreds : Nat
  tiles : Nat
  left : Nat
  handle : Option Nat
  queue : Option Nat
  pts : Nat
  runner : Option Runner
  deriving DecidableEq, Repr

/-- A kernel entry of a loaded object: the selected variant's declarations (R157, R166). -/
structure KernelInfo where
  entry : Nat
  offset : Nat
  gang : Nat
  regs : Nat
  preds : Nat
  stages : Nat
  tiles : Nat
  scratch : Nat
  deriving DecidableEq, Repr

/-- A loaded object (R156 to R172): its range in `c0`, its code capability, its kernels and its global symbols; `time` is the write time that its load reached
(R172). -/
structure Object where
  handle : Nat
  lo : Nat
  hi : Nat
  gbase : Nat
  code : Cap
  entries : Nat
  time : Nat
  kernels : List KernelInfo
  exports : List (List Byte × Nat × Nat × Nat)
  deriving DecidableEq, Repr

/-- The states of a context (R392, R401, R404). -/
inductive CtxState where
  | free | idle | running | stopping | stopped | saving | saved | restoring | halted | lost
  deriving DecidableEq, Repr

/-- The halt record of R388, or the lost reason of R392. -/
structure HaltRec where
  reason : Byte
  cause : Byte
  sheaf : BitVec 16
  finfo : Word
  fpc : Word
  mask : DWord
  deriving DecidableEq, Repr

/-- What a context's save area holds (R396): `cores` are those it was granted; scratch and tiles are listed by team, the rest by core or cluster unit. -/
structure SaveImage where
  cores : List Nat
  sheaves : Tab Sheaf
  teams : Tab Team
  watches : List (Nat × Watch)
  scratch : Tab (Memory × Tab Bool)
  tiles : Tab (Tab Tile)
  acc : Tab (Tab AccBlock)
  copies : Tab (List CopyReq)
  arrays : Tab (ArraySt × ArraySt)
  feeders : Tab Feeder
  tcbs : Tab (List Tcb)
  deriving DecidableEq, Repr

/-- A slot of the context's table of device launches (R249). -/
structure LaunchSlot where
  gen : BitVec 22
  launch : Option Nat
  deriving DecidableEq, Repr

/-- A context (R401) with what it needs to run: its globals capability, its loaded objects, its device launches; `sel` is what its counters select in this cycle
(R149); `spent` the flits each injection port has sent for it in the season beyond what it carried over, `heldPorts` the ports that held its requests in the
season (R269, R413). -/
structure Ctx where
  state : CtxState
  func : Nat
  colours : DWord
  handler : Cap
  hentry : Nat
  saveBase : Nat
  saveLen : Nat
  phmargin : Word
  quota : Nat
  cnt : Tab Nat
  csel : Tab Word
  sel : Tab Word
  ovf : Byte
  loss : Nat
  haltrec : HaltRec
  c0 : Cap
  objects : List Object
  nextHandle : Nat
  slots : Tab LaunchSlot
  rotation : Nat
  acks : List Nat
  why : Option StopReason
  image : Option SaveImage
  spent : Tab Nat
  heldPorts : List Nat
  deriving DecidableEq, Repr

/-- Whose access something is: a thread by its context, launch, stage, team, gang and index (R174, R389). -/
structure Who where
  ctx : Nat
  launch : Nat
  stage : Nat
  teamid : Nat
  gangid : Nat
  tid : Nat
  deriving DecidableEq, Repr

/-- An update of a cluster-scope atomic not yet written back: the thread that made it (R285). -/
structure Upd where
  sh : Nat
  ln : Nat
  who : Who
  addr : Nat
  colour : Nat
  deriving DecidableEq, Repr

/-- A line whose value a cluster unit holds, with the lease of its last fill or write-back (R285, R293, R451). -/
structure CaLine where
  data : BitVec 1024
  tags : Byte
  wts : Nat
  rts : Nat
  colour : Nat
  outstanding : Bool
  sent : List Upd
  waiting : List Upd
  used : Nat
  deriving DecidableEq, Repr

/-- A cluster unit (R197 to R201, R285): its queue, the lines it holds, its steal round. -/
structure Cluster where
  queue : List Tcb
  lines : Tab CaLine
  nextVictim : Nat
  asking : Option Nat
  empties : Nat
  quietUntil : Nat
  deriving DecidableEq, Repr

/-- A Renew on its way to a home slice (R272); `seq` orders what one injection port sends to one slice (R423). -/
structure Renew where
  core : Nat
  line : Nat
  pts : Nat
  w : Option Nat
  colour : Nat
  hint : Nat
  sector : Nat
  seq : Nat
  deriving DecidableEq, Repr

/-- A reply on its way to a core (R272); no data means Renewed. -/
structure Reply where
  core : Nat
  line : Nat
  wts : Nat
  rts : Nat
  data : Option (BitVec 1024 × Byte)
  colour : Nat
  hint : Nat
  sector : Nat
  fill : Bool
  deriving DecidableEq, Repr

/-- Which kind of store a posted store is (R125, R273, R285). -/
inductive StoreKind where
  | plain | stackLine | teamAtomic
  deriving DecidableEq, Repr

/-- A store that has left its thread and has not performed at its home (R273): `pts` is the time its packet carries, `seq` its place among what its core sends
(R423). -/
structure PStore where
  sh : Nat
  ln : Nat
  who : Who
  core : Nat
  pts : Nat
  addr : Nat
  size : Nat
  data : QWord
  tagged : Bool
  cap : Cap
  hint : Nat
  kind : StoreKind
  pos : Nat
  seq : Nat
  deriving DecidableEq, Repr

/-- An acknowledgement on its way to a core (R273) with the line as the write left it; `lost` marks the answer of R389. -/
structure Ack where
  sh : Nat
  ln : Nat
  who : Who
  core : Nat
  addr : Nat
  size : Nat
  data : QWord
  tagged : Bool
  colour : Nat
  wts : Nat
  line : BitVec 1024
  tags : Byte
  hint : Nat
  lost : Bool
  deriving DecidableEq, Repr

/-- What a lane, or a host queue, does with the answer to an access that leaves the device: the steps of a mailbox in the host window (R28, R139, R140) and the
granules of a structure (R246, R321) or of a segment map (R208) are accesses of their own; `sigRest` is a SIGWAIT between two loads from the host window (R241). -/
inductive Want where
  | load (d : BitVec 8) (sz : BitVec 3)
  | loadCap (c : Nat)
  | atom (d : BitVec 8) (op : Nat) (wide : Bool) (keep : Bool)
  | cas (d : BitVec 8) (wide : Bool)
  | store
  | storeCheck (pos : Nat)
  | csend (p : Nat)
  | crecv (c : Nat) (w s : Nat)
  | sendHost (p : Nat)
  | recvHost (c : Nat) (w s : Nat)
  | entryHost (c : Nat) (w s : Nat)
  | recordHost (c : Nat) (w s : Nat)
  | struct
  | map
  | queueMap (queue : Nat)
  | queueWait (queue thr : Nat)
  | queuePost (queue : Nat)
  | sig (thr : Nat) (ext : Bool)
  | sigRest (thr : Nat) (ext : Bool)
  | poll (p : Nat) (thr : Nat)
  deriving DecidableEq, Repr

/-- An access that left the device through a fabric port or the PCIe interface and awaits its answer (R274, R431, R436). `pos` is its place in a run, or the
cycle in which a SIGWAIT made it (R241). -/
structure Req where
  sh : Nat
  ln : Nat
  want : Want
  cap : Cap
  addr : Nat
  size : Nat
  data : QWord
  data2 : QWord
  pos : Nat
  port : Nat
  deriving DecidableEq, Repr

/-- A CSEND or CRECV on its way to the mailbox's home (R139, R140). -/
structure Mail where
  sh : Nat
  ln : Nat
  cap : Cap
  carried : Cap
  word : DWord
  pred : Nat
  cd : Nat
  wreg : Nat
  sreg : Nat
  deriving DecidableEq, Repr

/-- A conditional write-back of a cluster unit (R285). -/
structure WriteBack where
  cluster : Nat
  line : Nat
  data : BitVec 1024
  wts : Nat
  colour : Nat
  deriving DecidableEq, Repr

/-- The answer to a conditional write-back (R285). -/
structure WbReply where
  cluster : Nat
  line : Nat
  accepted : Bool
  wts : Nat
  data : BitVec 1024
  tags : Byte
  granule : Bool
  deriving DecidableEq, Repr

/-- An access held at a granule in transit (R27): a lane's, a posted store, a mailbox operation, a Renew that no lane waits for, a conditional write-back,
a peer's, or the host's through an aperture window, a write with its data. -/
inductive Held where
  | lane (sh ln : Nat) (granule : Nat)
  | store (st : PStore)
  | mail (recv : Bool) (m : Mail)
  | renew (r : Renew)
  | back (w : WriteBack)
  | ingress (r : IngressReq)
  | window (granule fn win off size : Nat) (data : Option (List Byte))
  deriving DecidableEq, Repr

/-- What the device has sent to the host or the fabric; the model only adds to it. Log 58 (DESIGN CHOICE). -/
inductive Out where
  | hostWrite (fn : Nat) (addr : Nat) (data : List Byte)
  | hostRead (fn : Nat) (addr size : Nat)
  | hostAtomic (fn : Nat) (addr size : Nat) (op : Nat) (data data2 : QWord)
  | msix (fn vector : Nat)
  | peer (port peer : Nat) (op : IngressOp) (cap : WireCap) (off size : Nat) (data data2 : QWord) (carried : Option WireCap)
      (sender : DWord)
  | peerEnd (port peer addr : Nat)
  | peerReply (port peer : Nat) (ans : PeerAnswer)
  | peerPass (peer pass : Nat) (ranges : List SweepRange)
  | peerSum (peer group line : Nat) (sum : List Word)
  | sweepDone (peer pass : Nat)
  | peerMigrate (peer fn base : Nat) (bytes : List Host.Cell) (tags queues : List Nat)
  | regWrite (addr : Nat) (data : List Byte)
  | barData (fn : Nat) (data : List Byte)
  deriving DecidableEq, Repr

/-- Everything on its way between units (R267, R274, R290); `sigs` are the waits that peers have registered, each with its local address (R241). -/
structure Net where
  renews : List Renew
  replies : List Reply
  stores : List PStore
  acks : List Ack
  csends : List Mail
  crecvs : List Mail
  wbs : List WriteBack
  wbReplies : List WbReply
  packets : List Packet
  held : List Held
  peerReqs : List Req
  pcieReqs : List Req
  pcieWrites : List PStore
  sigs : List (Nat × IngressReq)
  out : List Out
  deriving DecidableEq, Repr

/-- A rake entry (R331); `unloads` is the context whose unloaded object's globals it marks (R172). -/
structure RakeEntry where
  base : Nat
  len : Nat
  relocate : Bool
  delta : BitVec 52
  colour : BitVec 12
  pass : Option Nat
  unloads : Option Nat
  deriving DecidableEq, Repr

/-- A rake pass (R332, R334): its number, kind and ranges, the peers still to report, how far it has swept, and the logical time every core must
reach. A pass on behalf of a peer has that peer as its origin, one of a context that context, whose stop stops it (R335). -/
structure Pass where
  number : Nat
  relocate : Bool
  ranges : List SweepRange
  peers : List Nat
  swept : Bool
  cursor : Nat
  leases : Nat
  origin : Option Nat
  ctx : Option Nat
  deriving DecidableEq, Repr

/-- The rake (R331, R332). -/
structure Rake where
  entries : List RakeEntry
  running : Option Pass
  waiting : List Pass
  last : Nat
  deriving DecidableEq, Repr

/-- A die's governor and temperature in tenths of a degree (R336, R444). Log 52 (DEDUCED). -/
structure Die where
  permits : List (Nat × PermitUnit)
  temp : Nat
  hot : Bool
  deriving DecidableEq, Repr

/-- A multicast-reduce group (R337 to R339, R433): its descriptor, validity, per-member generation counts; the words contributed and not yet summed,
oldest first (per member, line × 32 + word); the package sums awaiting the switch, the deliveries of each line in the current generation, the contexts whose
contributions to a line are on their way (R339), and the largest write time of a delivery (R361). -/
structure MrGroup where
  desc : GroupDesc
  valid : Bool
  gens : Tab Nat
  contrib : Tab (Tab (List Word))
  atSwitch : Tab (List (List Word))
  delivered : Tab Nat
  owners : Tab (List Nat)
  time : Nat
  deriving DecidableEq, Repr

/-- A fabric port (R425, R428); `grace` is the cycle until which the epoch before the current one is accepted. -/
structure Port where
  state : Nat
  partner : Nat
  sw : Bool
  epoch : Nat
  grace : Option Nat
  crossed : Nat
  deriving DecidableEq, Repr

/-- An aperture window (R438, R439). -/
structure Aperture where
  ctx : Nat
  off : Nat
  len : Nat
  mask : BitVec 10
  refusals : Nat
  deriving DecidableEq, Repr

/-- A PCIe function's registers (R438), colour set (R400), held events (R414) and windows. -/
structure Func where
  colours : List Nat
  adminBase : DWord
  adminSize : Word
  adminTail : Word
  adminHead : Word
  adminCtl : Word
  evtBase : DWord
  evtSize : Word
  evtTail : Word
  evtHead : Word
  evtCtl : Word
  evtDrop : Word
  held : List (List Byte)
  windows : Tab Aperture
  deriving DecidableEq, Repr

/-- A queue control block with the queue's mapping (R407 to R410). `raw` is the command in progress with its tags, `answered` what a peer has answered to it:
performed, or refused; `buf` the granules read so far of a segment map outside local HBM (R208). -/
structure QueueSt where
  ring : Cap
  size : Nat
  head : Nat
  tail : Nat
  ctx : Nat
  prio : Nat
  state : Nat
  func : Nat
  waited : Nat
  pending : Bool
  slot : Option Nat
  marked : Option Nat
  raw : Option (List Byte × Byte)
  waiting : Option (Cap × Nat)
  answered : Option Bool
  buf : List Cap
  launch : Option Nat
  deriving DecidableEq, Repr

/-- A monitor point (R416). -/
structure Monitor where
  func : Nat
  kind : Nat
  quantity : Nat
  site : Nat
  colour : Nat
  min : Nat
  max : Nat
  bins : Tab Nat
  deriving DecidableEq, Repr

/-- A migration in progress (R434): the function and the command's CID, the context, where it goes (a peer and its function, or this device), the destination,
the peers of the pass, the new queue numbers, whether its granules are in transit, and the relocate pass once it is queued. -/
structure Migration where
  fn : Nat
  cid : Nat
  ctx : Nat
  peer : Option (Nat × Nat)
  base : Nat
  mask : List Nat
  queues : List Nat
  held : Bool
  pass : Option Nat
  deriving DecidableEq, Repr

/-- Host-facing state of the package master (R399 to R416, R438): `shares` are the clusters of each function in the current quantum, `grants` the cores of each
resident context, `idle` the functions enabled again in this quantum (R411). -/
structure HostIf where
  vfEn : DWord
  funcs : Tab Func
  queues : Tab QueueSt
  qtab : Tab QWord
  entry : Option Nat
  quantumEnd : Nat
  shares : Tab (List Nat)
  grants : Tab (List Nat)
  idle : List Nat
  monitors : Tab Monitor
  migration : Option Migration
  deriving DecidableEq, Repr

/-- Fabric state (R17, R425 to R430). -/
structure Fabric where
  number : Nat
  ports : Tab Port
  routes : Tab (List Nat)
  pct : Tab DWord
  deriving DecidableEq, Repr

/-- An entry of the boot record (R443). -/
inductive BootMark where
  | pending | ok | fail
  deriving DecidableEq, Repr

/-- What boot left (R442, R443): the dies with an absent stack, the clusters that run with six cores, and the boot record by step × 64 + unit. -/
structure Boot where
  done : Bool
  usable : Bool
  measure : BitVec 256
  log : List (BitVec 256)
  sixCore : List Nat
  absent : List Nat
  record : Tab BootMark
  deriving DecidableEq, Repr

/-- A step of another agent that is due: the event of the opcode table it is, with what it names. The state's agenda
holds these; a step takes the first. -/
inductive Due where
  | yieldHoldEnd (sh ln : Nat)
  | runCommit (sh ln : Nat)
  | joinRelease (sh ln : Nat)
  | sleepEnd (sh ln : Nat)
  | phaseOverrun (team : Nat)
  | asyncFault (sh ln : Nat)
  | sigwaitReload (sh ln : Nat)
  | peerSignal (line : Nat)
  | ingress (r : IngressReq)
  | window (fn win off size : Nat) (data : Option (List Byte))
  | ltimeTick (core : Nat)
  | seasonBoundary
  | homeRenew
  | loadReply
  | homeWrite
  | storeAck
  | csendAtHome
  | crecvAtHome
  | conditionalWriteback
  | writebackReply
  | heldRecheck (i : Nat)
  | bankSwitchDone (core bank : Nat)
  | stageSetDispatch (cluster : Nat)
  | stealRequest (thief : Nat)
  | stealReply (thief : Nat)
  | teamRetire (team : Nat)
  | launchComplete (launch : Nat)
  | runnerStart (launch : Nat)
  | runnerComplete (launch : Nat)
  | travelDepart (sh ln : Nat)
  | packetRelay
  | ringToFifo (launch seg core : Nat)
  | packetPlace (launch seg core : Nat)
  | sheafRelease (sh : Nat)
  | depthBroadcast (core : Nat)
  | copyRow (core : Nat)
  | tileTransferDone (core : Nat)
  | commandCopyDone (core : Nat)
  | mmaComplete (core array : Nat)
  | arrayOpDone (core array : Nat)
  | accallocGrant (core : Nat)
  | rakePassStart
  | rakeBatch
  | rakePassComplete
  | permitRequest (core : Nat) (unit : PermitUnit)
  | permitGrant (die : Nat)
  | mrDelivery (group line : Nat)
  | handlerEntry (sh sub : Nat)
  | stopRequest (ctx : Nat) (why : StopReason)
  | unitAck (ctx die : Nat)
  | contextStopped (ctx : Nat)
  | save (ctx : Nat)
  | restore (ctx : Nat)
  | quantumChange
  | queueMapping
  | migrate
  | queueCommandBegin (queue : Nat)
  | queueNop (queue : Nat)
  | queueLaunch (queue : Nat)
  | queueWait (queue : Nat)
  | queuePost (queue : Nat)
  | counterOverflow (ctx k : Nat)
  | epochGraceEnd (port : Nat)
  deriving DecidableEq, Repr

/-- Reasons a step stops with a fault. No meaning uses one where the manual gives an effect.
Log 55 (DESIGN CHOICE). -/
inductive Fault where
  /-- Raised by no instruction of this model: the machine's own stop, kept so that the type is not empty (safe). -/
  | stuck
  deriving DecidableEq, Repr

/-- Reasons a step is refused. Log 55 (DESIGN CHOICE). -/
inductive Refusal where
  /-- An instruction whose meaning is not written, by its mnemonic (safe: nothing is claimed of it). -/
  | notModelled (mnemonic : String)
  deriving DecidableEq, Repr

/-- The issuing group of a word: a sheaf, the lanes of it, the lanes of the other sheaf of a pair, and of a word that has begun its number and the lanes whose
part of it is done or under way (R179, R228). -/
structure Group where
  sh : Nat
  mask : Word
  pairMask : Word
  rest : Word
  word : Option Nat
  deriving DecidableEq, Repr

/-- The state of the machine. `issue` holds the groups chosen to issue, `focus` the group whose word is being executed,
`agenda` the steps of other agents that are due, `free` the model's own counter for free values. -/
structure State where
  cycle : Nat
  season : Nat
  quadPtr : Nat
  issue : List Group
  focus : Option Group
  agenda : List Due
  free : Nat
  nextId : Nat
  mem : Memory
  tags : Tab Bool
  granules : Tab (BitVec 16)
  slices : Tab Slice
  cores : Tab CoreSt
  quads : Tab Quad
  sheaves : Tab Sheaf
  teams : Tab Team
  launches : Tab Launch
  ctxs : Tab Ctx
  clusters : Tab Cluster
  net : Net
  rake : Rake
  dies : Tab Die
  groups : Tab MrGroup
  fabric : Fabric
  host : HostIf
  boot : Boot
  deriving DecidableEq, Repr

/-- A capability register that holds nothing: all bits zero, tag clear (R12). -/
def nullCap : Cap := { bits := 0, tag := false }

/-- The special registers of a thread at its start (R14). -/
def sprStart : Spr :=
  { frm := 0, fexc := 0, wrep := 0, wstat := 0, stklim := 0, cause := 0, faddr := 0, faddrhi := 0, fpc := 0,
    finfo := 0, livelo := 0xFFFFFFFF#32, livehi := 0xFFFFFFFF#32 }

/-- A thread at its start with nothing in any register (R12, R14). -/
def threadStart : Thread :=
  { status := .live, g := [], p := [], c := [], t := [], code := nullCap, pc := 0, spr := sprStart, lane := 0, tid := 0,
    gangid := 0, teamid := 0, stage := 0, seg := 0, run := none, word := none, hold := none, park := none, unissued := 0,
    losses := [], lossMore := 0, overrun := none, buf := [] }

/-- A sheaf with no lane. -/
def sheafEmpty : Sheaf :=
  { ctx := 0, launch := 0, team := none, width := 32, half := 0, pair := none, regs := 64, allocRegs := 192,
    allocPreds := 48, s := [], j := [], lanes := [], wait := 0, forming := none, subs := [] }

/-- A bank after core reset: CACHE mode (R259). -/
def bankReset : Bank := { mode := .cache, switching := none, reserved := false, byUnit := false, byCfg := false }

/-- A tile entry after reset (R311): EMPTY, THREAD, FMT 0xF. -/
def tileReset : Tile :=
  { state := .empty, engine := false, flt := false, cause := 0, faddr := 0, prog := 0, fmt := 0xF#4, team := 0,
    rows := 1, pitch := 0, elems := 1, sbase := 0, giv := false }

/-- An accumulator block no team holds. -/
def accReset : AccBlock := { team := none, words := [], pending := 0, freeing := false }

/-- An idle array. -/
def arrayReset : ArraySt := { queue := [], steps := 0, permit := 0 }

/-- A feeder that serves no team. -/
def feederReset : Feeder :=
  { team := none, ctx := 0, bank := 0, code := nullCap, pc := 0, g := [], p := [], c := [], frm := 0, closed := true,
    ending := false, faulted := none, queues := [] }

/-- A core after core reset (R259, R271). -/
def coreReset : CoreSt :=
  { pts := 0, banks := [], scratch := [], stags := [], dcache := [], atoms := [], watch := [], tiles := [],
    acc := [], copyq := [], copyPermit := 0, array0 := arrayReset, array1 := arrayReset, feeder := feederReset, accq := [] }

/-- A quadrant after core reset: the rotation starts at slot 0 (R181). -/
def quadReset : Quad := { rr := 0, stack := [] }

/-- A slice after die reset (R264). -/
def sliceReset : Slice := { mwts := 0, mrts := 0, sets := [] }

/-- A cluster unit with nothing to do. -/
def clusterReset : Cluster := { queue := [], lines := [], nextVictim := 0, asking := none, empties := 0, quietUntil := 0 }

/-- A rendezvous point at the creation of its team (R191). -/
def rdvReset : Rdv := { expect := 0, arrived := 0, turns := 0 }

/-- The halt record of a context that has not halted. -/
def haltNone : HaltRec := { reason := 0, cause := 0, sheaf := 0, finfo := 0, fpc := 0, mask := 0 }

/-- A free context record (R401). -/
def ctxFree : Ctx :=
  { state := .free, func := 0, colours := 0, handler := nullCap, hentry := 0, saveBase := 0, saveLen := 0,
    phmargin := 0, quota := 0, cnt := [], csel := [], sel := [], ovf := 0, loss := 0, haltrec := haltNone, c0 := nullCap, objects := [],
    nextHandle := 1, slots := [], rotation := 0, acks := [], why := none, image := none, spent := [], heldPorts := [] }

/-- A function's registers after reset (R438). -/
def funcReset : Func :=
  { colours := [], adminBase := 0, adminSize := 0, adminTail := 0, adminHead := 0, adminCtl := 0, evtBase := 0, evtSize := 0,
    evtTail := 0, evtHead := 0, evtCtl := 0, evtDrop := 0, held := [], windows := [] }

/-- A port after reset (R425). -/
def portReset : Port := { state := 0, partner := 0x1FF, sw := false, epoch := 0, grace := none, crossed := 0 }

/-- A die after reset. -/
def dieReset : Die := { permits := [], temp := 0, hot := false }

/-- Nothing in flight. -/
def netEmpty : Net :=
  { renews := [], replies := [], stores := [], acks := [], csends := [], crecvs := [], wbs := [], wbReplies := [], packets := [],
    held := [], peerReqs := [], pcieReqs := [], pcieWrites := [], sigs := [], out := [] }

/-- The machine right after package reset.
Log 4 (DESIGN CHOICE), 7 (DESIGN CHOICE), 8 (DEDUCED), 18 (DESIGN CHOICE). -/
def State.reset : State :=
  { cycle := 0, season := 0, quadPtr := 0, issue := [], focus := none, agenda := [], free := 0, nextId := 1,
    mem := [], tags := [], granules := [], slices := [], cores := [], quads := [], sheaves := [], teams := [], launches := [],
    ctxs := [], clusters := [], net := netEmpty,
    rake := { entries := [], running := none, waiting := [], last := 0 },
    dies := [], groups := [],
    fabric := { number := 0x1FF, ports := [], routes := [], pct := [] },
    host := { vfEn := 0, funcs := [], queues := [], qtab := [], entry := none, quantumEnd := 0, shares := [], grants := [], idle := [], monitors := [],
              migration := none },
    boot := { done := false, usable := false, measure := 0, log := [], sixCore := [], absent := [], record := [] } }

end Sys2Proof.Machine
end

