-- ==== Sys2Proof/Machine/Caps.lean ====
section
/-! DEFINITION. Capability fields, lengths and derivations (R19, R20), addresses and regions (R17, R18), the order of checks
of R25, and the causes a check names (R377). -/

namespace Sys2Proof.Machine

/-- BASE (R19). -/
def capBase (c : Cap) : Nat := (c.bits.extractLsb' 76 52).toNat

/-- LS (R19). -/
def capLS (c : Cap) : Nat := (c.bits.extractLsb' 74 2).toNat

/-- L (R19). -/
def capL (c : Cap) : Nat := (c.bits.extractLsb' 40 34).toNat

/-- The length: L × 16^LS (R19). -/
def capLen (c : Cap) : Nat := capL c * 16 ^ capLS c

/-- PERM (R19). -/
def capPerm (c : Cap) : BitVec 10 := c.bits.extractLsb' 30 10

/-- One permission bit (R22). -/
def capHas (c : Cap) (bit : Nat) : Bool := (capPerm c).getLsbD bit

/-- COLOUR (R19). -/
def capColour (c : Cap) : Nat := (c.bits.extractLsb' 18 12).toNat

/-- KIND (R19, R21). -/
def capKind (c : Cap) : Nat := (c.bits.extractLsb' 15 3).toNat

/-- S: sealed (R19). -/
def capSealed (c : Cap) : Bool := c.bits.getLsbD 14

/-- OTYPE (R19). -/
def capOtype (c : Cap) : BitVec 8 := c.bits.extractLsb' 6 8

/-- USER (R19). -/
def capUser (c : Cap) : BitVec 6 := c.bits.extractLsb' 0 6

/-- The 128 bits from their fields, most significant first (R19). -/
def capBits (base : BitVec 52) (ls : BitVec 2) (l : BitVec 34) (perm : BitVec 10) (colour : BitVec 12) (kind : BitVec 3)
    (sealed : BitVec 1) (otype : BitVec 8) (user : BitVec 6) : QWord :=
  base ++ ls ++ l ++ perm ++ colour ++ kind ++ sealed ++ otype ++ user

/-- Replace bits [lo+n-1:lo] of a capability. -/
def capField (c : Cap) (lo n : Nat) (v : Nat) : Cap :=
  { c with bits := (c.bits &&& ~~~(BitVec.ofNat 128 ((2 ^ n - 1) <<< lo))) ||| BitVec.ofNat 128 ((v % 2 ^ n) <<< lo) }

/-- The canonical encoding of a length (R20): the smallest LS that gives it exactly. -/
def canonLen (n : Nat) : Option (Nat × Nat) :=
  if n < 2 ^ 34 then some (0, n)
  else if n % 16 = 0 ∧ n / 16 < 2 ^ 34 then some (1, n / 16)
  else if n % 256 = 0 ∧ n / 256 < 2 ^ 34 then some (2, n / 256)
  else if n % 4096 = 0 ∧ n / 4096 < 2 ^ 34 then some (3, n / 4096)
  else none

/-- A capability narrowed to an offset and a length, in canonical form; none where the length has no encoding (R133). -/
def capNarrow (c : Cap) (o n : Nat) : Option Cap :=
  match canonLen n with
  | some (ls, l) => some (capField (capField (capField c 76 52 (capBase c + o)) 74 2 ls) 40 34 l)
  | none => none

/-- Seal with an object type. -/
def capSeal (c : Cap) (otype : Nat) : Cap := capField (capField c 14 1 1) 6 8 otype

/-- Unseal: S and OTYPE zero. -/
def capOpen (c : Cap) : Cap := capField (capField c 14 1 0) 6 8 0

/-- The sealed return capability of CALLC (R121). -/
def returnSeal (c : Cap) : Cap := capSeal c 0xFF

/-- The colours in valid slots of `sr.colours` (R24). -/
def validColours (w : DWord) : List Nat :=
  (List.range 4).filterMap fun k =>
    if w.getLsbD (48 + k) then some (w.extractLsb' (12 * k) 12).toNat else none

/-- COL0. -/
def col0 (w : DWord) : Nat := (w.extractLsb' 0 12).toNat

/-- Causes (R377). -/
def causeIllegal : Byte := 0x01
def causePair : Byte := 0x02
def causeRun : Byte := 0x03
def causeRdv : Byte := 0x04
def causeAcc : Byte := 0x05
def causeTile : Byte := 0x06
def causeTag : Byte := 0x10
def causeSealed : Byte := 0x11
def causeKind : Byte := 0x12
def causePerm : Byte := 0x13
def causeBounds : Byte := 0x14
def causeColour : Byte := 0x15
def causeAlign : Byte := 0x16
def causeGranule : Byte := 0x20
def causeEcc : Byte := 0x21
def causeLost : Byte := 0x22
def causeCvt : Byte := 0x30
def causeStack : Byte := 0x40
def causeOverrun : Byte := 0x41
def causeRunner : Byte := 0x42
def causeBreak : Byte := 0x50
def causeTrap : Byte := 0x51

/-- Where an address lies (R17, R18). -/
inductive Region where
  | hbm | host | windows | regs | peer
  deriving DecidableEq, Repr

/-- The device field of a global address (R17). -/
def devOf (a : Nat) : Nat := a / 2 ^ 43 % 512

/-- The local field of a global address (R17). -/
def localOf (a : Nat) : Nat := a % 2 ^ 43

/-- One name for each byte (R17): an address of the device's own number under the number 0x1FF. -/
def ownAddr (number a : Nat) : Nat := if devOf a = number then Config.selfDevice * 2 ^ 43 + localOf a else a

/-- The region of a global address on a device with a fabric number (R17, R18). Log 7 (DESIGN CHOICE). -/
def regionOf (number a : Nat) : Region :=
  if devOf a = Config.selfDevice ∨ devOf a = number then
    let l := localOf a
    if l < 2 ^ 42 then .hbm
    else if l < 0x60000000000 then .host
    else if l < 0x70000000000 then .windows
    else .regs
  else .peer

/-- What a use of a capability asks of it: kinds, permission bits, whether a seal is accepted, whether the multicast
windows may be reached, and whether host-window or device-register atomics are allowed (R18, R21 to R23, R147). -/
structure Access where
  kinds : List Nat
  perms : List Nat
  sealOk : Bool
  windows : Bool
  atomic : Option Bool
  xcap : Bool
  deriving DecidableEq, Repr

/-- A load of data (R21, R143). -/
def accLoad : Access := { kinds := [0, 1, 4], perms := [0], sealOk := false, windows := false, atomic := none, xcap := false }

/-- A store of data. -/
def accStore : Access := { kinds := [0, 4], perms := [1], sealOk := false, windows := false, atomic := none, xcap := false }

/-- LDC (R144). Log 26 (DEDUCED). -/
def accLoadCap : Access := { kinds := [0, 4], perms := [0, 3], sealOk := false, windows := false, atomic := none, xcap := false }

/-- STC; a tagged register needs STC, and XDEV on itself for a peer address (R144). Log 26 (DEDUCED). -/
def accStoreCap (v : Cap) : Access :=
  { kinds := [0, 4], perms := if v.tag then [1, 4] else [1], sealOk := false, windows := false, atomic := none,
    xcap := v.tag && !capHas v 8 }

/-- CAS and atomics; the flag says whether the host window takes the operation as an AtomicOp (R147). -/
def accAtomic (hostOk : Bool) : Access :=
  { kinds := [0, 4], perms := [0, 1, 5], sealOk := false, windows := false, atomic := some hostOk, xcap := false }

/-- CSEND (R139) and CRECV (R140). -/
def accSend (v : Cap) : Access :=
  { kinds := [3], perms := [1], sealOk := false, windows := false, atomic := none, xcap := v.tag && !capHas v 8 }
def accRecv : Access := { kinds := [3], perms := [0], sealOk := false, windows := false, atomic := none, xcap := false }

/-- STMR (R360): ST and ATM, in the group windows. -/
def accMr : Access := { kinds := [0], perms := [1, 5], sealOk := false, windows := true, atomic := none, xcap := false }

/-- The command block of CMDRUN (R321): kind 2, sealed, LD. -/
def accCommand : Access := { kinds := [2], perms := [0], sealOk := true, windows := false, atomic := none, xcap := false }

/-- The rows of a tile transfer and the pieces of a command copy, which take data capabilities alone (R21, R318, R321). -/
def accCopyFrom : Access := { accLoad with kinds := [0] }
def accCopyTo : Access := { accStore with kinds := [0] }

/-- Every permission an access needs at an address is present (R18, R22, R25, R147). -/
def permOk (number : Nat) (c : Cap) (k : Access) (a : Nat) : Bool :=
  k.perms.all (capHas c) &&
  (match regionOf number a with
   | .hbm => true
   | .host => k.atomic != some false
   | .windows => k.windows
   | .regs => capHas c 9 && k.atomic.isNone
   | .peer => capHas c 8 && !k.xcap)

/-- The checks of R25 except GranuleCheck, in their order, giving the global address. -/
def checkCap (number : Nat) (colours : DWord) (c : Cap) (k : Access) (off : Int) (size align : Nat) : Except Byte Nat :=
  let a := (((capBase c : Int) + off) % (2 ^ 52 : Int)).toNat
  if !c.tag then .error causeTag
  else if capSealed c && !k.sealOk then .error causeSealed
  else if !k.kinds.contains (capKind c) then .error causeKind
  else if !permOk number c k a then .error causePerm
  else if !(validColours colours).contains (capColour c) then .error causeColour
  else if off < 0 ∨ off + size > capLen c then .error causeBounds
  else if (capBase c : Int) + off + size > 2 ^ 52 then .error causeBounds
  else if a % align != 0 then .error causeAlign
  else .ok a

/-- The offset of the first byte of an access that fails (R380): the first one past the length where the bounds fail within the access, the first one past
2^52 where the address space ends there, else its first byte. Log 62 (DEDUCED). -/
def failOff (c : Cap) (off : Int) (size : Nat) (cause : Byte) : Int :=
  if cause = causeBounds ∧ 0 ≤ off then
    (if (capLen c : Int) < off + size then max off (capLen c) else max off ((2 ^ 52 : Int) - capBase c))
  else off

/-- The address a failing access reports: that of its first faulting byte, modulo 2^52 (R380). Log 62 (DEDUCED). -/
def faultAddr (c : Cap) (off : Int) (size : Nat) (cause : Byte) : Nat := (((capBase c : Int) + failOff c off size cause) % (2 ^ 52 : Int)).toNat

/-- A range of one capability lies within another's (R135). -/
def capWithin (a b : Cap) : Bool := capBase b ≤ capBase a && capBase a + capLen a ≤ capBase b + capLen b

end Sys2Proof.Machine
end

