-- ==== Sys2Proof/Machine/Mem.lean ====
section
/-! DEFINITION. Accessors of the state, bytes in memory and scratch, granules, home slices with their leases (R27, R28,
R263 to R266, R272, R273), and the copies cores hold (R262, R272, R451). -/

namespace Sys2Proof.Machine

/-- The core, quadrant and slot of a sheaf number (R388). -/
def coreOf (sh : Nat) : Nat := sh / 64
def quadOf (sh : Nat) : Nat := sh / 16
def slotOf (sh : Nat) : Nat := sh % 16

/-- The die of a core (R206). -/
def dieOfCore (k : Nat) : Nat := k / 56

/-- The cluster unit of a core (R206). -/
def clusterOfCore (k : Nat) : Nat := k / 7

/-- A core's state; a core nothing has touched is as after reset. -/
def coreAt (s : State) (k : Nat) : CoreSt := Tab.get coreReset s.cores k

/-- The state with a core replaced. -/
def setCore (s : State) (k : Nat) (c : CoreSt) : State := { s with cores := Tab.put s.cores k c }

/-- The state with a core changed. -/
def updCore (s : State) (k : Nat) (f : CoreSt → CoreSt) : State := setCore s k (f (coreAt s k))

/-- A quadrant's state. -/
def quadAt (s : State) (q : Nat) : Quad := Tab.get quadReset s.quads q

/-- The state with a quadrant changed. -/
def updQuad (s : State) (q : Nat) (f : Quad → Quad) : State := { s with quads := Tab.put s.quads q (f (quadAt s q)) }

/-- A resident sheaf. -/
def sheaf? (s : State) (sh : Nat) : Option Sheaf := Tab.at? s.sheaves sh

/-- The state with a sheaf replaced. -/
def setSheaf (s : State) (sh : Nat) (x : Sheaf) : State := { s with sheaves := Tab.put s.sheaves sh x }

/-- The state with a resident sheaf changed. -/
def updSheaf (s : State) (sh : Nat) (f : Sheaf → Sheaf) : State :=
  match sheaf? s sh with
  | some x => setSheaf s sh (f x)
  | none => s

/-- A thread by sheaf and lane. -/
def thread? (s : State) (sh ln : Nat) : Option Thread :=
  match sheaf? s sh with
  | some x => Tab.at? x.lanes ln
  | none => none

/-- The state with a resident thread changed. -/
def updThread (s : State) (sh ln : Nat) (f : Thread → Thread) : State :=
  updSheaf s sh fun x =>
    match Tab.at? x.lanes ln with
    | some th => { x with lanes := Tab.put x.lanes ln (f th) }
    | none => x

/-- A context record. -/
def ctxAt (s : State) (k : Nat) : Ctx := Tab.get ctxFree s.ctxs k

/-- The state with a context record changed. -/
def updCtx (s : State) (k : Nat) (f : Ctx → Ctx) : State := { s with ctxs := Tab.put s.ctxs k (f (ctxAt s k)) }

/-- The state with what is in flight changed. -/
def updNet (s : State) (f : Net → Net) : State := { s with net := f s.net }

/-- The state with a message to the host or the fabric added. Log 58 (DESIGN CHOICE). -/
def send (s : State) (o : Out) : State := updNet s fun n => { n with out := n.out ++ [o] }

/-- The state with a step of another agent added to those due. -/
def due (s : State) (i : Due) : State := { s with agenda := s.agenda ++ [i] }

/-- The next value of the model's own counter. Log 9 (DESIGN CHOICE). -/
def bump (s : State) : State := { s with free := s.free + 1 }

/-- A context is resident, and its counters count (R404, R413). Log 53 (DESIGN CHOICE). -/
def residentCtx (c : Ctx) : Bool := decide (c.state = .running) || decide (c.state = .stopping) || decide (c.state = .stopped)

/-- A context's counters that select an event count some of it while it is resident (R153, R413). Log 53 (DESIGN CHOICE). -/
def countEvent (s : State) (ctx ev n : Nat) : State :=
  let c := ctxAt s ctx
  if n = 0 ∨ !residentCtx c then s
  else
    let sel := (List.range 8).filter fun k =>
      let w := Tab.get 0 c.sel k
      w.getLsbD 31 && decide ((w.extractLsb' 0 16).toNat = ev)
    if sel.isEmpty then s
    else updCtx s ctx fun c => { c with cnt := sel.foldl (fun t k => Tab.put t k (Tab.get 0 t k + n)) c.cnt }

/-- The flits of a packet with some bytes of data: the header and one for each 32 bytes (R267). Log 36 (DEDUCED). -/
def flits (n : Nat) : Nat := 1 + (n + 31) / 32

/-- A context's remainder at an injection port allows another packet (R269): cores are ports 0 to 447, cluster units 448 to 511; the quota 65,535 is no limit. -/
def mayInject (s : State) (port ctx : Nat) : Bool :=
  let c := ctxAt s ctx
  decide (c.quota = 65535) || decide (Tab.get 0 c.spent port < c.quota)

/-- A request packet starts at an injection port: its flits count against the quota (R269) and in the context's counters (R413). -/
def inject (s : State) (port ctx n : Nat) : State :=
  let s1 := if (ctxAt s ctx).quota = 65535 then s
    else updCtx s ctx fun c => { c with spent := Tab.put c.spent port (Tab.get 0 c.spent port + n) }
  countEvent s1 ctx 6 n

/-- An injection port holds a context's request in this season (R269, R413). -/
def holdPort (s : State) (port ctx : Nat) : State :=
  if (ctxAt s ctx).heldPorts.contains port then s else updCtx s ctx fun c => { c with heldPorts := c.heldPorts ++ [port] }

/-- Flits that cross a fabric port count for every resident context of the physical function; in a VF the event reads 0 (R413). -/
def countFabric (s : State) (ev n : Nat) : State :=
  s.ctxs.foldl (fun s c => if c.2.func = 0 then countEvent s c.1 ev n else s) s

/-- Little-endian value of bytes (R5). -/
def ofBytes (l : List Byte) : Nat := l.foldr (fun b acc => acc * 256 + b.toNat) 0

/-- The low `n` bytes of a value, lowest address first (R5). -/
def toBytes : Nat → Nat → List Byte
  | 0, _ => []
  | n + 1, v => BitVec.ofNat 8 v :: toBytes n (v / 256)

/-- One byte of a memory. Log 4 (DESIGN CHOICE). -/
def readByte (m : Memory) (a : Nat) : Byte := Tab.get 0 m a

/-- A memory with one byte written. -/
def writeByte (m : Memory) (a : Nat) (b : Byte) : Memory := Tab.set 0 m a b

/-- Bytes of a memory from an address. -/
def readMem (m : Memory) : Nat → Nat → List Byte
  | _, 0 => []
  | a, n + 1 => readByte m a :: readMem m (a + 1) n

/-- A memory with bytes written from an address. -/
def writeMem (m : Memory) : Nat → List Byte → Memory
  | _, [] => m
  | a, b :: t => writeMem (writeByte m a b) (a + 1) t

/-- Tags with every granule that `n` bytes from an address touch set to one value (R28). -/
def setTags (t : Tab Bool) (a n : Nat) (v : Bool) : Tab Bool :=
  if n = 0 then t
  else (List.range ((a + n - 1) / 16 - a / 16 + 1)).foldl (fun t k => Tab.set false t (a / 16 + k) v) t

/-- The granule entry of a local HBM address (R266). -/
def granuleOf (s : State) (l : Nat) : BitVec 16 := Tab.get 0 s.granules (l / 2 ^ 21)

/-- The outcomes of GranuleCheck (R27). -/
inductive GCheck where
  | pass | fail | transit
  deriving DecidableEq, Repr

/-- GranuleCheck of a local HBM address for a colour (R27). -/
def granuleCheck (s : State) (l colour : Nat) : GCheck :=
  let e := granuleOf s l
  let st := e.extractLsb' 14 2
  if st = 1#2 then (if (e.extractLsb' 0 12).toNat = colour then .pass else .fail)
  else if st = 2#2 then .transit
  else .fail

/-- The line number of a local address. -/
def lineOf (l : Nat) : Nat := l / 128

/-- The home slice of a line: die × 64 + h (R263). -/
def homeOf (line : Nat) : Nat :=
  let a := line * 128
  let f := fun k => a / 2 ^ k % 64
  a / 2 ^ 39 % 8 * 64 + ((f 7) ^^^ (f 13) ^^^ (f 19) ^^^ (f 25) ^^^ (f 31) ^^^ (f 37))

/-- The set of a line within its home (R263). -/
def setOf (line : Nat) : Nat := line / 64 % 768

/-- A slice's state. -/
def sliceAt (s : State) (h : Nat) : Slice := Tab.get sliceReset s.slices h

/-- Insert into a set's recency order by hint: most recent, the middle (position 8), or least recent (R265). -/
def insertHint (l : List SLine) (x : SLine) : List SLine :=
  if x.hint = 2 then x :: l
  else if x.hint = 0 then l.take 8 ++ x :: l.drop 8
  else l ++ [x]

/-- At most 12 long-lived lines in a set: the oldest above that becomes default (R265). -/
def capLong (l : List SLine) : List SLine :=
  if 12 < (l.filter (·.hint = 2)).length then
    match l.reverse.find? (·.hint = 2) with
    | some x => l.map fun y => if y.line = x.line then { y with hint := 0 } else y
    | none => l
  else l

/-- The line a full set evicts: a bypass line first, else the least recent (R265). -/
def victimOf (l : List SLine) : Option SLine :=
  match l.reverse.find? (·.hint = 3) with
  | some x => some x
  | none => l.getLast?

/-- A slice with a line present in its set, filled from HBM if it was not (R263 to R265), and that line. A fill or a write records its hint; a read of a
line that is present makes it the most recent of its set. Log 5 (DEDUCED). -/
def sliceTouch (sl : Slice) (line hint : Nat) (wr : Bool) : Slice × SLine :=
  let set := Tab.get [] sl.sets (setOf line)
  match set.find? (·.line = line) with
  | some x =>
    let x' := if wr then { x with hint := hint } else x
    let others := set.filter (·.line ≠ line)
    let set' := if wr then capLong (insertHint others x') else x' :: others
    ({ sl with sets := Tab.put sl.sets (setOf line) set' }, x')
  | none =>
    let (set1, mw, mr) :=
      if set.length < 16 then (set, sl.mwts, sl.mrts)
      else match victimOf set with
        | some v => (set.filter (·.line ≠ v.line), max sl.mwts v.wts, max sl.mrts v.rts)
        | none => (set, sl.mwts, sl.mrts)
    let x := { line := line, wts := mw, rts := mr, hint := hint, dirty := false }
    ({ mwts := mw, mrts := mr, sets := Tab.put sl.sets (setOf line) (capLong (insertHint set1 x)) }, x)

/-- A slice with a present line's times changed. -/
def slicePut (sl : Slice) (x : SLine) : Slice :=
  let l := (Tab.get [] sl.sets (setOf x.line)).map fun y => if y.line = x.line then x else y
  { sl with sets := Tab.put sl.sets (setOf x.line) l }

/-- The write time and lease end a line has at its home now, present in the slice or not (R263, R264). -/
def homeTimes (s : State) (line : Nat) : Nat × Nat :=
  let sl := sliceAt s (homeOf line)
  match (Tab.get [] sl.sets (setOf line)).find? (·.line = line) with
  | some x => (x.wts, x.rts)
  | none => (sl.mwts, sl.mrts)

/-- The state with a line's times changed at its home. -/
def homeUpdate (s : State) (line hint : Nat) (wr : Bool) (f : SLine → SLine) : State × SLine :=
  let h := homeOf line
  let (sl, x) := sliceTouch (sliceAt s h) line hint wr
  let y := f x
  ({ s with slices := Tab.put s.slices h (slicePut sl y) }, y)

/-- The data and the eight granule tags of a line as its home holds them. -/
def lineData (s : State) (line : Nat) : BitVec 1024 := BitVec.ofNat 1024 (ofBytes (readMem s.mem (line * 128) 128))
def lineTags (s : State) (line : Nat) : Byte :=
  BitVec.ofNat 8 ((List.range 8).foldl (fun acc k => acc + (if Tab.get false s.tags (line * 8 + k) then 2 ^ k else 0)) 0)

/-- AtHome Renew (R272): the lease is extended, and the line's times are answered. -/
def homeRenew (s : State) (line pc hint : Nat) : State × SLine :=
  homeUpdate s line hint false fun x => { x with rts := max (max x.rts (x.wts + Config.lease)) (pc + Config.lease) }

/-- A read at the home that writes nothing (R273): the time it takes, which the lease then covers. -/
def homeRead (s : State) (line pc hint : Nat) : State × Nat :=
  let r := homeUpdate s line hint false fun x => { x with rts := max x.rts (max pc x.wts) }
  (r.1, max pc r.2.wts)

/-- An access of a line at its slice counts as a hit or a miss for every resident context that holds the colour of its capability (R413).
Log 53 (DESIGN CHOICE). -/
def countSlice (s : State) (line colour : Nat) : State :=
  let hit := ((Tab.get [] (sliceAt s (homeOf line)).sets (setOf line)).find? (·.line = line)).isSome
  s.ctxs.foldl (fun s c => if (validColours c.2.colours).contains colour then countEvent s c.1 (if hit then 4 else 5) 1 else s) s

/-- The lanes held in SIGWAIT on a line of local HBM test their word again, and peers that wait on it are answered afresh (R241). -/
def wakeSignals (s0 : State) (line : Nat) : State :=
  let s := if s0.net.sigs.any fun x => decide (lineOf x.1 = line) then due s0 (.peerSignal line) else s0
  s.sheaves.foldl (fun s e =>
    e.2.lanes.foldl (fun s l =>
      match l.2.hold with
      | some (.sigwait c _ _) =>
        if regionOf s.fabric.number (capBase c) = .hbm ∧ lineOf (localOf (capBase c)) = line then due s (.sigwaitReload e.1 l.1) else s
      | _ => s) s) s

/-- A write at the home (R273): the write time rises above every lease; bytes and tags change; signal waits are woken.
The time of the writer is `pc`; a write by another party has time 0. -/
def homeWrite (s : State) (pc l : Nat) (data : List Byte) (tag : Bool) (hint : Nat) : State × Nat :=
  let r := homeUpdate s (lineOf l) hint true fun x =>
    { x with wts := max pc (x.rts + 1), rts := max pc (x.rts + 1), dirty := true }
  let s1 := { r.1 with mem := writeMem r.1.mem l data, tags := setTags r.1.tags l data.length tag }
  (wakeSignals s1 (lineOf l), r.2.wts)

/-- A write by another party, line by line (R273). -/
def otherWrite : Nat → State → Nat → List Byte → Bool → Nat → State
  | 0, s, _, _, _, _ => s
  | fuel + 1, s, l, data, tag, hint =>
    if data.isEmpty then s
    else
      let n := min data.length (128 - l % 128)
      otherWrite fuel (homeWrite s 0 l (data.take n) tag hint).1 (l + n) (data.drop n) tag hint

/-- Every line of a granule takes a write by another party in time only: a firmware change of its entry (R451). Lines not held by
their slice read their slice's registers, which are raised instead. -/
def granuleTouch (s : State) (g : Nat) : State :=
  let inG := fun (x : SLine) => x.line / 16384 = g
  (List.range 64).foldl (fun s h =>
    let k := g * 2 ^ 21 / 2 ^ 39 % 8 * 64 + h
    let e := sliceAt s k
    { s with slices := Tab.put s.slices k { e with mwts := e.mrts + 1, mrts := e.mrts + 1,
                                                   sets := e.sets.map fun st => (st.1, st.2.map fun x =>
                                                     if inG x then { x with wts := x.rts + 1, rts := x.rts + 1 } else x) } }) s

/-- Bytes of a copy's data. -/
def copyBytes (d : BitVec 1024) (off n : Nat) : List Byte := toBytes n (d.toNat >>> (8 * off))

/-- A line's data with bytes replaced. -/
def patchLine (d : BitVec 1024) (off : Nat) (b : List Byte) : BitVec 1024 :=
  let v := toBytes 128 d.toNat
  BitVec.ofNat 1024 (ofBytes (v.take off ++ b ++ v.drop (off + b.length)))

/-- Tag bits of a line with the granules some bytes touch set to one value. -/
def patchTags (t : Byte) (off n : Nat) (v : Bool) : Byte :=
  BitVec.ofNat 8 ((List.range 8).foldl (fun acc k =>
    let touched := decide (off / 16 ≤ k) && decide (k ≤ (off + n - 1) / 16) && decide (0 < n)
    acc + (if (if touched then v else t.getLsbD k) then 2 ^ k else 0)) 0)

/-- The banks of a core in CACHE mode and not switching: the ways of its data cache (R262). -/
def cacheBanks (c : CoreSt) : List Nat :=
  (List.range 48).filter fun b =>
    let k := Tab.get bankReset c.banks b
    k.mode = .cache ∧ k.switching.isNone

/-- A copy with nothing in it. -/
def copyEmpty : Copy := { data := 0, tags := 0, wts := 0, rts := 0, colour := 0, valid := 0, hint := 0, bank := 0, used := 0 }

/-- The CACHE bank a fill of a line takes: one its set leaves free, else the bank of a bypass or least recently used line (R262, R265). -/
def fillBank (c : CoreSt) (line : Nat) : Option (Nat × Option Nat) :=
  let set := c.dcache.filter fun e => e.1 % 512 = line % 512
  match (cacheBanks c).find? (fun b => set.all (fun e => e.2.bank ≠ b)) with
  | some b => some (b, none)
  | none =>
    match minPos (set.map fun e => (e.1, e.2.used)) with
    | some (l, _) => some ((Tab.get copyEmpty c.dcache l).bank, some l)
    | none => none

/-- The recency of a copy used at a stamp: a short-lived line comes before every other, and lines of one hint go by their last use (R262, R265). -/
def recency (hint now : Nat) : Nat := if hint = 1 then now else 2 ^ 64 + now

/-- A stamp of the order in which copies are used. Log 5 (DEDUCED). -/
def stamp (s : State) : State := { s with nextId := s.nextId + 1 }

/-- A core with a copy filled or renewed (R272, R451): no data means Renewed. -/
def coreFill (c : CoreSt) (line sector : Nat) (wts rts : Nat) (data : Option (BitVec 1024 × Byte)) (colour hint now : Nat) : CoreSt :=
  match Tab.at? c.dcache line, data with
  | some k, none => { c with dcache := Tab.put c.dcache line { k with rts := rts, colour := colour } }
  | some k, some (d, t) =>
    let v := if k.wts = wts then k.valid ||| BitVec.ofNat 2 (2 ^ sector) else BitVec.ofNat 2 (2 ^ sector)
    let k1 := { k with data := d, tags := t, wts := wts, rts := rts, colour := colour, valid := v, hint := hint, used := recency hint now }
    { c with dcache := Tab.put c.dcache line k1 }
  | none, some (d, t) =>
    match fillBank c line with
    | some (b, out) =>
      let dc := match out with
        | some l => Tab.drop c.dcache l
        | none => c.dcache
      let k1 : Copy := { data := d, tags := t, wts := wts, rts := rts, colour := colour, valid := BitVec.ofNat 2 (2 ^ sector), hint := hint,
                         bank := b, used := recency hint now }
      { c with dcache := Tab.put dc line k1 }
    | none => c
  | none, none => c

/-- A reply resolves every entry of every thread on the line (R275, R276): confirmed where its lease covers the load (R280).
Log 66 (DEDUCED). -/
def resolveLine (c : CoreSt) (line wts rts : Nat) : CoreSt :=
  { c with watch := c.watch.filterMap fun e =>
      if e.line = line ∧ !e.struck then (if e.w = wts ∧ e.pts ≤ rts then none else some { e with struck := true }) else some e }

/-- The strikes a reply made are counted for the threads' contexts (R277, R413). -/
def countStrikes (before after : State) (k : Nat) : State :=
  let old := (coreAt before k).watch
  let new := (coreAt after k).watch.filter fun e => e.struck && old.any fun x => x == { e with struck := false }
  new.foldl (fun s e => match sheaf? s e.sh with
    | some sf => countEvent s sf.ctx 3 1
    | none => s) after

/-- A core's logical time raised to a time a reply carries (R271). -/
def raisePts (s : State) (k t : Nat) : State := updCore s k fun c => { c with pts := max c.pts t }

/-- A copy serves an access: its lease has not run out, its sector is valid and its colour is the access's (R272, R451). -/
def copyServes (cp : Copy) (pts l colour : Nat) : Bool :=
  cp.valid.getLsbD (l / 64 % 2) && decide (cp.colour = colour) && decide (pts ≤ cp.rts)

/-- The data-cache copy that serves an access of a core. -/
def cacheHit (s : State) (k l colour : Nat) : Option Copy :=
  match Tab.at? (coreAt s k).dcache (lineOf l) with
  | some cp => if copyServes cp (coreAt s k).pts l colour then some cp else none
  | none => none

/-- The stack-cache copy that serves a stack access of a quadrant (R125). -/
def stackHit (s : State) (q l colour : Nat) : Option Copy :=
  match Tab.at? (quadAt s q).stack (lineOf l) with
  | some cp => if copyServes cp (coreAt s (q / 4)).pts l colour then some cp else none
  | none => none

/-- A Renew at the home (R272): Renewed where the write time is the copy's, else Data. One whose granule has left its colour fills nothing. -/
def takeRenew (s0 : State) (r : Renew) : State × Reply :=
  let s := countSlice s0 r.line r.colour
  let h := homeRenew s r.line r.pts r.hint
  let ok := granuleCheck s (r.line * 128) r.colour == .pass
  (h.1, { core := r.core, line := r.line, wts := h.2.wts, rts := h.2.rts,
          data := if r.w = some h.2.wts then none else some (lineData h.1 r.line, lineTags h.1 r.line),
          colour := r.colour, hint := r.hint, sector := r.sector, fill := ok && r.hint != 3 })

/-- A reply at the core (R272, R275, R276): the copy, the logical time, and every entry on the line. -/
def takeReply (s : State) (r : Reply) : State :=
  countStrikes s (updCore (stamp s) r.core fun c =>
    let c1 := resolveLine { c with pts := max c.pts r.wts } r.line r.wts r.rts
    if r.fill then coreFill c1 r.line r.sector r.wts r.rts r.data r.colour r.hint s.nextId else c1) r.core

/-- A Renew arrives at its home (R272): it is answered, or held at a granule in transit (R27). -/
def renewAtHome (s : State) (r : Renew) : State :=
  if granuleCheck s (r.line * 128) r.colour = .transit then updNet s fun n => { n with held := n.held ++ [.renew r] }
  else
    let x := takeRenew s r
    updNet x.1 fun n => { n with replies := n.replies ++ [x.2] }

/-- The Renews that a test selects arrive at their homes. -/
def renewSome (s : State) (sel : Renew → Bool) : State :=
  let mine := s.net.renews.filter sel
  if mine.isEmpty then s else mine.foldl renewAtHome (updNet s fun n => { n with renews := n.renews.filter fun r => !sel r })

/-- A Renew that a core sent to the home slice of a line. -/
def sentTo (k line : Nat) (r : Renew) : Bool := decide (r.core = k) && decide (homeOf r.line = homeOf line)

/-- A Renew is outstanding for a line, on its way out or back, or held at its home (R276). -/
def renewOut (s : State) (k line : Nat) : Bool :=
  s.net.renews.any (fun r => decide (r.core = k) && decide (r.line = line)) || s.net.replies.any (fun r => decide (r.core = k) && decide (r.line = line)) ||
    s.net.held.any fun h => match h with
      | .renew r => decide (r.core = k) && decide (r.line = line)
      | _ => false

/-- The replies of a line on their way to a core arrive. -/
def takeBack (s : State) (k line : Nat) : State :=
  let back := s.net.replies.filter fun r => r.core = k ∧ r.line = line
  back.foldl takeReply (updNet s fun n => { n with replies := n.replies.filter fun r => ¬(r.core = k ∧ r.line = line) })

/-- A load of bytes of a line of local HBM by a core (R272): from a copy under a valid lease of the same colour, else renewed at
the home, where GranuleCheck has passed; with the write time of what was read. Bypass fills no copy. Log 2 (DEDUCED). -/
def lineLoad (s : State) (k l n colour hint : Nat) : State × List Byte × Byte × Nat :=
  let line := lineOf l
  match cacheHit s k l colour with
  | some cp =>
    let s1 := updCore (stamp s) k fun c => { c with pts := max c.pts cp.wts,
                                                    dcache := Tab.put c.dcache line { cp with used := recency cp.hint s.nextId } }
    (s1, copyBytes cp.data (l % 128) n, cp.tags, cp.wts)
  | none =>
    let w := match Tab.at? (coreAt s k).dcache line with
      | some cp => if cp.valid.getLsbD (l / 64 % 2) ∧ hint ≠ 3 then some cp.wts else none
      | none => none
    let x := takeRenew s { core := k, line := line, pts := (coreAt s k).pts, w := w, colour := colour, hint := hint, sector := l / 64 % 2, seq := s.nextId }
    let d := lineData x.1 line
    (takeReply x.1 x.2, copyBytes d (l % 128) n, lineTags x.1 line, x.2.wts)

/-- A copy as a write of its core leaves it: the line's new data, tags and times (R262, R273, R288), unless it is newer than the write.
Log 5 (DEDUCED). -/
def copyAfter (cp : Copy) (line : BitVec 1024) (tags : Byte) (wts : Nat) : Copy :=
  if wts < cp.wts then cp else { cp with data := line, tags := tags, wts := wts, rts := wts }

/-- A table of copies in which a line's copy, if present, is as a write of its core leaves it. -/
def tabAfter (t : Tab Copy) (n : Nat) (line : BitVec 1024) (tags : Byte) (wts : Nat) : Tab Copy :=
  match Tab.at? t n with
  | some cp => Tab.put t n (copyAfter cp line tags wts)
  | none => t

/-- A present copy takes the data and times of a write its core made, and a data-cache copy its hint (R262, R265, R273). -/
def copyWritten (s : State) (k n : Nat) (line : BitVec 1024) (tags : Byte) (wts hint : Nat) : State :=
  updCore s k fun c =>
    { c with pts := max c.pts wts, atoms := tabAfter c.atoms n line tags wts,
             dcache := match Tab.at? c.dcache n with
               | some cp => Tab.put c.dcache n { copyAfter cp line tags wts with hint := hint }
               | none => c.dcache }

/-- As `copyWritten`, in the stack caches of the core's quadrants (R125). -/
def stackWritten (s : State) (k n : Nat) (line : BitVec 1024) (tags : Byte) (wts : Nat) : State :=
  (List.range 4).foldl (fun s q =>
    if (Tab.at? (quadAt s (k * 4 + q)).stack n).isSome then updQuad s (k * 4 + q) fun x => { x with stack := tabAfter x.stack n line tags wts } else s) s

/-- An acknowledged write of a core in its copies (R262, R273): the line as the write left it. -/
def copiesWritten (s : State) (k n : Nat) (line : BitVec 1024) (tags : Byte) (wts hint : Nat) : State :=
  stackWritten (copyWritten s k n line tags wts hint) k n line tags wts

/-- A write just made at the home, in the copies of the core that made it. -/
def copiesNow (s : State) (k l wts hint : Nat) : State := copiesWritten s k (lineOf l) (lineData s (lineOf l)) (lineTags s (lineOf l)) wts hint

end Sys2Proof.Machine
end

