-- ==== Sys2Proof/Machine/Events.lean ====
section
/-! DEFINITION. The event rings of the functions (R414, R415, R438): an entry is written to host memory and its interrupt sent, or held in
firmware, or counted as dropped. -/

namespace Sys2Proof.Machine

/-- A function's registers. -/
def funcAt (s : State) (fn : Nat) : Func := Tab.get funcReset s.host.funcs fn

/-- The state with a function's registers changed. -/
def updFunc (s : State) (fn : Nat) (f : Func → Func) : State :=
  { s with host := { s.host with funcs := Tab.put s.host.funcs fn (f (funcAt s fn)) } }

/-- The event ring is enabled and has room (R415, R438). -/
def ringRoom (f : Func) : Bool :=
  f.evtCtl.getLsbD 0 && decide ((f.evtTail - f.evtHead).toNat < f.evtSize.toNat)

/-- The address of the next entry: bits [3:0] of EVT_BASE are ignored (R438). -/
def entryAddr (f : Func) : Nat := f.evtBase.toNat / 16 * 16 + 16 * (f.evtTail.toNat % (max 1 f.evtSize.toNat))

/-- An entry written at EVT_TAIL, and then its interrupt (R415). D tells that events were dropped. -/
def writeEvent (s : State) (fn : Nat) (e : List Byte) : State :=
  let f := funcAt s fn
  let code := (e.headD 0) &&& 0x7F#8
  let e' := (code ||| (if f.evtDrop ≠ 0 then 0x80#8 else 0)) :: e.tail
  let s1 := send s (.hostWrite fn (entryAddr f) e')
  send (updFunc s1 fn fun f => { f with evtTail := f.evtTail + 1 }) (.msix fn code.toNat)

/-- Held entries written while the ring has room, oldest first (R414). -/
def flushEvents : Nat → State → Nat → State
  | 0, s, _ => s
  | n + 1, s, fn =>
    match (funcAt s fn).held with
    | [] => s
    | e :: rest =>
      if ringRoom (funcAt s fn) then flushEvents n (writeEvent (updFunc s fn fun f => { f with held := rest }) fn e) fn else s

/-- An event raised for a function (R414): written, held, or counted. -/
def raiseEvent (s : State) (fn : Nat) (e : List Byte) : State :=
  let f := funcAt s fn
  if f.held.isEmpty && ringRoom f then writeEvent s fn e
  else if f.held.length < 256 then updFunc s fn fun f => { f with held := f.held ++ [e] }
  else updFunc s fn fun f => { f with evtDrop := f.evtDrop + 1 }

/-- The 16 bytes of an event entry (R415). -/
def eventBytes (code status cid arg data : Nat) : List Byte :=
  toBytes 1 code ++ toBytes 1 status ++ toBytes 2 cid ++ toBytes 4 arg ++ toBytes 8 data

/-- An event that is no admin completion. -/
def postEvent (s : State) (fn code arg data : Nat) : State := raiseEvent s fn (eventBytes code 0 0 arg data)

/-- A lost write of a retired team: LOSS rises and the host is told (R389, R414). -/
def countLoss (s : State) (ctx : Nat) : State :=
  let s1 := updCtx s ctx fun c => { c with loss := c.loss + 1 }
  postEvent s1 (ctxAt s1 ctx).func 0x05 ctx (ctxAt s1 ctx).loss

end Sys2Proof.Machine
end

