-- ==== Sys2Proof/Machine/Operands.lean ====
section
/-! DEFINITION. Operand forms: register codes and the values of R13 and R174, sel3 (R62), pairs and quads (R37, R60), the
constants a thread reads, and the writes an instruction makes (R84). -/

namespace Sys2Proof.Machine

/-- A lane that a word acts in: the state, its sheaf and thread, the active lanes of the issuing group, and those of them that take effect. -/
structure Env where
  s : State
  sh : Nat
  ln : Nat
  sf : Sheaf
  th : Thread
  acts : List (Nat × Nat)
  parts : List (Nat × Nat)
  deriving DecidableEq, Repr

/-- What an instruction writes in a lane: registers by reg8 code, predicates, capability registers, and flags ORed into `sr.fexc`. -/
structure Wr where
  regs : List (Nat × Word)
  preds : List (Nat × Bool)
  caps : List (Nat × Cap)
  flags : Word
  deriving DecidableEq, Repr

/-- Nothing written. -/
def wrNone : Wr := { regs := [], preds := [], caps := [], flags := 0 }

/-- One register written. -/
def wrReg (r : BitVec 8) (v : Word) : Wr := { wrNone with regs := [(r.toNat, v)] }

/-- A register pair written, low word in the even register (R37). -/
def wrPair (r : BitVec 8) (v : DWord) : Wr :=
  { wrNone with regs := [(r.toNat, v.extractLsb' 0 32), (r.toNat + 1, v.extractLsb' 32 32)] }

/-- A register quad written. -/
def wrQuad (r : BitVec 8) (v : QWord) : Wr :=
  { wrNone with regs := (List.range 4).map fun k => (r.toNat + k, v.extractLsb' (32 * k) 32) }

/-- One predicate written. -/
def wrPred (n : Nat) (b : Bool) : Wr := { wrNone with preds := [(n, b)] }

/-- One capability register written. -/
def wrCap (n : Nat) (c : Cap) : Wr := { wrNone with caps := [(n, c)] }

/-- Two lots of writes. -/
def wrBoth (a b : Wr) : Wr :=
  { regs := a.regs ++ b.regs, preds := a.preds ++ b.preds, caps := a.caps ++ b.caps, flags := a.flags ||| b.flags }

/-- Flags added to the writes. -/
def wrFlags (w : Wr) (f : Word) : Wr := { w with flags := w.flags ||| f }

/-- The scalar registers a sheaf reads: one set for both sheaves of a pair, held by the first (R177). -/
def scalarsOf (s : State) (sf : Sheaf) : Tab Word :=
  match sf.half, sf.pair with
  | 1, some p =>
    match sheaf? s p with
    | some x => x.s
    | none => sf.s
  | _, _ => sf.s

/-- The first sheaf lane of a lane's gang (R176). -/
def gangBase (width ln : Nat) : Nat := if 32 ≤ width then 0 else ln / width * width

/-- The gang-relative position of a lane (R226). -/
def gangPos (sf : Sheaf) (ln : Nat) : Nat := ln - gangBase sf.width ln + (if sf.width = 64 then 32 * sf.half else 0)

/-- A mask of sheaf lanes as a word. -/
def maskOf (l : List Nat) : Word := l.foldl (fun m k => m ||| BitVec.ofNat 32 (2 ^ k)) 0

/-- `amask`: the active lanes of the reading lane's gang, in its own half (R174). -/
def amaskOf (e : Env) : Word :=
  let b := gangBase e.sf.width e.ln
  let w := if 32 ≤ e.sf.width then 32 else e.sf.width
  maskOf ((e.acts.filter fun a => a.1 = e.sh ∧ b ≤ a.2 ∧ a.2 < b + w).map fun a => a.2 - b)

/-- A general register. -/
def gReg (th : Thread) (n : Nat) : Word := Tab.get 0 th.g n

/-- A predicate. -/
def pReg (th : Thread) (n : Nat) : Bool := Tab.get false th.p n

/-- A capability register. -/
def cReg (th : Thread) (n : Nat) : Cap := Tab.get nullCap th.c n

/-- A lane is in a runner launch (R205). -/
def runnerOf (s : State) (sf : Sheaf) : Option Runner :=
  match Tab.at? s.launches sf.launch with
  | some l => l.runner
  | none => none

/-- The value of a register code as a source (R13, R60, R174). -/
def readCode (e : Env) (r : Nat) : Word :=
  if r < 0xC0 then gReg e.th r
  else if r < 0xE0 then Tab.get 0 (scalarsOf e.s e.sf) (r - 0xC0)
  else if r < 0xF0 then Tab.get 0 e.th.t (r - 0xE0)
  else if r = 0xF1 then BitVec.ofNat 32 e.th.lane
  else if r = 0xF2 then BitVec.ofNat 32 e.th.tid
  else if r = 0xF3 then BitVec.ofNat 32 e.th.gangid
  else if r = 0xF4 then BitVec.ofNat 32 e.th.teamid
  else if r = 0xF5 then BitVec.ofNat 32 (if (runnerOf e.s e.sf).isSome then e.th.seg else e.th.stage)
  else if r = 0xF6 then amaskOf e
  else if r = 0xF7 then BitVec.ofNat 32 e.sf.width
  else 0

/-- The element width of a T code within a 32-bit register (R36). -/
def elemWidth (t : Nat) : Nat := if t < 3 then 32 else if t < 7 then 16 else if t < 11 then 8 else if t < 14 then 4 else 32

/-- Floating-point element types. -/
def isFloat (t : Nat) : Bool := [2, 3, 4, 9, 10, 12, 14].contains t

/-- The elements of a word, element 0 first, as naturals (R36). -/
def elems (w n : Nat) (x : Word) : List Nat := (List.range n).map fun i => x.toNat / 2 ^ (w * i) % 2 ^ w

/-- A word from its elements (R36). -/
def packElems (w : Nat) (l : List Nat) : Word := BitVec.ofNat 32 (l.foldr (fun v acc => acc * 2 ^ w + v % 2 ^ w) 0)

/-- sel3 code 111: each element negated (R62). -/
def negElems (t : Nat) (x : Word) : Word :=
  let w := elemWidth t
  packElems w ((elems w (32 / w) x).map fun v => if isFloat t then v ^^^ 2 ^ (w - 1) else (2 ^ w - v) % 2 ^ w)

/-- sel3 applied to a word read in a type (R62). -/
def applySel (sel : BitVec 3) (t : Nat) (x : Word) : Word :=
  match sel.toNat with
  | 0 => x
  | 1 => packElems 16 [x.toNat % 65536, x.toNat % 65536]
  | 2 => packElems 16 [x.toNat / 65536, x.toNat / 65536]
  | 3 => packElems 16 [x.toNat / 65536, x.toNat % 65536]
  | 4 => packElems 8 (elems 8 4 x).reverse
  | 5 => packElems 8 (List.replicate 4 (x.toNat % 256))
  | 6 => packElems 4 (List.replicate 8 (x.toNat % 16))
  | _ => negElems t x

/-- An 11-bit source of one register, read in a type (R60, R62). -/
def src (e : Env) (x : Spec11) (t : Nat) : Word := applySel x.sel t (readCode e x.reg.toNat)

/-- A pair of g-registers as 64 bits (R37). -/
def codePair (e : Env) (r : BitVec 8) : DWord := readCode e (r.toNat + 1) ++ readCode e r.toNat

/-- A quad of g-registers as 128 bits. -/
def codeQuad (e : Env) (r : BitVec 8) : QWord :=
  readCode e (r.toNat + 3) ++ readCode e (r.toNat + 2) ++ readCode e (r.toNat + 1) ++ readCode e r.toNat

/-- An 11-bit pair; sel3 111 inverts bit 63 of an F64 (R62). -/
def srcPair (e : Env) (x : Spec11) : DWord :=
  if x.sel = 7#3 then codePair e x.reg ^^^ 0x8000000000000000#64 else codePair e x.reg

/-- An operand of a type: a pair for F64, else one register, as 64 bits. -/
def srcT (e : Env) (x : Spec11) (t : Nat) : DWord :=
  if t = 14 then srcPair e x else (src e x t).setWidth 64

/-- A destination of a type: a pair for F64, else one register. -/
def wrT (r : BitVec 8) (t : Nat) (v : DWord) : Wr := if t = 14 then wrPair r v else wrReg r (v.setWidth 32)

/-- A capability register named by an 11-bit field. -/
def capA (e : Env) (x : Spec11) : Cap := cReg e.th x.num

/-- A data register of a memory word by size in bytes: one register, a pair or a quad (R142). -/
def dataReg (e : Env) (r : BitVec 8) (n : Nat) : QWord :=
  if n = 16 then codeQuad e r
  else if n = 8 then (codePair e r).setWidth 128
  else (readCode e r.toNat).setWidth 128

/-- The byte offset of a memory operand (R25): the register unsigned, scaled, plus the signed displacement. -/
def memOff (e : Env) (o : MF) : Int :=
  (if o.off = 0xFF#8 then 0 else ((readCode e o.off.toNat).toNat * 2 ^ o.sc.toNat : Int)) + o.disp.toInt

/-- The size in bytes of a SZ code (R63). -/
def szBytes (sz : BitVec 3) : Nat :=
  match sz.toNat with
  | 0 => 1
  | 1 => 2
  | 2 => 4
  | 3 => 8
  | 4 => 16
  | 5 => 1
  | _ => 2

/-- What a load writes: the bytes extended by SZ (R143). -/
def extendLoad (d : BitVec 8) (sz : BitVec 3) (v : Nat) : Wr :=
  match sz.toNat with
  | 3 => wrPair d (BitVec.ofNat 64 v)
  | 4 => wrQuad d (BitVec.ofNat 128 v)
  | 5 => wrReg d ((BitVec.ofNat 8 v).signExtend 32)
  | 6 => wrReg d ((BitVec.ofNat 16 v).signExtend 32)
  | _ => wrReg d (BitVec.ofNat 32 v)

end Sys2Proof.Machine
end

