-- ==== Sys2Proof/Machine/Ops.lean ====
section
/-! DEFINITION. The shared operations: watch entries and releases, loads and stores of a thread, taking a fault (parking), entering
and leaving the handler, moving the PC, and the one operation through which every thread word takes effect in the lanes of
its group. -/

namespace Sys2Proof.Machine

/-- What executing an instruction answers. -/
abbrev Result := Host.Outcome State Fault Refusal

/-- A fault with a cause, a reason and an address. -/
def mkFault (cause reason : Byte) (addr : Nat) : FaultInfo :=
  { cause := cause, reason := reason, detail := 0, addr := addr, scr := false, drain := false, async := false, after := false, pos := none }

/-- What becomes of one lane at one word. -/
inductive LaneRes where
  /-- the writes, and the PC moves past the word -/
  | ok (w : Wr)
  /-- the writes, and a control transfer -/
  | jump (w : Wr) (target : Word)
  /-- as `jump`, but the thread itself was replaced (a new code capability, a new mode) -/
  | enter (th : Thread) (target : Word)
  /-- a travel of a runner thread that HOP asks for -/
  | hop (target : Word)
  /-- a fault -/
  | fault (f : FaultInfo)
  /-- held at the word, which is issued again -/
  | hold (h : Hold)
  /-- the PC moves past the word and the lane is held -/
  | past (w : Wr) (h : Hold)
  /-- the thread ends -/
  | exit
  /-- watch entries were struck: to the repair target (R299) -/
  | repair
  deriving DecidableEq, Repr

/-- The context of a sheaf is one whose threads may issue (R404). -/
def ctxRuns (s : State) (sf : Sheaf) : Bool :=
  match (ctxAt s sf.ctx).state with
  | .running => true
  | .stopping => true
  | _ => false

/-- The colours of a sheaf's context. -/
def coloursOf (s : State) (sf : Sheaf) : DWord := (ctxAt s sf.ctx).colours

/-- PENDING watch entries of a lane (R275). -/
def watchPending (s : State) (sh ln : Nat) : Nat :=
  ((coreAt s (coreOf sh)).watch.filter fun e => e.sh = sh ∧ e.ln = ln ∧ !e.struck).length

/-- STRUCK watch entries of a lane. -/
def watchStruck (s : State) (sh ln : Nat) : Nat :=
  ((coreAt s (coreOf sh)).watch.filter fun e => e.sh = sh ∧ e.ln = ln ∧ e.struck).length

/-- Every watch entry of a lane freed. -/
def watchFree (s : State) (sh ln : Nat) : State :=
  updCore s (coreOf sh) fun c => { c with watch := c.watch.filter fun e => ¬(e.sh = sh ∧ e.ln = ln) }

/-- The entries of a discarded run freed (R275). -/
def watchFreeRun (s : State) (sh ln : Nat) : State :=
  updCore s (coreOf sh) fun c => { c with watch := c.watch.filter fun e => ¬(e.sh = sh ∧ e.ln = ln ∧ e.inRun) }

/-- The outcomes of resolving watch entries (R282). -/
inductive Resolved where
  | clear | pending | struck
  deriving DecidableEq, Repr

/-- Resolving a lane's entries (R282, R298): struck entries are freed, STRUCK is set and NSTRUCK rises. -/
def resolveWatch (s : State) (sh ln : Nat) : State × Resolved :=
  if watchPending s sh ln ≠ 0 then (s, .pending)
  else
    let k := watchStruck s sh ln
    if k = 0 then (s, .clear)
    else
      let s1 := watchFree s sh ln
      (updThread s1 sh ln fun th =>
        let n := min 255 ((th.spr.wstat.extractLsb' 16 8).toNat + k)
        { th with spr := { th.spr with wstat := BitVec.ofNat 32 (2 ^ 31 + n * 65536) } }, .struck)

/-- Whose accesses a lane makes. -/
def whoOf (sf : Sheaf) (th : Thread) : Who :=
  { ctx := sf.ctx, launch := sf.launch, stage := th.stage, teamid := th.teamid, gangid := th.gangid, tid := th.tid }

/-- The thread that stands in a lane, as the owner of what it has sent. -/
def ownerAt (s : State) (sh ln : Nat) : Option Who :=
  match sheaf? s sh, thread? s sh ln with
  | some sf, some th => some (whoOf sf th)
  | _, _ => none

/-- Something that the thread in a lane has sent. -/
def owns (s : State) (sh ln : Nat) (w : Who) : Bool := decide (ownerAt s sh ln = some w)

/-- The resident lane of a live thread. -/
def laneOf (s : State) (w : Who) : Option (Nat × Nat) :=
  s.sheaves.findSome? fun e => (e.2.lanes.find? fun l => decide (l.2.status = .live) && decide (whoOf e.2 l.2 = w)).map fun l => (e.1, l.1)

/-- The thread of a team that has not exited with the lowest gang index and then the lowest lane index (R195). -/
def teamTarget (s : State) (w : Who) : Option (Nat × Nat) :=
  let lanes := s.sheaves.flatMap fun e =>
    if e.2.launch = w.launch then
      e.2.lanes.filterMap fun l =>
        if l.2.status = .live ∧ l.2.teamid = w.teamid ∧ l.2.stage = w.stage then some ((e.1, l.1), l.2.gangid * 64 + l.2.tid) else none
    else []
  match lanes with
  | [] => none
  | x :: rest => some (rest.foldl (fun b y => if y.2 < b.2 then y else b) x).1

/-- A GRANULE_WRITE_LOST joins a thread's waiting losses: 16, then a count (R389); it may park the thread at once if it is at a run boundary. -/
def queueLoss (s : State) (sh ln addr colour : Nat) : State :=
  due (updThread s sh ln fun th =>
    if th.losses.length < 16 then { th with losses := th.losses ++ [{ addr := addr, colour := colour }] }
    else { th with lossMore := th.lossMore + 1 }) (.asyncFault sh ln)

/-- A write is lost (R389): told to the thread that made it, else to the thread of its team that R195 selects, else counted. -/
def addLoss (s : State) (w : Who) (addr colour : Nat) : State :=
  match (laneOf s w).or (teamTarget s w) with
  | some x => queueLoss s x.1 x.2 addr colour
  | none => countLoss s w.ctx

/-- The stores of a lane's thread that have not performed (R300). -/
def ownStores (s : State) (sh ln : Nat) : List PStore := s.net.stores.filter fun p => owns s sh ln p.who

/-- The Renews that a store's core has sent before it to the same home slice arrive before it (R423). -/
def renewsFirst (s : State) (p : PStore) : State := renewSome s fun r => sentTo p.core (lineOf (localOf p.addr)) r && decide (r.seq < p.seq)

/-- What a thread sends after a write carries a time not below it (R273, R279). -/
def carryPts (s : State) (w : Who) (t : Nat) : State :=
  if s.net.stores.any fun p => decide (p.who = w) then
    updNet s fun n => { n with stores := n.stores.map fun p => if p.who = w then { p with pts := max p.pts t } else p }
  else s

/-- A posted store performs at its home (R273, R129, R389): its granule still belongs to its colour, or the write is lost.
A store to a granule in transit is held there (R27). -/
def performStore (s0 : State) (p : PStore) : State :=
  let s := renewsFirst s0 p
  let l := localOf p.addr
  match granuleCheck s l (capColour p.cap) with
  | .transit => updNet s fun n => { n with held := n.held ++ [.store p] }
  | .fail => addLoss s p.who p.addr (capColour p.cap)
  | .pass =>
    let r := homeWrite (countSlice s (lineOf l) (capColour p.cap)) p.pts l (toBytes p.size p.data.toNat) p.tagged p.hint
    carryPts (copiesNow r.1 p.core l r.2 p.hint) p.who r.2

/-- A posted store that a held store comes before: one of its thread, or one of its core to its line. -/
def storeBlocked (s : State) (p : PStore) : Bool :=
  s.net.held.any fun h => match h with
    | .store q => decide (q.who = p.who) || (decide (q.core = p.core) && decide (lineOf (localOf q.addr) = lineOf (localOf p.addr)))
    | _ => false

/-- A write of a lane's thread is held at a granule in transit. -/
def heldStore (s : State) (sh ln : Nat) : Bool :=
  s.net.held.any fun h => match h with
    | .store p => owns s sh ln p.who
    | _ => false

/-- A store comes before another: of the same thread (R279), or sent by the same core to the same home slice (R423). -/
def precedes (p q : PStore) : Bool :=
  decide (p.who = q.who) || (decide (p.core = q.core) && decide (homeOf (lineOf (localOf p.addr)) = homeOf (lineOf (localOf q.addr))))

/-- The stores of a list that a test selects, with those that come before them. -/
def withEarlier (sel : PStore → Bool) : List PStore → List PStore
  | [] => []
  | p :: t =>
    let r := withEarlier sel t
    if sel p || r.any (precedes p) then p :: r else r

/-- Posted stores, by their numbers, perform in the order in which they were sent; one that a held store comes before stays posted. -/
def performSeq : List Nat → State → State
  | [], s => s
  | q :: t, s =>
    match s.net.stores.find? fun p => decide (p.seq = q) with
    | none => performSeq t s
    | some p =>
      if storeBlocked s p then performSeq t s
      else performSeq t (performStore (updNet s fun n => { n with stores := n.stores.filter fun x => decide (x.seq ≠ q) }) p)

/-- An acknowledgement reaches its core (R273, R389). -/
def takeAck (s : State) (a : Ack) : State :=
  if a.lost then addLoss s a.who a.addr a.colour
  else carryPts (copiesWritten s a.core (lineOf (localOf a.addr)) a.line a.tags a.wts a.hint) a.who a.wts

/-- The acknowledgements that a test selects arrive. -/
def ackSome (s : State) (sel : Ack → Bool) : State :=
  let mine := s.net.acks.filter sel
  if mine.isEmpty then s else mine.foldl takeAck (updNet s fun n => { n with acks := n.acks.filter fun a => !sel a })

/-- The posted stores that a test selects perform, after those that come before them and after what their threads still have to be told.
Log 3 (DEDUCED). -/
def drainSome (s : State) (sel : PStore → Bool) : State :=
  let l := withEarlier sel s.net.stores
  if l.isEmpty then s else performSeq (l.map (·.seq)) (ackSome s fun a => l.any fun p => decide (p.who = a.who))

/-- A lane's own posted stores perform and are acknowledged, in their order. Log 3 (DEDUCED). -/
def drainOwn (s : State) (sh ln : Nat) : State :=
  let s1 := drainSome s fun p => owns s sh ln p.who
  ackSome s1 fun a => owns s1 sh ln a.who

/-- Team-scope stores of a core to a line perform before another access of the core reads its bytes (R285).
Log 3 (DEDUCED). -/
def drainTeam (s : State) (k line : Nat) : State :=
  drainSome s fun p => decide (p.core = k) && decide (p.kind = .teamAtomic) && decide (lineOf (localOf p.addr) = line)

/-- What a core has sent to the home slice of a line arrives there before a request that it sends now (R423). -/
def portFirst (s : State) (k line : Nat) : State :=
  renewSome (drainSome s fun p => decide (p.core = k) && decide (homeOf (lineOf (localOf p.addr)) = homeOf line)) (sentTo k line)

/-- The outstanding Renews of a core for a line are answered (R296: a plain load of the line waits for them).
Log 2 (DEDUCED). -/
def settleRenew (s : State) (k line : Nat) : State := if renewOut s k line then takeBack (portFirst s k line) k line else s

/-- An access of a lane to a peer or to the host is outstanding, or a write of its thread is held at a granule in transit. -/
def awaiting (s : State) (sh ln : Nat) : Bool :=
  s.net.peerReqs.any (fun r => r.sh = sh ∧ r.ln = ln) || s.net.pcieReqs.any (fun r => r.sh = sh ∧ r.ln = ln) || heldStore s sh ln

/-- Cluster-scope updates of a lane's thread not yet accepted or refused (R285, R300). -/
def clusterPending (s : State) (sh ln : Nat) : Bool :=
  s.clusters.any fun c => c.2.lines.any fun l => (l.2.sent ++ l.2.waiting).any fun (u : Upd) => owns s sh ln u.who

/-- The waits of a FENCE (R290, R300): every earlier access has performed; at system scope the thread's host writes have left. -/
def fenceReady (s : State) (sh ln : Nat) (system : Bool) : State × Bool :=
  let s1 := drainOwn s sh ln
  (s1, !awaiting s1 sh ln && !clusterPending s1 sh ln && !(system && s1.net.pcieWrites.any fun p => owns s1 sh ln p.who))

/-- The FENCE step of a release in a lane (R295): watch entries, then the waits of its scope. -/
def releaseStep (s : State) (sh ln : Nat) (system : Bool) : State × Resolved :=
  match resolveWatch s sh ln with
  | (s1, .clear) =>
    let r := fenceReady s1 sh ln system
    (r.1, if r.2 then .clear else .pending)
  | r => r

/-- A lane's request packet may start at its core's injection port (R269). -/
def portReady (s : State) (e : Env) : Bool := mayInject s (coreOf e.sh) e.sf.ctx

/-- A lane's request packet with some bytes of data starts (R269). -/
def packet (s : State) (e : Env) (n : Nat) : State := inject s (coreOf e.sh) e.sf.ctx (flits n)

/-- A lane's request to the home slice of a line, behind what its core sent there before (R269, R423).
Log 2 (DEDUCED), 3 (DEDUCED). -/
def request (s : State) (e : Env) (line n : Nat) : State := portFirst (packet s e n) (coreOf e.sh) line

/-- The injection port holds a lane's request (R269). -/
def portHolds (s : State) (e : Env) : State := holdPort s (coreOf e.sh) e.sf.ctx

/-- A write to the host window leaves the PCIe interface (R290). -/
def departWrite (s : State) (p : PStore) : State :=
  send s (.hostWrite (ctxAt s p.who.ctx).func (localOf p.addr % 2 ^ 41) (toBytes p.size p.data.toNat))

/-- The host writes of a context leave in their order, before a read or an AtomicOp of the context does (R279, R290): PCIe lets no read pass a write.
Log 27 (DESIGN CHOICE). -/
def flushHost (s : State) (ctx : Nat) : State :=
  (s.net.pcieWrites.filter fun p => decide (p.who.ctx = ctx)).foldl departWrite
    (updNet s fun n => { n with pcieWrites := n.pcieWrites.filter fun p => decide (p.who.ctx ≠ ctx) })

/-- The byte a list of stores, oldest first, leaves at an address (R32). -/
def storedByte (l : List (Nat × Nat × QWord)) (a : Nat) : Option Byte :=
  l.foldl (fun acc e => if e.1 ≤ a ∧ a < e.1 + e.2.1 then some (e.2.2.extractLsb' (8 * (a - e.1)) 8) else acc) none

/-- The buffered global stores of a lane's run. -/
def runStores (th : Thread) : List (Nat × Nat × QWord) :=
  match th.run with
  | some r => (r.stores.filter fun x => !x.scratch).map fun x => (x.addr, x.size, x.data)
  | none => []

/-- Stores under the one name of each byte (R17). -/
def ownNames (s : State) (l : List (Nat × Nat × QWord)) : List (Nat × Nat × QWord) := l.map fun x => (ownAddr s.fabric.number x.1, x.2)

/-- A lane that cannot be served: its cause and reason, or that it must wait. -/
inductive Denied where
  | fault (cause reason : Byte)
  | hold (h : Hold)
  deriving DecidableEq, Repr

/-- Updates of the cluster unit of a core to some bytes wait for their answer (R285). -/
def clusterBusy (s : State) (k a n : Nat) : Bool :=
  match Tab.at? (Tab.get clusterReset s.clusters (clusterOfCore k)).lines (lineOf (localOf a)) with
  | some l => (l.sent ++ l.waiting).any fun (u : Upd) => decide (u.addr < a + n) && decide (a < u.addr + 8)
  | none => false

/-- The tag a lane's own latest store left on a granule. -/
def ownTag (s : State) (e : Env) (a n : Nat) : Option Bool :=
  let f := ownAddr s.fabric.number
  let inRun := match e.th.run with
    | some r => (r.stores.filter fun (x : RunStore) => !x.scratch ∧ f x.addr < f a + n ∧ f a < f x.addr + x.size).getLast?.map fun (x : RunStore) => x.tagged
    | none => none
  inRun.or (((ownStores s e.sh e.ln).filter fun (p : PStore) => f p.addr < f a + n ∧ f a < f p.addr + p.size).getLast?.map fun (x : PStore) => x.tagged)

/-- The bytes of a load that the thread's own stores decide, posted ones and those of its run (R32). -/
def ownBytes (s : State) (e : Env) (a n : Nat) : List (Option Byte) :=
  let l := ownNames s (((ownStores s e.sh e.ln).map fun p => (p.addr, p.size, p.data)) ++ runStores e.th)
  (List.range n).map fun k => storedByte l (ownAddr s.fabric.number a + k)

/-- The bytes of a load that the thread's run has stored (R32). -/
def runBytes (s : State) (th : Thread) (a n : Nat) : List (Option Byte) :=
  let l := ownNames s (runStores th)
  (List.range n).map fun k => storedByte l (ownAddr s.fabric.number a + k)

/-- Read bytes under those that the thread itself has stored. -/
def under (own : List (Option Byte)) (b : List Byte) : List Byte := (List.range own.length).map fun k => ((own.getD k none).getD (b.getD k 0))

/-- Bytes that a run loads after it has buffered a store (R130, R284): the write time that the load read is kept to the trailer.
Log 63 (DESIGN CHOICE). -/
def noteLoad (s : State) (sh ln a n wts : Nat) : State :=
  updThread s sh ln fun th => { th with run := th.run.map fun r => if r.stores.isEmpty then r else { r with after := r.after ++ [(a, n, wts)] } }

/-- A load of `n` bytes of local HBM by a lane, with the tag of its granule (R32, R272, R279, R451): bytes of the thread's own
unperformed stores come from them; otherwise its posted stores perform first. A copy that serves the access spares GranuleCheck.
Log 2 (DEDUCED), 14 (DEDUCED), 19 (DEDUCED). -/
def loadHbm (s : State) (e : Env) (a n colour hint : Nat) (stk : Bool) : State × Except Denied (List Byte × Bool) :=
  let l := localOf a
  let k := coreOf e.sh
  let own := ownBytes s e a n
  if own.all (·.isSome) && !own.isEmpty then (s, .ok (own.map (·.getD 0), (ownTag s e a n).getD false))
  else
    let s1 := settleRenew (drainTeam (drainOwn s e.sh e.ln) k (lineOf l)) k (lineOf l)
    let fin := fun (b : List Byte) (t : Byte) => (under (runBytes s e.th a n) b, t.getLsbD (l % 128 / 16))
    if awaiting s1 e.sh e.ln || clusterBusy s1 k a n then (s1, .error (.hold .stall))
    else
      match (if stk then stackHit s1 (quadOf e.sh) l colour else none) with
      | some cp => (noteLoad (raisePts s1 k cp.wts) e.sh e.ln a n cp.wts, .ok (fin (copyBytes cp.data (l % 128) n) cp.tags))
      | none =>
        let go := fun (s : State) =>
          let r := lineLoad s k l n colour hint
          (noteLoad r.1 e.sh e.ln a n r.2.2.2, Except.ok (fin r.2.1 r.2.2.1))
        if (cacheHit s1 k l colour).isSome then go s1
        else if !portReady s1 e then (portHolds s1 e, .error (.hold .stall))
        else
          let s2 := request s1 e (lineOf l) 0
          match granuleCheck s2 l colour with
          | .fail => (s2, .error (.fault causeGranule 0x74))
          | .transit => (updNet s1 fun x => { x with held := x.held ++ [.lane e.sh e.ln (l / 2 ^ 21)] }, .error (.hold .transit))
          | .pass => go s2

/-- The position of a lane's word in its run (R378). -/
def widx (th : Thread) : Nat :=
  match th.run with
  | some r => if r.pos = r.n + 1 then 25 else r.pos
  | none => 0

/-- `sr.finfo` (R378). -/
def finfoOf (f : FaultInfo) (pos : Nat) : Word :=
  BitVec.ofNat 5 pos ++ (if f.async then 1#1 else 0#1) ++ (if f.drain then 1#1 else 0#1) ++ (if f.scr then 1#1 else 0#1) ++ f.detail ++ f.reason

/-- A discarded run: registers, predicates and flags as at RUNB, no buffered store (R129, R381). -/
def discardRun (th : Thread) : Thread :=
  match th.run with
  | some r => { th with g := r.g0, p := r.p0, spr := { th.spr with fexc := r.fexc0 }, run := none, t := [], pc := r.start }
  | none => { th with t := [] }

/-- The fault state of a thread (R377 to R380), and `sr.fpc`: the RUNB, or the following word for TRAP and BRK. -/
def faultedThread (th : Thread) (f : FaultInfo) : Thread :=
  let fpc := match th.run with
    | some r => r.start
    | none => if f.after then th.pc + 8 else th.pc
  let d := discardRun th
  { d with hold := none, word := none, buf := [],
           spr := { d.spr with cause := f.cause.setWidth 32, faddr := BitVec.ofNat 32 (f.addr % 2 ^ 32),
                               faddrhi := BitVec.ofNat 32 (if f.scr then 0 else f.addr / 2 ^ 32 % 2 ^ 20), fpc := fpc,
                               finfo := finfoOf f (f.pos.getD (widx th)) } }

/-- A lane's loads of a signal are given up (R241): the wait of a lane that parks or leaves stands no longer, and a peer is told. Log 65 (DESIGN CHOICE). -/
def dropSig (s : State) (sh ln : Nat) : State :=
  let mine := fun (r : Req) => decide (r.sh = sh) && decide (r.ln = ln) && (match r.want with
    | .sig _ _ => true
    | .sigRest _ _ => true
    | _ => false)
  let s1 := (s.net.peerReqs.filter mine).foldl (fun s r => send s (.peerEnd r.port (devOf r.addr) r.addr)) s
  if s.net.peerReqs.any mine || s.net.pcieReqs.any mine then
    updNet s1 fun n => { n with peerReqs := n.peerReqs.filter fun r => !mine r, pcieReqs := n.pcieReqs.filter fun r => !mine r }
  else s1

/-- A context halts (R388): it is stopped and saved, and the record says why. Log 54 (DEDUCED). -/
def haltContext (s : State) (k : Nat) (r : HaltRec) : State :=
  let c := ctxAt s k
  if c.why = some .halt ∨ c.state ≠ .running ∧ c.state ≠ .stopping then s
  else due (updCtx s k fun c => { c with haltrec := r, why := some .halt, state := .stopping, acks := [] }) (.stopRequest k .halt)

/-- The lowest number free for a sub-sheaf of a sheaf. Log 22 (DESIGN CHOICE). -/
def freeSub (sf : Sheaf) : Nat := (Tab.firstFree sf.subs 64).getD 64

/-- The fault a lane of a run reports: an access that failed late comes before a fault of a later word (R128, R381). -/
def lateFirst (th : Thread) (f : FaultInfo) : FaultInfo :=
  match th.run with
  | some r => match r.late with
    | some l => { mkFault l.cause l.reason l.addr with pos := some l.pos }
    | none => f
  | none => f

/-- Lanes of a sheaf take their faults at one word: they form one parked sub-sheaf (R381). In handler mode the context halts (R388).
Log 22 (DESIGN CHOICE), 56 (DEDUCED). -/
def parkLanes (s : State) (sh : Nat) (fs0 : List (Nat × FaultInfo)) : State :=
  let fs := fs0.map fun x => match thread? s sh x.1 with
    | some th => (x.1, lateFirst th x.2)
    | none => x
  match sheaf? s sh, fs with
  | some sf, (l0, f0) :: _ =>
    let inH : Bool := match Tab.at? sf.lanes l0 with
      | some (th : Thread) => (th.park.map fun p => p.inHandler).getD false
      | none => false
    let code := match Tab.at? sf.lanes l0 with
      | some th => th.code
      | none => nullCap
    let fpc0 := match Tab.at? sf.lanes l0 with
      | some th => (faultedThread th f0).spr.fpc
      | none => 0
    let mask := maskOf (fs.map (·.1))
    if inH then
      let own := match Tab.at? sf.lanes l0 with
        | some (th : Thread) => (th.park.bind fun p => Tab.at? sf.subs p.sub).map fun (b : Sub) => b.mask
        | none => none
      let pos := match Tab.at? sf.lanes l0 with
        | some th => f0.pos.getD (widx th)
        | none => 0
      let s1 := fs.foldl (fun (s : State) (lf : Nat × FaultInfo) =>
        updThread (watchFreeRun s sh lf.1) sh lf.1 fun th => { discardRun th with hold := none, word := none }) s
      haltContext s1 sf.ctx
        { reason := if f0.cause = causeTrap ∨ f0.cause = causeBreak then 0x04 else 0x03, cause := f0.cause, sheaf := BitVec.ofNat 16 sh,
          finfo := finfoOf f0 pos, fpc := fpc0, mask := (own.getD mask).setWidth 64 }
    else
      let id := freeSub sf
      let s1 := fs.foldl (fun (s : State) (lf : Nat × FaultInfo) =>
        let s := dropSig (watchFreeRun s sh lf.1) sh lf.1
        updThread s sh lf.1 fun th => { faultedThread th lf.2 with park := some { sub := id, inHandler := false } }) s
      updSheaf s1 sh fun sf => { sf with subs := Tab.put sf.subs id { mask := mask, savedCode := code, inHandler := false } }
  | _, _ => s

/-- The segment of a runner launch that holds an offset (R211). -/
def segmentOf (r : Runner) (pc : Word) : Option Nat :=
  (List.range r.segs.length).find? fun k =>
    match r.segs[k]? with
    | some g => g.codeOff ≤ pc.toNat && pc.toNat < g.codeOff + g.codeLen
    | none => false

/-- A lane in handler mode (R385). -/
def inHandler (th : Thread) : Bool := (th.park.map (·.inHandler)).getD false

/-- A thread about to travel to an offset (R211, R213). A run whose words leave the segment is left with nothing of it done: the packet carries no run (R215).
Log 64 (DESIGN CHOICE). -/
def travels (th : Thread) (target : Word) : Thread :=
  match th.run with
  | some r => { discardRun th with pc := th.pc, hold := some (.travel target r.start) }
  | none => { th with hold := some (.travel target th.pc) }

/-- Where a move of the PC takes a thread (R16, R119, R211): in place, travelling, or a fault.
Log 64 (DESIGN CHOICE). -/
def moveTo (s : State) (sf : Sheaf) (th : Thread) (target : Word) (hop : Bool) : Except FaultInfo Thread :=
  if target.toNat % 8 ≠ 0 then .error (mkFault causeAlign 0 target.toNat)
  else
    match runnerOf s sf with
    | none => .ok { th with pc := target }
    | some r =>
      if inHandler th then .ok { th with pc := target }
      else
        match segmentOf r target with
        | none => .error (mkFault causeRunner 0x41 target.toNat)
        | some k => if k = th.seg ∧ !hop then .ok { th with pc := target } else .ok (travels th target)

/-- The thread past its word: the PC advances by 8, and the run by one word (R16, R126). -/
def pastWord (th : Thread) : Thread :=
  { th with run := th.run.map fun r => { r with pos := r.pos + 1 } }

/-- Whether a write is one a run forbids (R128): an unpublished g-register, an s- or a c-register. -/
def runForbids (th : Thread) (w : Wr) : Bool :=
  match th.run with
  | some r => !w.caps.isEmpty || w.regs.any fun x => (decide (x.1 < 0xC0) && !r.pub.contains x.1) || (decide (0xC0 ≤ x.1) && decide (x.1 < 0xE0))
  | none => false

/-- The writes of a lane in its own thread; `zero` discards, s-registers are written by the word (R13, R84). -/
def applyWr (th : Thread) (w : Wr) : Thread :=
  { th with g := w.regs.foldl (fun g x => if x.1 < 0xC0 then Tab.set 0 g x.1 x.2 else g) th.g,
            t := w.regs.foldl (fun t x => if 0xE0 ≤ x.1 ∧ x.1 < 0xF0 then Tab.set 0 t (x.1 - 0xE0) x.2 else t) th.t,
            p := w.preds.foldl (fun p x => Tab.set false p x.1 x.2) th.p,
            c := w.caps.foldl (fun c x => Tab.set nullCap c x.1 x.2) th.c,
            spr := { th.spr with fexc := th.spr.fexc ||| w.flags } }

/-- The repair target of a lane (R299), or ILLEGAL_INSTRUCTION with reason 0x0B where it is 0. -/
def repairTarget (th : Thread) : Except FaultInfo Word :=
  let t := th.spr.wrep &&& ~~~7#32
  if t = 0 then .error (mkFault causeIllegal 0x0B th.pc.toNat) else .ok t

/-- A thread outside a run keeps no run temporary past its word (R13). -/
def dropTemps (th : Thread) : Thread := match th.run with
  | some _ => th
  | none => { th with t := [] }

/-- One lane's result in its thread: the new thread, or the fault it takes instead. -/
def settle (s : State) (sf : Sheaf) (th : Thread) (r : LaneRes) : Except FaultInfo Thread :=
  match r with
  | .ok w =>
    if runForbids th w then .error (mkFault causeRun 0x32 th.pc.toNat)
    else (moveTo s sf (pastWord (applyWr th w)) (th.pc + 8) false).map dropTemps
  | .jump w target =>
    if runForbids th w then .error (mkFault causeRun 0x32 th.pc.toNat)
    else (moveTo s sf (pastWord (applyWr th w)) target false).map dropTemps
  | .enter th' target => (moveTo s sf th' target false).map dropTemps
  | .hop target => (moveTo s sf th target true).map dropTemps
  | .fault f => .error f
  | .hold h => .ok { th with hold := some h }
  | .past w h =>
    if runForbids th w then .error (mkFault causeRun 0x32 th.pc.toNat)
    else (moveTo s sf (pastWord (applyWr th w)) (th.pc + 8) false).map fun t => dropTemps { t with hold := if t.hold.isSome then t.hold else some h }
  | .exit => .ok { discardRun th with status := .exited, hold := none }
  | .repair =>
    match repairTarget th with
    | .ok t => (moveTo s sf (discardRun th) t false).map dropTemps
    | .error f => .error f

/-- The writes a result makes. -/
def LaneWr (r : LaneRes) : Wr :=
  match r with
  | .ok w => w
  | .jump w _ => w
  | .past w _ => w
  | _ => wrNone

/-- Every live lane of a mask of a sheaf, ascending. -/
def maskLanes (sh : Nat) (m : Word) : List (Nat × Nat) :=
  ((List.range 32).filter fun k => m.getLsbD k).map fun k => (sh, k)

/-- The active lanes of the issuing group: the first sheaf of a pair comes first (R179, R228).
Log 6 (DESIGN CHOICE). -/
def activeLanes (s : State) : List (Nat × Nat) :=
  match s.focus with
  | none => []
  | some g =>
    match sheaf? s g.sh with
    | none => []
    | some sf =>
      match sf.pair with
      | none => maskLanes g.sh g.mask
      | some p =>
        if sf.half = 1 then maskLanes p g.pairMask ++ maskLanes g.sh g.mask else maskLanes g.sh g.mask ++ maskLanes p g.pairMask

/-- A full word's guard is true in a thread (R57). -/
def guardTrue (th : Thread) (h : Guard) : Bool :=
  h.pg = 63#6 || (pReg th h.pg.toNat != (h.pn == 1#1))

/-- The sub-sheaves of a sheaf hold the lanes that are parked in them; an empty one is forgotten (R381, R386, R387). -/
def fixSubs (s : State) (sh : Nat) : State :=
  updSheaf s sh fun sf =>
    let maskFor := fun (id : Nat) => maskOf ((sf.lanes.filter fun (l : Nat × Thread) =>
      decide (l.2.status = .live) && decide ((l.2.park.map fun (p : Park) => p.sub) = some id)).map (·.1))
    { sf with subs := (sf.subs.map fun e => (e.1, { e.2 with mask := maskFor e.1 })).filter fun e => e.2.mask ≠ 0 }

/-- The losses of an ended thread beyond those that wait join the count of the thread that takes them over, or of the context (R389). -/
def passMore (s : State) (w : Who) (n : Nat) : State :=
  if n = 0 then s
  else
    match teamTarget s w with
    | some x => updThread s x.1 x.2 fun th => { th with lossMore := th.lossMore + n }
    | none => (List.range n).foldl (fun s _ => countLoss s w.ctx) s

/-- The end of a lane: its watch entries are discarded, its losses and its overrun pass to another thread of its team, and in handler
mode it leaves its sub-sheaf (R123, R195, R387, R389). -/
def leaveLane (s : State) (sh ln : Nat) : State :=
  let s1 := fixSubs (watchFree s sh ln) sh
  match sheaf? s1 sh, thread? s1 sh ln with
  | some sf, some th =>
    let w := whoOf sf th
    let s2 := updThread s1 sh ln fun th => { th with losses := [], lossMore := 0, overrun := none, park := none }
    let s3 := passMore (th.losses.foldl (fun s x => addLoss s w x.addr x.colour) s2) w th.lossMore
    match th.overrun, teamTarget s3 w with
    | some n, some x => due (updThread s3 x.1 x.2 fun th => { th with overrun := some n }) (.asyncFault x.1 x.2)
    | _, _ => s3
  | _, _ => s1

/-- A sheaf slot of a runner launch is free once the last of its lanes has departed or exited (R213). -/
def freeSlot (s : State) (sh : Nat) : State :=
  match sheaf? s sh with
  | some sf =>
    if (runnerOf s sf).isSome ∧ sf.forming.isNone ∧ sf.lanes.all (fun l => decide (l.2.status ≠ LaneStatus.live)) then
      let s1 := sf.lanes.foldl (fun s l => drainOwn s sh l.1) s
      { s1 with sheaves := Tab.drop s1.sheaves sh }
    else s
  | none => s

/-- A thread of a runner launch has exited (R207, R213). -/
def countExit (s : State) (sh : Nat) : State :=
  match sheaf? s sh with
  | some sf =>
    match Tab.at? s.launches sf.launch with
    | some l =>
      match l.runner with
      | some r => freeSlot { s with launches := Tab.put s.launches sf.launch { l with runner := some { r with exits := r.exits + 1 } } } sh
      | none => s
    | none => s
  | none => s

/-- One lane's result taking effect: its thread after the word, or one more fault to report. -/
def settleStep (acc : State × List (Nat × Nat × FaultInfo)) (x : (Nat × Nat) × LaneRes) : State × List (Nat × Nat × FaultInfo) :=
  match sheaf? acc.1 x.1.1, thread? acc.1 x.1.1 x.1.2 with
  | some sf, some th =>
    match settle acc.1 sf th x.2 with
    | .ok th' =>
      let s1 := updThread acc.1 x.1.1 x.1.2 fun _ => th'
      let s2 := match x.2 with
        | .exit => countExit (leaveLane s1 x.1.1 x.1.2) x.1.1
        | .repair => watchFreeRun s1 x.1.1 x.1.2
        | _ => s1
      (s2, acc.2)
    | .error f => (acc.1, acc.2 ++ [(x.1.1, x.1.2, f)])
  | _, _ => acc

/-- The s-registers of a lane's writes, in the sheaf that holds them: the first of a pair (R177). Log 61 (DEDUCED). -/
def writeScalars (s : State) (sh : Nat) (w : Wr) : State :=
  let ws := w.regs.filter fun y => 0xC0 ≤ y.1 ∧ y.1 < 0xE0
  match sheaf? s sh with
  | some sf =>
    let home := if sf.half = 1 then sf.pair.getD sh else sh
    updSheaf s home fun sf => { sf with s := ws.foldl (fun t y => Tab.set 0 t (y.1 - 0xC0) y.2) sf.s }
  | none => s

/-- The lanes that fault at one word park, sheaf by sheaf (R381). Log 56 (DEDUCED). -/
def parkAll (s : State) (l : List (Nat × Nat × FaultInfo)) : State :=
  ((l.map (·.1)).eraseDups).foldl (fun s sh => parkLanes s sh ((l.filter fun y => y.1 = sh).map (·.2))) s

/-- The results of a word take effect: each lane's writes, then the scalar registers from the lowest-numbered lane that took effect (R84),
then the lanes that fault park together (R381). Log 61 (DEDUCED). -/
def finishWord (s : State) (rs : List ((Nat × Nat) × LaneRes)) : State :=
  let r := rs.foldl settleStep (s, [])
  let bad := fun (x : Nat × Nat) => r.2.any fun y => y.1 = x.1 ∧ y.2.1 = x.2
  parkAll (match rs.find? fun x => !bad x.1 && !(LaneWr x.2).regs.isEmpty with
    | some x => writeScalars r.1 x.1.1 (LaneWr x.2)
    | none => r.1) r.2

/-- What a word asks of the place it stands in. -/
structure WordCfg where
  guard : Guard
  /-- may not stand in a run (R127) -/
  noRun : Bool
  /-- raises reason 0x0A in a runner launch (R212) -/
  noRunner : Bool
  /-- needs handler mode (R148) -/
  handler : Bool
  /-- is a store word of a run (R127) -/
  store : Bool
  /-- resolves watch entries before it takes effect (R282) -/
  resolve : Bool
  deriving DecidableEq, Repr

/-- A word with no requirement. -/
def cfg (h : Guard) : WordCfg := { guard := h, noRun := false, noRunner := false, handler := false, store := false, resolve := false }

/-- A word that may not stand in a run. -/
def cfgNR (h : Guard) : WordCfg := { cfg h with noRun := true }

/-- A word that may stand neither in a run nor in a runner launch. -/
def cfgNRR (h : Guard) : WordCfg := { cfg h with noRun := true, noRunner := true }

/-- A word that resolves watch entries. -/
def cfgRes (h : Guard) : WordCfg := { cfg h with resolve := true }

/-- A word stops in a lane: modes where its guard is true (R57, R148, R212), then words that a run forbids, whatever the guard (R128).
Log 15 (DEDUCED). -/
def wordStop (s : State) (k : WordCfg) (sh ln : Nat) : Option FaultInfo :=
  match sheaf? s sh, thread? s sh ln with
  | some sf, some th =>
    if k.handler ∧ !inHandler th ∧ guardTrue th k.guard then some (mkFault causeIllegal 0x09 th.pc.toNat)
    else if k.noRunner ∧ (runnerOf s sf).isSome ∧ guardTrue th k.guard then some (mkFault causeIllegal 0x0A th.pc.toNat)
    else
      match th.run with
      | some r =>
        if k.noRun then some (mkFault causeRun 0x31 th.pc.toNat)
        else if k.store ∧ 8 ≤ r.nst then some (mkFault causeRun 0x33 th.pc.toNat)
        else none
      | none => none
  | _, _ => none

/-- A thread whose run has one store word more. -/
def storeCounted (th : Thread) : Thread := { th with run := th.run.map fun r => { r with nst := r.nst + 1 } }

/-- The store words of a run counted (R127); outside a run there is nothing to count. -/
def countStore (s : State) (l : List (Nat × Nat)) : State :=
  l.foldl (fun s x => if ((thread? s x.1 x.2).bind fun (th : Thread) => th.run).isSome then updThread s x.1 x.2 storeCounted else s) s

/-- The lane as the word sees it. -/
def envOf (s : State) (acts parts : List (Nat × Nat)) (x : Nat × Nat) : Option Env :=
  match sheaf? s x.1, thread? s x.1 x.2 with
  | some sf, some th => some { s := s, sh := x.1, ln := x.2, sf := sf, th := th, acts := acts, parts := parts }
  | _, _ => none

/-- The active lanes that are resident. Log 6 (DESIGN CHOICE). -/
def presentLanes (s : State) : List (Nat × Nat) := (activeLanes s).filter fun x => (thread? s x.1 x.2).isSome

/-- The lanes that a word stops, with their faults. -/
def wordStops (s : State) (k : WordCfg) : List ((Nat × Nat) × LaneRes) :=
  (presentLanes s).filterMap fun x => (wordStop s k x.1 x.2).map fun fi => (x, LaneRes.fault fi)

/-- The lanes that take effect: those whose guard is true (R57). -/
def takingLanes (s : State) (h : Guard) : List (Nat × Nat) :=
  (presentLanes s).filter fun x => match thread? s x.1 x.2 with
    | some th => guardTrue th h
    | none => false

/-- The lanes that do not take effect go past the word with nothing written. -/
def idleLanes (s : State) (h : Guard) : List ((Nat × Nat) × LaneRes) :=
  ((presentLanes s).filter fun x => !(takingLanes s h).contains x).map fun x => (x, LaneRes.ok wrNone)

/-- A wait that the whole group of a word shares (R179, R180). -/
def groupWait (h : Hold) : Bool :=
  match h with
  | .stall => true
  | .again => true
  | .reply => true
  | .transit => true
  | .mail => true
  | .acc => true
  | .bank _ _ => true
  | .array => true
  | _ => false

/-- A result that leaves its group waiting. -/
def resWaits (r : LaneRes) : Bool :=
  match r with
  | .hold h => groupWait h
  | _ => false

/-- A result after which no further lane of the word is evaluated: the lanes of a word take effect in its order. Log 12 (DEDUCED). -/
def resStops (r : LaneRes) : Bool :=
  match r with
  | .hold .stall => true
  | .hold .again => true
  | _ => false

/-- A lane that has done nothing of its word. -/
def notBegun (r : LaneRes) : Bool :=
  match r with
  | .hold .stall => true
  | _ => false

/-- A result with which the PC moves past the word, now or when an access that has left is answered. -/
def resAdvances (r : LaneRes) : Bool :=
  match r with
  | .ok _ => true
  | .past _ _ => true
  | .hold .reply => true
  | .hold .mail => true
  | _ => false

/-- The advance past a word leaves every segment of a runner launch (R211). -/
def edgeFault (e : Env) : Option FaultInfo :=
  match runnerOf e.s e.sf with
  | none => none
  | some r => if !inHandler e.th && (segmentOf r (e.th.pc + 8)).isNone then some (mkFault causeRunner 0x41 (e.th.pc + 8).toNat) else none

/-- A word in one lane: one that would advance out of every segment faults and does nothing (R211). -/
def evalLane (f : Env → State → State × LaneRes) (e : Env) (s : State) : State × LaneRes :=
  let o := f e s
  match edgeFault e with
  | some fi => if resAdvances o.2 then (s, .fault fi) else o
  | none => o

/-- The lanes evaluated one after another, until one must wait: the state, the results, and the lanes that are left.
Log 12 (DEDUCED). -/
def evalLanes (acts parts : List (Nat × Nat)) (f : Env → State → State × LaneRes) :
    List (Nat × Nat) → State → State × List ((Nat × Nat) × LaneRes) × List (Nat × Nat)
  | [], s => (s, [], [])
  | x :: rest, s =>
    match envOf s acts parts x with
    | none => evalLanes acts parts f rest s
    | some e =>
      let o := evalLane f e s
      if resStops o.2 then (o.1, [(x, o.2)], rest)
      else
        let r := evalLanes acts parts f rest o.1
        (r.1, (x, o.2) :: r.2.1, r.2.2)

/-- Results in the order of the lanes. -/
def byLane (acts : List (Nat × Nat)) (rs : List ((Nat × Nat) × LaneRes)) : List ((Nat × Nat) × LaneRes) :=
  acts.filterMap fun x => rs.find? fun y => y.1 = x

/-- The part of one lane in a word that its group waits for: its writes take effect, what else it does waits for the word's end (R84, R179, R381). -/
def partDone (id : Nat) (s : State) (x : (Nat × Nat) × LaneRes) : State :=
  match thread? s x.1.1 x.1.2 with
  | some th =>
    let put := fun (th : Thread) (h : Hold) => updThread s x.1.1 x.1.2 fun _ => { th with word := some id, hold := some h }
    match x.2 with
    | .ok w =>
      if runForbids th w then put th (.failed (mkFault causeRun 0x32 th.pc.toNat))
      else put (applyWr th w) (.done (w.regs.filter fun y => 0xC0 ≤ y.1 ∧ y.1 < 0xE0))
    | .fault f => put th (.failed f)
    | .repair => put th .struck
    | .hold h => put th h
    | r => finishWord s [(x.1, r)]
  | none => s

/-- What a lane whose part of a word is done does when the word ends. -/
def partResult (h : Option Hold) : Option LaneRes :=
  match h with
  | some (.done ws) => some (.ok { wrNone with regs := ws })
  | some (.failed f) => some (.fault f)
  | some .struck => some .repair
  | _ => none

/-- A lane of a word that still has to do its part. -/
def partOpen (h : Option Hold) : Bool :=
  match h with
  | none => true
  | some h => groupWait h

/-- The lanes of a word. -/
def wordLanes (sf : Sheaf) (id : Nat) : Tab Thread := sf.lanes.filter fun l => decide (l.2.word = some id)

/-- The lanes of a word that have done their parts go on together. -/
def finishParts (s : State) (sh : Nat) (l : Tab Thread) : State :=
  finishWord (l.foldl (fun s x => updThread s sh x.1 fun th =>
      { th with word := none, hold := if (partResult th.hold).isSome then none else th.hold }) s)
    (l.filterMap fun x => (partResult x.2.hold).map fun r => ((sh, x.1), r))

/-- A word ends once no lane of it waits. -/
def closeWord (s : State) (sh id : Nat) : State :=
  match sheaf? s sh with
  | none => s
  | some sf => if (wordLanes sf id).any fun l => partOpen l.2.hold then s else finishParts s sh (wordLanes sf id)

/-- The lanes of a word whose part of it is done or under way. -/
def restLanes (s : State) : List (Nat × Nat) :=
  match s.focus with
  | some g => maskLanes g.sh g.rest
  | none => []

/-- A word that no lane waits at ends at once; one that no lane has begun holds its group; else the lanes that are left, or that wait, hold the
others at the word until all have done their parts (R179, R180). Log 13 (DEDUCED), 56 (DEDUCED). -/
def endWord (s : State) (todo : List (Nat × Nat)) (rs idle : List ((Nat × Nat) × LaneRes)) : State :=
  let g := s.focus.getD { sh := 0, mask := 0, pairMask := 0, rest := 0, word := none }
  if todo.isEmpty && g.word.isNone && !rs.any (fun x => resWaits x.2) then finishWord s (rs ++ idle)
  else if g.word.isNone && rs.all (fun x => notBegun x.2) then
    finishWord s ((rs ++ idle).map (fun x => (x.1, LaneRes.hold .stall)) ++ todo.map fun x => (x, LaneRes.hold .stall))
  else
    let id := g.word.getD s.nextId
    closeWord ((rs ++ todo.map (fun x => (x, LaneRes.hold .stall)) ++ idle).foldl (partDone id) { s with nextId := s.nextId + 1 }) g.sh id

/-- A lane that takes effect has watch entries to wait for, outside a run (R282). -/
def entriesWait (s : State) (k : WordCfg) (parts : List (Nat × Nat)) : Bool :=
  k.resolve && parts.any fun x => decide (watchPending s x.1 x.2 ≠ 0) && !((thread? s x.1 x.2).bind fun (th : Thread) => th.run).isSome

/-- The lanes that a word stops take their faults; those of them that it does not stop go past it. -/
def stopWord (s : State) (k : WordCfg) (stops : List ((Nat × Nat) × LaneRes)) : State :=
  finishWord s (stops ++ (idleLanes s k.guard).filter fun x => !stops.any fun y => decide (y.1 = x.1))

/-- A word executes: the lanes that take effect are evaluated one after another, in an order, and their results settle together. -/
def runWordIn (order : List (Nat × Nat) → List (Nat × Nat)) (k : WordCfg) (f : Env → State → State × LaneRes) (s : State) : State :=
  let acts := presentLanes s
  let stops := wordStops s k
  if !stops.isEmpty then { stopWord s k stops with focus := none }
  else
    let parts := takingLanes s k.guard
    if entriesWait s k parts then { endWord s parts [] (idleLanes s k.guard) with focus := none }
    else
      let r := evalLanes (acts ++ restLanes s) parts f (order parts) (if k.store then countStore s acts else s)
      { endWord r.1 r.2.2 (byLane acts r.2.1) (idleLanes s k.guard) with focus := none }

/-- A word executes with its lanes in ascending order. Log 6 (DESIGN CHOICE). -/
def runWord (k : WordCfg) (f : Env → State → State × LaneRes) (s : State) : State := runWordIn id k f s

/-- The order of the lanes of a word at device or system scope (R294). Log 12 (DEDUCED). -/
def freeOrder (s : State) (l : List (Nat × Nat)) : List (Nat × Nat) := sortBy (fun x => Config.laneKey s.free (x.1 * 32 + x.2)) l

/-- A word whose lanes act on registers alone. -/
def compute (k : WordCfg) (f : Env → Except FaultInfo Wr) (s : State) : State :=
  runWord k (fun e s => (s, match f e with
    | .ok w => .ok w
    | .error fi => .fault fi)) s

/-- A compute word that cannot fault. -/
def computeOk (h : Guard) (f : Env → Wr) (s : State) : State := compute (cfg h) (fun e => .ok (f e)) s

/-- The one evaluation of a word-scope operation; at the end of the last segment it faults (R211). -/
def evalScope (f : Env → State → State × (Nat → LaneRes)) (e : Env) (s : State) : State × (Nat → LaneRes) :=
  let o := f e s
  match edgeFault e with
  | some fi => if resAdvances (o.2 e.ln) then (s, fun _ => .fault fi) else o
  | none => o

/-- A word-scope operation acts once, through the leading lane (R342): its result goes to every lane that takes effect.
Log 6 (DESIGN CHOICE). -/
def wordScope (k : WordCfg) (f : Env → State → State × (Nat → LaneRes)) (s : State) : State :=
  let acts := presentLanes s
  let stops := wordStops s k
  if !stops.isEmpty then { stopWord s k stops with focus := none }
  else
    let parts := takingLanes s k.guard
    match parts with
    | [] => { finishWord s (idleLanes s k.guard) with focus := none }
    | x :: _ =>
      match envOf s acts parts x with
      | some e =>
        let o := evalScope f e s
        { endWord o.1 [] (parts.map fun y => (y, o.2 y.2)) (idleLanes s k.guard) with focus := none }
      | none => { s with focus := none }

/-- The handler of a context entered by a parked sub-sheaf whose earlier accesses are done (R382, R384); a missing or broken handler halts
the context. `entry` gives the entry count and the entry's offset of a code capability. -/
def enterHandler (s : State) (sh sub : Nat) (entry : Cap → Nat → Option (Nat × Nat)) : State :=
  match sheaf? s sh with
  | none => s
  | some sf =>
    match Tab.at? sf.subs sub with
    | none => s
    | some sb =>
      let c := ctxAt s sf.ctx
      let h := c.handler
      let lead := sf.lanes.find? fun e => sb.mask.getLsbD e.1
      let halt := fun (why : Byte) => haltContext s sf.ctx
        { reason := why, cause := (lead.map fun e => e.2.spr.cause.setWidth 8).getD 0, sheaf := BitVec.ofNat 16 sh,
          finfo := (lead.map fun e => e.2.spr.finfo).getD 0, fpc := (lead.map fun e => e.2.spr.fpc).getD 0, mask := sb.mask.setWidth 64 }
      if sb.inHandler then s
      else if !h.tag then halt 0x01
      else
        match entry h c.hentry with
        | none => halt 0x02
        | some (n, off) =>
          if capKind h ≠ 1 ∨ !capHas h 2 ∨ !(validColours c.colours).contains (capColour h) ∨ n ≤ c.hentry ∨ capLen h < off + 8 ∨ off % 8 ≠ 0
          then halt 0x02
          else
            let s1 := updSheaf s sh fun sf => { sf with subs := Tab.put sf.subs sub { sb with inHandler := true } }
            (maskLanes sh sb.mask).foldl (fun s x => updThread s x.1 x.2 fun th =>
              { th with code := capOpen h, pc := BitVec.ofNat 32 off, park := some { sub := sub, inHandler := true } }) s1

/-- Return from the handler in one lane (R386): the saved code capability, the PC from `sr.fpc`, out of handler mode. -/
def leaveHandler (sf : Sheaf) (th : Thread) : LaneRes :=
  if th.spr.fpc.toNat % 8 ≠ 0 then .fault (mkFault causeAlign 0 th.spr.fpc.toNat)
  else
    let code := match th.park with
      | some p => (Tab.at? sf.subs p.sub).map fun (b : Sub) => b.savedCode
      | none => none
    .enter { th with code := code.getD th.code, park := none } th.spr.fpc

/-- A lane that waited has its result: its part of its word is done, or the word takes effect in it alone. Log 13 (DEDUCED). -/
def resumeRes (s : State) (sh ln : Nat) (r : LaneRes) : State :=
  match thread? s sh ln with
  | some th =>
    let s1 := updThread s sh ln fun th => { th with hold := none }
    match th.word with
    | some id => closeWord (partDone id s1 ((sh, ln), r)) sh id
    | none => finishWord s1 [((sh, ln), r)]
  | none => s

/-- A lane that waited goes on: its wait ends and its word takes effect with these writes. Log 13 (DEDUCED). -/
def resume (s : State) (sh ln : Nat) (w : Wr) : State := resumeRes s sh ln (.ok w)

/-- A lane that waited takes a fault at its word. -/
def resumeFault (s : State) (sh ln : Nat) (f : FaultInfo) : State := resumeRes s sh ln (.fault f)

/-- Lanes that waited, each with its result: those of a word in progress do their parts of it, the others go on word by word (R381). -/
def resumeEach : Nat → State → List ((Nat × Nat) × LaneRes) → State
  | 0, s, _ => s
  | _, s, [] => s
  | n + 1, s, x :: rest =>
    match thread? s x.1.1 x.1.2 with
    | none => resumeEach n s rest
    | some th =>
      if th.word.isSome then resumeEach n (resumeRes s x.1.1 x.1.2 x.2) rest
      else
        let mine := fun (y : (Nat × Nat) × LaneRes) => decide (y.1.1 = x.1.1) && (match thread? s y.1.1 y.1.2 with
          | some t => t.word.isNone && decide (t.pc = th.pc) && decide (t.code = th.code)
          | none => false)
        let l := x :: rest.filter mine
        resumeEach n (finishWord (l.foldl (fun s y => updThread s y.1.1 y.1.2 fun th => { th with hold := none }) s) l) (rest.filter fun y => !mine y)

/-- Lanes that waited have their results. -/
def resumeAll (s : State) (l : List ((Nat × Nat) × LaneRes)) : State := resumeEach l.length s l

/-- A lane that waited issues its word again. -/
def retry (s : State) (sh ln : Nat) : State :=
  updThread s sh ln fun th => { th with hold := some (if th.word.isSome then .again else .stall) }

end Sys2Proof.Machine
end

