-- ==== Sys2Proof/Machine/Banks.lean ====
section
/-! DEFINITION. Scratch banks (R258 to R261) and the tile geometry that scratch accesses meet (R312, R315). -/

namespace Sys2Proof.Machine

/-- A bank of a core. -/
def bankAt (c : CoreSt) (b : Nat) : Bank := Tab.get bankReset c.banks b

/-- The scratch ranges allocated on a core. -/
def scratchRanges (s : State) (k : Nat) : List (Nat × Nat) :=
  s.teams.filterMap fun t => if t.2.core = k ∧ t.2.slen ≠ 0 then some (t.2.sbase, t.2.slen) else none

/-- An allocation overlaps a bank. -/
def bankUsed (s : State) (k b : Nat) : Bool :=
  (scratchRanges s k).any fun r => decide (r.1 < (b + 1) * 65536) && decide (b * 65536 < r.1 + r.2)

/-- What a switch request answers (R260). -/
inductive SwitchRes where
  | same | busy | started
  deriving DecidableEq, Repr

/-- A switch request of one bank (R260): CACHE lines are lost at once; `unit` tells that the cluster unit asked. -/
def bankSwitch (s : State) (k b : Nat) (m : BankMode) (unit : Bool) : State × SwitchRes :=
  let c := coreAt s k
  let x := bankAt c b
  if x.switching.isSome then (s, .busy)
  else if x.mode = m then
    (if unit then s else updCore s k fun c => { c with banks := Tab.put c.banks b { x with byUnit := false, byCfg := decide (m ≠ .cache) } }, .same)
  else
    match x.mode with
    | .scratch => if bankUsed s k b then (s, .busy) else go x
    | .fifo => if x.reserved then (s, .busy) else go x
    | .cache => go x
where
  go (x : Bank) : State × SwitchRes :=
    (updCore s k fun c => { c with banks := Tab.put c.banks b { x with switching := some m, byUnit := unit, byCfg := !unit && decide (m ≠ .cache) },
                                   dcache := c.dcache.filter fun e => decide (e.2.bank ≠ b) || decide (x.mode ≠ .cache) }, .started)

/-- A switch is done (R260): a bank that enters SCRATCH or FIFO is zero in every byte and tag. -/
def bankDone (s : State) (k b : Nat) : State :=
  let x := bankAt (coreAt s k) b
  match x.switching with
  | none => s
  | some m => updCore s k fun c =>
    { c with banks := Tab.put c.banks b { x with mode := m, switching := none },
             scratch := if m = .cache then c.scratch else c.scratch.filter fun e => decide (e.1 / 65536 ≠ b),
             stags := if m = .cache then c.stags else c.stags.filter fun e => decide (e.1 / 4096 ≠ b) }

/-- The lanes of a core held for a bank switch go on with status 0 (R307, R350). -/
def bankWaiters (s : State) (k b : Nat) : State :=
  s.sheaves.foldl (fun s e =>
    if coreOf e.1 = k then
      e.2.lanes.foldl (fun s l =>
        match l.2.hold with
        | some (.bank x d) => if x = b then resume s e.1 l.1 (wrReg d 0) else s
        | _ => s) s
    else s) s

/-- BANK_SWITCH_DONE (R260). -/
def execBankSwitchDone (core bank : Nat) (s : State) : Result :=
  .next (if core < Config.cores ∧ bank < 48 ∧ (bankAt (coreAt s core) bank).switching.isSome then bankWaiters (bankDone s core bank) core bank else s)

/-- Banks that the cluster unit switched, of a range of scratch that is free again, return to CACHE if they hold no allocation (R261). Log 29 (DEDUCED). -/
def returnBanks (s : State) (k a n : Nat) : State :=
  ((List.range 48).filter fun b => decide (a < (b + 1) * 65536) && decide (b * 65536 < a + n)).foldl (fun s b =>
    let x := bankAt (coreAt s k) b
    if x.byUnit ∧ x.mode = .scratch ∧ x.switching = none ∧ !bankUsed s k b then (bankSwitch s k b .cache true).1 else s) s

/-- Bytes of a tile's row: ELEMS times the element width (R312). -/
def rowBytes (t : Tile) : Nat := t.elems * typeBits t.fmt.toNat / 8
where
  typeBits (f : Nat) : Nat := if f = 14 then 64 else elemWidth f

/-- The scratch bytes `[a, a + n)` overlap a tile (R312, R315). -/
def tileTouches (t : Tile) (a n : Nat) : Bool :=
  (List.range t.rows).any fun r =>
    let b := t.sbase * 16 + r * t.pitch * 16
    decide (a < b + rowBytes t) && decide (b < a + n)

/-- The scratch bytes overlap a tile of the core that ENGINE owns (R315). -/
def engineTouches (s : State) (k a n : Nat) : Bool :=
  (coreAt s k).tiles.any fun e => e.2.engine && tileTouches e.2 a n

end Sys2Proof.Machine
end

