-- ==== Sys2Proof/Machine/Flags.lean ====
section
/-! DEFINITION. The sticky flags of `sr.fexc` (R39) and the fields of `sr.frm` (R38). -/

namespace Sys2Proof.Machine

/-- NV: invalid operation. -/
def flagNV : Word := 0x01
/-- DZ: a finite nonzero value divided by zero, or the logarithm of zero. -/
def flagDZ : Word := 0x02
/-- OF: overflow. -/
def flagOF : Word := 0x04
/-- UF: underflow. -/
def flagUF : Word := 0x08
/-- NX: inexact. -/
def flagNX : Word := 0x10
/-- SV: saturated as the fallback of a policy. -/
def flagSV : Word := 0x20

/-- A flag where a condition holds. -/
def flagIf (b : Bool) (f : Word) : Word := if b then f else 0

/-- RM of `sr.frm` (R38): 0 RNE, 1 RZ, 2 RD, 3 RU. -/
def frmRM (w : Word) : Nat := (w.extractLsb' 0 2).toNat

/-- FTZ of `sr.frm` (R38). -/
def frmFTZ (w : Word) : Bool := w.getLsbD 2

end Sys2Proof.Machine
end

