-- ==== Sys2Proof/Machine/Float.lean ====
section
/-! DEFINITION. Floating-point formats, exact values, the one rounding, NaN rules and conversions (R34 to R46). An exact value is a sign,
a natural mantissa and a binary exponent; a value that is not a binary fraction is given to enough bits with a last bit set, which
rounds as the exact one. -/

namespace Sys2Proof.Machine

/-- A floating-point format (R34): mantissa bits, exponent bits, bias, and which special codes it has: 0 as IEEE 754, 1 as E4M3
(one NaN, no infinity), 2 as FP4 (neither). -/
structure Fmt where
  mw : Nat
  ew : Nat
  bias : Nat
  special : Nat
  deriving DecidableEq, Repr

/-- The format of a floating-point T code (R34). -/
def fmtOf (t : Nat) : Fmt :=
  match t with
  | 14 => { mw := 52, ew := 11, bias := 1023, special := 0 }
  | 3 => { mw := 10, ew := 5, bias := 15, special := 0 }
  | 4 => { mw := 7, ew := 8, bias := 127, special := 0 }
  | 10 => { mw := 2, ew := 5, bias := 15, special := 0 }
  | 9 => { mw := 3, ew := 4, bias := 7, special := 1 }
  | 12 => { mw := 1, ew := 2, bias := 1, special := 2 }
  | _ => { mw := 23, ew := 8, bias := 127, special := 0 }

/-- FTZ applies to F32, F16 and BF16 only (R41). -/
def flushable (t : Nat) : Bool := t = 2 ∨ t = 3 ∨ t = 4

/-- A decoded value (R34, R42): a NaN with its mantissa bits and their number, an infinity, or a number. -/
inductive FV where
  | nan (neg signalling : Bool) (pay width : Nat)
  | inf (neg : Bool)
  | num (neg : Bool) (m : Nat) (e : Int)
  deriving DecidableEq, Repr

/-- The code of the largest finite value without its sign. -/
def Fmt.maxCode (f : Fmt) : Nat :=
  match f.special with
  | 0 => (2 ^ f.ew - 1) * 2 ^ f.mw - 1
  | 1 => 2 ^ (f.ew + f.mw) - 2
  | _ => 2 ^ (f.ew + f.mw) - 1

/-- A code with its sign. -/
def Fmt.withSign (f : Fmt) (neg : Bool) (code : Nat) : Nat := code + if neg then 2 ^ (f.ew + f.mw) else 0

/-- The code of an infinity, without sign (formats of IEEE 754). -/
def Fmt.infCode (f : Fmt) : Nat := (2 ^ f.ew - 1) * 2 ^ f.mw

/-- The default NaN without sign (R42). -/
def Fmt.nanCode (f : Fmt) : Nat := if f.special = 1 then 2 ^ (f.ew + f.mw) - 1 else f.infCode + 2 ^ (f.mw - 1)

/-- The least exponent of a mantissa unit: subnormals and the lowest normals. -/
def Fmt.qmin (f : Fmt) : Int := 1 - f.bias - f.mw

/-- A code decoded (R34, R35, R42); with `ftz` a subnormal reads as a zero (R41). -/
def decodeFloat (t : Nat) (ftz : Bool) (bits : Nat) : FV :=
  let f := fmtOf t
  let neg := bits / 2 ^ (f.ew + f.mw) % 2 = 1
  let code := bits % 2 ^ (f.ew + f.mw)
  let ex := code / 2 ^ f.mw
  let ma := code % 2 ^ f.mw
  if f.special = 0 ∧ ex = 2 ^ f.ew - 1 then
    if ma = 0 then .inf neg else .nan neg (ma / 2 ^ (f.mw - 1) = 0) ma f.mw
  else if f.special = 1 ∧ code = 2 ^ (f.ew + f.mw) - 1 then .nan neg false (2 ^ (f.mw - 1)) f.mw
  else if ex = 0 then .num neg (if ftz && flushable t then 0 else ma) f.qmin
  else .num neg (2 ^ f.mw + ma) (f.qmin + (ex - 1 : Nat))

/-- The number of bits of a natural number. -/
def bitLen (n : Nat) : Nat := if n = 0 then 0 else Nat.log2 n + 1

/-- Whether a mode rounds a magnitude up, given the remainder's relation to one half (0 below, 1 equal, 2 above), whether the
quotient is odd, and the sign (R38, R40). Mode 5 is nearest with ties away from zero (R104). -/
def roundsUp (rm : Nat) (half : Nat) (odd neg exact : Bool) : Bool :=
  if exact then false
  else match rm with
    | 0 => half = 2 || (half = 1 && odd)
    | 1 => false
    | 2 => neg
    | 3 => !neg
    | _ => half ≠ 0

/-- m × 2^e rounded to a multiple of 2^q: the multiple, and whether it is inexact. -/
def roundTo (rm : Nat) (neg : Bool) (m : Nat) (e q : Int) : Nat × Bool :=
  if q ≤ e then (m * 2 ^ (e - q).toNat, false)
  else
    let sh := (q - e).toNat
    if bitLen m + 2 ≤ sh then
      (if roundsUp rm 0 false neg (m == 0) then 1 else 0, m != 0)
    else
      let k := m / 2 ^ sh
      let r := m % 2 ^ sh
      let half := if 2 * r < 2 ^ sh then 0 else if 2 * r = 2 ^ sh then 1 else 2
      (k + (if roundsUp rm half (k % 2 = 1) neg (r == 0) then 1 else 0), r != 0)

/-- A number rounded once to a format (R40): its code without sign (beyond `maxCode` where it overflows), whether it is inexact and
whether it is tiny after rounding. -/
def roundNum (f : Fmt) (rm : Nat) (neg : Bool) (m : Nat) (e : Int) : Nat × Bool × Bool :=
  if m = 0 then (0, false, false)
  else
    let top : Int := e + ((bitLen m : Int) - 1)
    let q : Int := if top - f.mw < f.qmin then f.qmin else top - f.mw
    let r := roundTo rm neg m e q
    let u := roundTo rm neg m e (top - f.mw)
    let tiny := top < 1 - f.bias && !(u.1 = 2 ^ (f.mw + 1) && top = -(f.bias : Int))
    ((q - f.qmin).toNat * 2 ^ f.mw + r.1, r.2, tiny)

/-- The result of overflow where no policy applies (R40). -/
def overflowCode (f : Fmt) (rm : Nat) (neg : Bool) : Nat :=
  let big := match rm with
    | 0 => true
    | 1 => false
    | 2 => neg
    | _ => !neg
  f.withSign neg (if big then f.infCode else f.maxCode)

/-- A finite exact value delivered in a format by the rules of R40 and R41, with its flags. -/
def deliver (t rm : Nat) (ftz : Bool) (neg : Bool) (m : Nat) (e : Int) : Nat × Word :=
  let f := fmtOf t
  let r := roundNum f rm neg m e
  if f.maxCode < r.1 then (overflowCode f rm neg, flagOF ||| flagNX)
  else if ftz ∧ flushable t ∧ r.1 ≠ 0 ∧ r.1 < 2 ^ f.mw then (f.withSign neg 0, flagUF ||| flagNX)
  else (f.withSign neg r.1, flagIf r.2.1 flagNX ||| flagIf (r.2.1 && r.2.2) flagUF)

/-- A NaN quieted and converted to a format (R42). -/
def quietTo (t : Nat) (neg : Bool) (pay width : Nat) : Nat :=
  let f := fmtOf t
  if t = 10 then f.withSign neg (f.infCode + 2)
  else if f.special = 1 then f.withSign neg f.nanCode
  else
    let p := if width ≤ f.mw then pay * 2 ^ (f.mw - width) else pay / 2 ^ (width - f.mw)
    f.withSign neg (f.infCode + (p ||| 2 ^ (f.mw - 1)))

/-- A value is a signalling NaN. -/
def FV.signals : FV → Bool
  | .nan _ b _ _ => b
  | _ => false

/-- A value is a NaN. -/
def FV.isNan : FV → Bool
  | .nan _ _ _ _ => true
  | _ => false

/-- The NaN that propagates from operands in order, with its flag (R42). -/
def propagate (t : Nat) (l : List FV) : Option (Nat × Word) :=
  match l.find? FV.isNan with
  | some (.nan neg _ pay w) => some (quietTo t neg pay w, flagIf (l.any FV.signals) flagNV)
  | _ => none

/-- The default NaN of a format with NV. -/
def invalid (t : Nat) : Nat × Word := ((fmtOf t).nanCode, flagNV)

/-- The sign of an exact zero sum (R40). -/
def zeroSign (rm : Nat) (allNegZero : Bool) : Bool := allNegZero || rm == 2

/-- A term of an exact sum: a value whose NaN has been dealt with. -/
def FV.isZero : FV → Bool
  | .num _ m _ => m == 0
  | _ => false

/-- The sign of a value. -/
def FV.neg : FV → Bool
  | .nan n _ _ _ => n
  | .inf n => n
  | .num n _ _ => n

/-- The negated number; a NaN keeps its sign (R103). -/
def FV.opposite : FV → FV
  | .nan n s p w => .nan n s p w
  | .inf n => .inf (!n)
  | .num n m e => .num (!n) m e

/-- The least exponent of the nonzero numbers of a list. -/
def leastExp : List FV → Int → Int
  | [], a => a
  | .num _ m e :: t, a => leastExp t (if m ≠ 0 ∧ e < a then e else a)
  | _ :: t, a => leastExp t a

/-- The exact sum of the finite terms in units of 2^q. -/
def sumAt (q : Int) : List FV → Int
  | [] => 0
  | .num n m e :: t => (if n then -(m * 2 ^ (e - q).toNat : Int) else (m * 2 ^ (e - q).toNat : Int)) + sumAt q t
  | _ :: t => sumAt q t

/-- The first exponent of a nonzero number, as a start for `leastExp`. -/
def someExp : List FV → Int
  | [] => 0
  | .num _ m e :: t => if m ≠ 0 then e else someExp t
  | _ :: t => someExp t

/-- The product of two numbers that are not NaN; none for 0 × ∞ (R49, R103). -/
def product (a b : FV) : Option FV :=
  match a, b with
  | .num na ma ea, .num nb mb eb => some (.num (na != nb) (ma * mb) (ea + eb))
  | .inf na, .num nb mb _ => if mb = 0 then none else some (.inf (na != nb))
  | .num na ma _, .inf nb => if ma = 0 then none else some (.inf (na != nb))
  | .inf na, .inf nb => some (.inf (na != nb))
  | x, _ => some x

/-- Infinities of both signs are among the terms. -/
def infClash (l : List FV) : Bool := l.any (· == .inf true) && l.any (· == .inf false)

/-- The sum of terms without NaN, rounded once (R40, R49). -/
def sumRound (t rm : Nat) (ftz : Bool) (l : List FV) : Nat × Word :=
  if infClash l then invalid t
  else
    match l.find? fun (v : FV) => v == .inf true || v == .inf false with
    | some v => ((fmtOf t).withSign v.neg (fmtOf t).infCode, 0)
    | none =>
      let q := leastExp l (someExp l)
      let s := sumAt q l
      if s = 0 then ((fmtOf t).withSign (zeroSign rm (l.all fun (v : FV) => v.isZero && v.neg)) 0, 0)
      else deliver t rm ftz (decide (s < 0)) s.natAbs q

/-- A × B + C with one rounding (R48, R103). -/
def fmaBits (t rm : Nat) (ftz : Bool) (a b c : Nat) : Nat × Word :=
  let va := decodeFloat t ftz a
  let vb := decodeFloat t ftz b
  let vc := decodeFloat t ftz c
  match va.isNan || vb.isNan, product va vb with
  | false, none => invalid t
  | _, p =>
    match propagate t [va, vb, vc] with
    | some r => r
    | none => sumRound t rm ftz [p.getD vc, vc]

/-- A + B (R103). -/
def addBits (t rm : Nat) (ftz : Bool) (a b : Nat) : Nat × Word :=
  let va := decodeFloat t ftz a
  let vb := decodeFloat t ftz b
  match propagate t [va, vb] with
  | some r => r
  | none => sumRound t rm ftz [va, vb]

/-- A − B (R103). -/
def subBits (t rm : Nat) (ftz : Bool) (a b : Nat) : Nat × Word :=
  let va := decodeFloat t ftz a
  let vb := decodeFloat t ftz b
  match propagate t [va, vb] with
  | some r => r
  | none => sumRound t rm ftz [va, vb.opposite]

/-- An exact value that is not a NaN delivered in a format. -/
def deliverFV (t rm : Nat) (ftz : Bool) (v : FV) : Nat × Word :=
  match v with
  | .num n m e => deliver t rm ftz n m e
  | .inf n => ((fmtOf t).withSign n (fmtOf t).infCode, 0)
  | .nan n s p w => (quietTo t n p w, flagIf s flagNV)

/-- A × B (R103). -/
def mulBits (t rm : Nat) (ftz : Bool) (a b : Nat) : Nat × Word :=
  let va := decodeFloat t ftz a
  let vb := decodeFloat t ftz b
  match propagate t [va, vb] with
  | some r => r
  | none =>
    match product va vb with
    | none => invalid t
    | some p => deliverFV t rm ftz p

/-- Exact order of two values that are not NaN: −1, 0 or 1, with −0 equal to +0 (R99). -/
def cmpFV (a b : FV) : Int :=
  match a, b with
  | .inf n, .inf m => if n = m then 0 else if n then -1 else 1
  | .inf n, _ => if n then -1 else 1
  | _, .inf n => if n then 1 else -1
  | x, y =>
    let q := leastExp [x, y] (someExp [x, y])
    let d := sumAt q [x, y.opposite]
    if d < 0 then -1 else if d = 0 then 0 else 1

/-- FMIN and FMAX (R42, R103). -/
def minMaxBits (max : Bool) (t : Nat) (ftz : Bool) (a b : Nat) : Nat × Word :=
  let va := decodeFloat t ftz a
  let vb := decodeFloat t ftz b
  match va.isNan, vb.isNan with
  | true, true => (propagate t [va, vb]).getD (0, 0)
  | true, false => ((deliverFV t 0 false vb).1, flagIf va.signals flagNV)
  | false, true => ((deliverFV t 0 false va).1, flagIf vb.signals flagNV)
  | false, false =>
    let c := cmpFV va vb
    let pickA := if c = 0 then va.neg != max else (if max then 0 < c else c < 0)
    ((deliverFV t 0 false (if pickA then va else vb)).1, 0)

/-- Round to an integral value (R104): `mode` 0 to 3 as RM, 5 ties away. -/
def integralBits (t mode : Nat) (x ftz : Bool) (a : Nat) : Nat × Word :=
  let va := decodeFloat t ftz a
  match va with
  | .nan n s p w => (quietTo t n p w, flagIf s flagNV)
  | .inf n => ((fmtOf t).withSign n (fmtOf t).infCode, 0)
  | .num n m e =>
    let r := roundTo mode n m e 0
    if e < 0 then ((deliver t 0 false n r.1 0).1, flagIf (r.2 && x) flagNX) else ((deliver t 0 false n m e).1, 0)

/-- A × 2^k (R47, R105). -/
def scaleBits (t rm : Nat) (ftz : Bool) (a : Nat) (k : Int) : Nat × Word :=
  match decodeFloat t ftz a with
  | .nan n s p w => (quietTo t n p w, flagIf s flagNV)
  | .inf n => ((fmtOf t).withSign n (fmtOf t).infCode, 0)
  | .num n m e =>
    -- beyond every format's range a larger step changes nothing
    let k' := if k < -5000 then -5000 else if 5000 < k then 5000 else k
    if m = 0 then ((fmtOf t).withSign n 0, 0) else deliver t rm ftz n m (e + k')

/-- FCMP (R99): the outcome and the flags. -/
def compareBits (t cond : Nat) (ftz : Bool) (a b : Nat) : Bool × Word :=
  let va := decodeFloat t ftz a
  let vb := decodeFloat t ftz b
  let sig := va.signals || vb.signals
  if va.isNan || vb.isNan then
    (cond = 1 || cond = 6, flagIf (sig || (decide (2 ≤ cond) && decide (cond ≤ 5))) flagNV)
  else
    let c := cmpFV va vb
    (match cond with
     | 0 => c = 0
     | 1 => c ≠ 0
     | 2 => c < 0
     | 3 => c ≤ 0
     | 4 => 0 < c
     | 5 => 0 ≤ c
     | 6 => false
     | _ => true, 0)

/-- The class bit of a value as stored (R100). -/
def classOf (t a : Nat) : Nat :=
  match decodeFloat t false a with
  | .nan _ _ _ _ => 7
  | .inf n => if n then 0 else 6
  | .num n m _ =>
    if m = 0 then 3
    else if m < 2 ^ (fmtOf t).mw then (if n then 2 else 4)
    else if n then 1 else 5

/-- A quotient with a sticky last bit, to 66 bits or more. -/
def quotSticky (a b : Nat) (e : Int) : Nat × Int :=
  let k := 66 + bitLen b
  let n := a * 2 ^ k
  (2 * (n / b) + (if n % b = 0 then 0 else 1), e - k - 1)

/-- A ÷ B rounded once (R113, R115). -/
def divBits (t rm : Nat) (ftz : Bool) (a b : Nat) : Nat × Word :=
  let va := decodeFloat t ftz a
  let vb := decodeFloat t ftz b
  let f := fmtOf t
  match propagate t [va, vb] with
  | some r => r
  | none =>
    match va, vb with
    | .num na ma ea, .num nb mb eb =>
      if mb = 0 then (if ma = 0 then invalid t else (f.withSign (na != nb) f.infCode, flagDZ))
      else if ma = 0 then (f.withSign (na != nb) 0, 0)
      else
        let q := quotSticky ma mb (ea - eb)
        deliver t rm ftz (na != nb) q.1 q.2
    | .inf na, .num nb _ _ => (f.withSign (na != nb) f.infCode, 0)
    | .num na _ _, .inf nb => (f.withSign (na != nb) 0, 0)
    | _, _ => invalid t

/-- The largest r with r² ≤ n, bit by bit: `k` bits remain below `r`. -/
def sqrtFrom : Nat → Nat → Nat → Nat
  | 0, _, r => r
  | k + 1, n, r =>
    let c := r + 2 ^ k
    sqrtFrom k n (if c * c ≤ n then c else r)

/-- The integer square root. -/
def isqrt (n : Nat) : Nat := sqrtFrom (bitLen n / 2 + 1) n 0

/-- √A rounded once (R113, R115). -/
def sqrtBits (t rm : Nat) (ftz : Bool) (a : Nat) : Nat × Word :=
  let f := fmtOf t
  match decodeFloat t ftz a with
  | .nan n s p w => (quietTo t n p w, flagIf s flagNV)
  | .inf n => if n then invalid t else (f.infCode, 0)
  | .num n m e =>
    if m = 0 then (f.withSign n 0, 0)
    else if n then invalid t
    else
      let m1 := if e % 2 = 0 then m else 2 * m
      let e1 := if e % 2 = 0 then e else e - 1
      let x := m1 * 2 ^ 128
      let r := isqrt x
      deliver t rm ftz false (2 * r + (if r * r = x then 0 else 1)) (e1 / 2 - 65)

/-- The T codes of integers: width and signedness (R34). -/
def intSigned (t : Nat) : Bool := t = 0 ∨ t = 5 ∨ t = 7 ∨ t = 11

/-- The width in bits of one element of a T code (R36). -/
def typeWidth (t : Nat) : Nat := if t = 14 then 64 else elemWidth t

/-- An integer element's value. -/
def intOf (t v : Nat) : Int :=
  let w := typeWidth t
  let u := v % 2 ^ w
  if intSigned t && decide (2 ^ (w - 1) ≤ u) then (u : Int) - 2 ^ w else u

/-- The least and greatest value of an integer type. Log 68 (DEDUCED). -/
def intMin (t : Nat) : Int := if intSigned t then -(2 ^ (typeWidth t - 1) : Int) else 0
def intMax (t : Nat) : Int := if intSigned t then (2 ^ (typeWidth t - 1) : Int) - 1 else (2 ^ typeWidth t : Int) - 1

/-- An integer in an element's bits. -/
def intBits (t : Nat) (i : Int) : Nat := (i % (2 ^ typeWidth t : Int)).toNat

/-- The limit of an integer target on the source's side, by policy (R43); none under TRAP. Log 68 (DEDUCED). -/
def intLimit (t pol : Nat) (low : Bool) (extra : Word) : Option (Nat × Word) :=
  if pol = 3 then none
  else some (intBits t (if low then intMin t else intMax t), extra ||| flagIf (decide (pol = 1 ∨ pol = 2)) flagSV)

/-- Delivery of an exact value to an integer target (R43, R44); `fromInt` sources set no flag other than SV (R45). A value is out of range
beyond the limit on its own side, so that the least value of a signed target is in range. Log 68 (DEDUCED). -/
def toInteger (t rm pol : Nat) (fromInt : Bool) (neg : Bool) (m : Nat) (e : Int) : Option (Nat × Word) :=
  let r := roundTo rm neg m e 0
  let v : Int := if neg then -(r.1 : Int) else r.1
  if v < intMin t then intLimit t pol true (flagIf (!fromInt) flagNV)
  else if intMax t < v then intLimit t pol false (flagIf (!fromInt) flagNV)
  else some (intBits t v, flagIf r.2 flagNX)

/-- The out-of-range result of a floating-point target, by policy (R43); none under TRAP. -/
def floatLimit (t pol : Nat) (neg : Bool) : Option (Nat × Word) :=
  let f := fmtOf t
  let fl := flagOF ||| flagNX
  if pol = 3 then none
  else if pol = 0 then some (f.withSign neg f.maxCode, fl)
  else if f.special = 2 then some (f.withSign neg f.maxCode, fl ||| flagSV)
  else if f.special = 1 then some (f.withSign neg f.nanCode, fl)
  else some (f.withSign neg (if pol = 1 then f.infCode else f.nanCode), fl)

/-- Delivery of an exact value to a floating-point target with a policy (R41, R43). -/
def toFloat (t rm pol : Nat) (ftz : Bool) (neg : Bool) (m : Nat) (e : Int) : Option (Nat × Word) :=
  if (fmtOf t).maxCode < (roundNum (fmtOf t) rm neg m e).1 then floatLimit t pol neg else some (deliver t rm ftz neg m e)

/-- Delivery of an exact number to any target (R43 to R45). -/
def toType (t rm pol : Nat) (ftz fromInt : Bool) (neg : Bool) (m : Nat) (e : Int) : Option (Nat × Word) :=
  if isFloat t then toFloat t rm pol ftz neg m e else toInteger t rm pol fromInt neg m e

/-- The conversion of one element (R43 to R46): none where it is out of range under TRAP. -/
def convert (st t rm pol : Nat) (ftz : Bool) (v : Nat) : Option (Nat × Word) :=
  if isFloat st then
    match decodeFloat st ftz v with
    | .num n m e => if m = 0 then some (if isFloat t then (fmtOf t).withSign n 0 else 0, 0) else toType t rm pol ftz false n m e
    | .inf n =>
      if !isFloat t then intLimit t pol n flagNV
      else if (fmtOf t).special = 0 then some ((fmtOf t).withSign n (fmtOf t).infCode, 0)
      else floatLimit t pol n
    | .nan n s p w =>
      if isFloat t && decide ((fmtOf t).special ≠ 2) then some (quietTo t n p w, flagIf s flagNV)
      else if pol = 3 then none
      else some (0, flagNV)
  else
    let i := intOf st v
    toType t rm pol ftz true (decide (i < 0)) i.natAbs 0

/-- x × 2^e delivered in a target (R45, R47): the scaled conversions of TQNT and ACCST, which ignore FTZ. -/
def convertScaled (st t rm pol : Nat) (ex : Int) (v : Nat) : Option (Nat × Word) :=
  if isFloat st then
    match decodeFloat st false v with
    | .num n m e => if m = 0 then some (if isFloat t then (fmtOf t).withSign n 0 else 0, 0) else toType t rm pol false false n m (e + ex)
    | _ => convert st t rm pol false v
  else
    let i := intOf st v
    if i = 0 then some (0, 0)
    else toType t rm pol false true (decide (i < 0)) i.natAbs ex

/-- The exact products of two lists of elements and an accumulator, rounded once (R49): the clashes first, then a NaN in operand order.
Log 67 (DEDUCED). -/
def dotRound (ta tb tc rm : Nat) (ftz : Bool) (order : List FV) (a b : List Nat) (c : Option FV) : Nat × Word :=
  let va := a.map (decodeFloat ta ftz)
  let vb := b.map (decodeFloat tb ftz)
  let prods := (va.zip vb).map fun (x : FV × FV) => if x.1.isNan || x.2.isNan then none else some (product x.1 x.2)
  if prods.any (· == some none) then invalid tc
  else
    let terms := (prods.filterMap fun (x : Option (Option FV)) => x.bind id) ++ c.toList.filter fun (v : FV) => !v.isNan
    if infClash terms then invalid tc
    else
      match propagate tc order with
      | some r => r
      | none => sumRound tc rm ftz terms

/-- Elements of a type applied one by one: results packed, flags ORed (R36, R83). -/
def perElem (t : Nat) (f : Nat → Nat × Word) (x : DWord) : DWord × Word :=
  if t = 14 then let r := f x.toNat; (BitVec.ofNat 64 r.1, r.2)
  else
    let w := elemWidth t
    let l := (elems w (32 / w) (x.setWidth 32)).map f
    ((packElems w (l.map (·.1))).setWidth 64, l.foldl (fun acc r => acc ||| r.2) 0)

/-- As `perElem` for two sources. -/
def perElem2 (t : Nat) (f : Nat → Nat → Nat × Word) (x y : DWord) : DWord × Word :=
  if t = 14 then let r := f x.toNat y.toNat; (BitVec.ofNat 64 r.1, r.2)
  else
    let w := elemWidth t
    let l := ((elems w (32 / w) (x.setWidth 32)).zip (elems w (32 / w) (y.setWidth 32))).map fun (p : Nat × Nat) => f p.1 p.2
    ((packElems w (l.map (·.1))).setWidth 64, l.foldl (fun acc r => acc ||| r.2) 0)

/-- As `perElem` for three sources. -/
def perElem3 (t : Nat) (f : Nat → Nat → Nat → Nat × Word) (x y z : DWord) : DWord × Word :=
  if t = 14 then let r := f x.toNat y.toNat z.toNat; (BitVec.ofNat 64 r.1, r.2)
  else
    let w := elemWidth t
    let l := (((elems w (32 / w) (x.setWidth 32)).zip (elems w (32 / w) (y.setWidth 32))).zip (elems w (32 / w) (z.setWidth 32))).map
      fun (p : (Nat × Nat) × Nat) => f p.1.1 p.1.2 p.2
    ((packElems w (l.map (·.1))).setWidth 64, l.foldl (fun acc r => acc ||| r.2) 0)

end Sys2Proof.Machine
end

