-- ==== Sys2Proof/Machine/Ialu.lean ====
section
/-! DEFINITION. IALU, IMISC, IIMM, LIH (R89 to R97): integer arithmetic, shifts, bit fields, immediates. The operations on register words
stand apart from the instructions so that pair slots (R116) use the same ones. -/

namespace Sys2Proof.Machine

/-- An operation on each element of a word. -/
def mapEl (t : Nat) (f : Nat → Nat) (x : Word) : Word :=
  packElems (elemWidth t) ((elems (elemWidth t) (32 / elemWidth t) x).map f)

/-- An operation on the elements of two words (R83). -/
def mapEl2 (t : Nat) (f : Nat → Nat → Nat) (x y : Word) : Word :=
  packElems (elemWidth t) (List.zipWith f (elems (elemWidth t) (32 / elemWidth t) x) (elems (elemWidth t) (32 / elemWidth t) y))

/-- ADD (R89). -/
def opAdd (t : Nat) (x y : Word) : Word := mapEl2 t (fun a b => a + b) x y
/-- SUB (R89). -/
def opSub (t : Nat) (x y : Word) : Word := mapEl2 t (fun a b => a + (2 ^ elemWidth t - b)) x y
/-- MUL (R89). -/
def opMul (t : Nat) (x y : Word) : Word := mapEl2 t (fun a b => a * b) x y
/-- MULH (R89). -/
def opMulh (t : Nat) (x y : Word) : Word := mapEl2 t (fun a b => intBits t (intOf t a * intOf t b / 2 ^ elemWidth t)) x y
/-- MULHU (R89). -/
def opMulhu (t : Nat) (x y : Word) : Word := mapEl2 t (fun a b => a * b / 2 ^ elemWidth t) x y
/-- SHL (R89): the amount modulo the width. -/
def opShl (t : Nat) (x y : Word) : Word := mapEl2 t (fun a b => a * 2 ^ (b % elemWidth t)) x y
/-- SHR (R89). -/
def opShr (t : Nat) (x y : Word) : Word := mapEl2 t (fun a b => a / 2 ^ (b % elemWidth t)) x y
/-- A value of `w` bits read signed. -/
def signedOf (w v : Nat) : Int := if 2 ^ (w - 1) ≤ v % 2 ^ w then (v % 2 ^ w : Int) - 2 ^ w else (v % 2 ^ w : Int)
/-- SAR (R89): the sign bit in, whether T is signed or not. -/
def opSar (t : Nat) (x y : Word) : Word :=
  mapEl2 t (fun a b => (signedOf (elemWidth t) a / 2 ^ (b % elemWidth t) % 2 ^ elemWidth t).toNat) x y
/-- ROT (R89): left by B[4:0]. -/
def opRot (x y : Word) : Word := x.rotateLeft (y.toNat % 32)
/-- MIN (R91). -/
def opMin (t : Nat) (x y : Word) : Word := mapEl2 t (fun a b => if intOf t a ≤ intOf t b then a else b) x y
/-- MAX (R91). -/
def opMax (t : Nat) (x y : Word) : Word := mapEl2 t (fun a b => if intOf t a ≤ intOf t b then b else a) x y
/-- ABS (R91). -/
def opAbs (t : Nat) (x : Word) : Word := mapEl t (fun a => (signedOf (elemWidth t) a).natAbs) x
/-- Leading zero bits (R91). -/
def opClz (x : Word) : Word := BitVec.ofNat 32 (32 - bitLen x.toNat)
/-- One bits (R91). -/
def opPopc (x : Word) : Word := BitVec.ofNat 32 ((List.range 32).filter fun k => x.getLsbD k).length
/-- Bits of a `w`-bit value in reverse order (R91, R95). -/
def revBits (w v : Nat) : Nat := (List.range w).foldl (fun acc k => 2 * acc + v / 2 ^ k % 2) 0
/-- BREV (R91). -/
def opBrev (x : Word) : Word := BitVec.ofNat 32 (revBits 32 x.toNat)

/-- Signed and unsigned division with the fixed cases of R54. -/
def opDiv (t : Nat) (x y : Word) : Word :=
  if t = 0 then (if y = 0 then 0xFFFFFFFF#32 else x.sdiv y)
  else if y = 0 then 0xFFFFFFFF#32 else x / y
/-- Remainder with the dividend's sign (R54). -/
def opRem (t : Nat) (x y : Word) : Word :=
  if y = 0 then x else if t = 0 then x.srem y else x % y

/-- The position and length of a bit field (R92). -/
def fieldPos (b : Word) : Nat := min (b.toNat % 256) 32
def fieldLen (b c : Word) : Nat := min (c.toNat % 256) (32 - fieldPos b)
/-- BFX (R92). -/
def opBfx (t : Nat) (a b c : Word) : Word :=
  let n := fieldLen b c
  if n = 0 then 0
  else
    let f := a.toNat / 2 ^ fieldPos b % 2 ^ n
    if t = 0 then BitVec.ofInt 32 (signedOf n f) else BitVec.ofNat 32 f
/-- BFI (R92). -/
def opBfi (d a b c : Word) : Word :=
  let p := fieldPos b
  let n := fieldLen b c
  let m := BitVec.ofNat 32 ((2 ^ n - 1) * 2 ^ p)
  (d &&& ~~~m) ||| (BitVec.ofNat 32 (a.toNat % 2 ^ n * 2 ^ p))

/-- LOP3 (R94): the exclusive-or of the products that the byte names. -/
def opLop3 (f : Nat) (d a b : Word) : Word :=
  let term := fun (k : Nat) (v : Word) => if f.testBit k then v else 0
  term 0 0xFFFFFFFF#32 ^^^ term 1 a ^^^ term 2 b ^^^ term 3 (a &&& b) ^^^ term 4 d ^^^ term 5 (a &&& d) ^^^ term 6 (b &&& d)
    ^^^ term 7 (a &&& b &&& d)

/-- One result byte of PRMT (R95). -/
def prmtByte (a b : Word) (s : Nat) : Nat :=
  let src := (a.toNat + b.toNat * 2 ^ 32) / 2 ^ (8 * (s % 8)) % 256
  if s / 8 % 2 = 1 then 0
  else match s / 16 % 4 with
    | 0 => src
    | 1 => if 128 ≤ src then 255 else 0
    | 2 => revBits 8 src
    | _ => 255 - src
/-- PRMT (R95). -/
def opPrmt (a b c : Word) : Word := packElems 8 ((elems 8 4 c).map (prmtByte a b))

/-- SAD (R91). -/
def opSad (t : Nat) (a b c : Word) : Word :=
  let w := elemWidth t
  let d := List.zipWith (fun x y => (intOf t x - intOf t y).natAbs) (elems w (32 / w) a) (elems w (32 / w) b)
  c + BitVec.ofNat 32 d.sum

/-- The control byte of a TRI word (R64). -/
def ctlByte (o : Tri) : Nat := o.c.num % 256

/-- A word with two sources of its type and one result. -/
def word2 (h : Guard) (o : Tri) (f : Nat → Word → Word → Word) (s : State) : Result :=
  .next (computeOk h (fun e => wrReg o.d (f o.t.toNat (src e o.a o.t.toNat) (src e o.b o.t.toNat))) s)

/-- A word with one source of its type and one result. -/
def word1 (h : Guard) (o : Tri) (f : Nat → Word → Word) (s : State) : Result :=
  .next (computeOk h (fun e => wrReg o.d (f o.t.toNat (src e o.a o.t.toNat))) s)

/-- An immediate word: A and the sign-extended IMM12 (R96). -/
def wordImm (h : Guard) (o : I12) (f : Word → Word → Word) (s : State) : Result :=
  .next (computeOk h (fun e => wrReg o.d (f (src e o.a 0) (o.imm.signExtend 32))) s)

/-- ADD (R89). -/
def execAdd (h : Guard) (o : Tri) (s : State) : Result := word2 h o opAdd s
/-- SUB (R89). -/
def execSub (h : Guard) (o : Tri) (s : State) : Result := word2 h o opSub s
/-- MUL (R89). -/
def execMul (h : Guard) (o : Tri) (s : State) : Result := word2 h o opMul s
/-- MULH (R89). -/
def execMulh (h : Guard) (o : Tri) (s : State) : Result := word2 h o opMulh s
/-- MULHU (R89). -/
def execMulhu (h : Guard) (o : Tri) (s : State) : Result := word2 h o opMulhu s
/-- MAD (R89). -/
def execMad (h : Guard) (o : Tri) (s : State) : Result :=
  .next (computeOk h (fun e =>
    let t := o.t.toNat
    wrReg o.d (opAdd t (opMul t (src e o.a t) (src e o.b t)) (src e o.c t))) s)
/-- AND (R89). -/
def execAnd (h : Guard) (o : Tri) (s : State) : Result := word2 h o (fun _ a b => a &&& b) s
/-- OR (R89). -/
def execOr (h : Guard) (o : Tri) (s : State) : Result := word2 h o (fun _ a b => a ||| b) s
/-- XOR (R89). -/
def execXor (h : Guard) (o : Tri) (s : State) : Result := word2 h o (fun _ a b => a ^^^ b) s
/-- ANDN (R89). -/
def execAndn (h : Guard) (o : Tri) (s : State) : Result := word2 h o (fun _ a b => a &&& ~~~b) s
/-- ORN (R89). -/
def execOrn (h : Guard) (o : Tri) (s : State) : Result := word2 h o (fun _ a b => a ||| ~~~b) s
/-- SHL (R89). -/
def execShl (h : Guard) (o : Tri) (s : State) : Result := word2 h o opShl s
/-- SHR (R89). -/
def execShr (h : Guard) (o : Tri) (s : State) : Result := word2 h o opShr s
/-- SAR (R89). -/
def execSar (h : Guard) (o : Tri) (s : State) : Result := word2 h o opSar s
/-- ROT (R89). -/
def execRot (h : Guard) (o : Tri) (s : State) : Result := word2 h o (fun _ a b => opRot a b) s
/-- SEL (R90): A where the predicate, inverted by N, is true. -/
def execSel (h : Guard) (o : Tri) (s : State) : Result :=
  .next (computeOk h (fun e =>
    let c := ctlByte o
    let take := pReg e.th (c % 64) != decide (128 ≤ c)
    wrT o.d o.t.toNat (srcT e (if take then o.a else o.b) o.t.toNat)) s)

/-- MIN (R91). -/
def execMin (h : Guard) (o : Tri) (s : State) : Result := word2 h o opMin s
/-- MAX (R91). -/
def execMax (h : Guard) (o : Tri) (s : State) : Result := word2 h o opMax s
/-- ABS (R91). -/
def execAbs (h : Guard) (o : Tri) (s : State) : Result := word1 h o opAbs s
/-- CLZ (R91). -/
def execClz (h : Guard) (o : Tri) (s : State) : Result := word1 h o (fun _ a => opClz a) s
/-- POPC (R91). -/
def execPopc (h : Guard) (o : Tri) (s : State) : Result := word1 h o (fun _ a => opPopc a) s
/-- BREV (R91). -/
def execBrev (h : Guard) (o : Tri) (s : State) : Result := word1 h o (fun _ a => opBrev a) s
/-- BFX (R92): B and C are bit patterns of 32 bits (R62). -/
def execBfx (h : Guard) (o : Tri) (s : State) : Result :=
  .next (computeOk h (fun e => wrReg o.d (opBfx o.t.toNat (src e o.a o.t.toNat) (src e o.b 0) (src e o.c 0))) s)
/-- BFI (R92): the destination is read. -/
def execBfi (h : Guard) (o : Tri) (s : State) : Result :=
  .next (computeOk h (fun e => wrReg o.d (opBfi (readCode e o.d.toNat) (src e o.a 0) (src e o.b 0) (src e o.c 0))) s)
/-- DIV (R54, R91). -/
def execDiv (h : Guard) (o : Tri) (s : State) : Result := word2 h o opDiv s
/-- REM (R54, R91). -/
def execRem (h : Guard) (o : Tri) (s : State) : Result := word2 h o opRem s
/-- ADDC (R93): the predicate is carry in and carry out. -/
def execAddc (h : Guard) (o : Tri) (s : State) : Result :=
  .next (computeOk h (fun e =>
    let n := ctlByte o % 64
    let v := (src e o.a 1).toNat + (src e o.b 1).toNat + (if pReg e.th n then 1 else 0)
    wrBoth (wrReg o.d (BitVec.ofNat 32 v)) (wrPred n (decide (2 ^ 32 ≤ v)))) s)
/-- SUBB (R93): the predicate is borrow in and borrow out. -/
def execSubb (h : Guard) (o : Tri) (s : State) : Result :=
  .next (computeOk h (fun e =>
    let n := ctlByte o % 64
    let v : Int := ((src e o.a 1).toNat : Int) - (src e o.b 1).toNat - (if pReg e.th n then 1 else 0)
    wrBoth (wrReg o.d (BitVec.ofInt 32 v)) (wrPred n (decide (v < 0)))) s)
/-- LOP3 (R94): the destination is read. -/
def execLop3 (h : Guard) (o : Tri) (s : State) : Result :=
  .next (computeOk h (fun e => wrReg o.d (opLop3 (ctlByte o) (readCode e o.d.toNat) (src e o.a 0) (src e o.b 0))) s)
/-- PRMT (R95). -/
def execPrmt (h : Guard) (o : Tri) (s : State) : Result :=
  .next (computeOk h (fun e => wrReg o.d (opPrmt (src e o.a 0) (src e o.b 0) (src e o.c 0))) s)
/-- MOV (R91). -/
def execMov (h : Guard) (o : Tri) (s : State) : Result :=
  .next (computeOk h (fun e => wrT o.d o.t.toNat (srcT e o.a o.t.toNat)) s)
/-- SAD (R91): C is read as I32 (R62). -/
def execSad (h : Guard) (o : Tri) (s : State) : Result :=
  .next (computeOk h (fun e => wrReg o.d (opSad o.t.toNat (src e o.a o.t.toNat) (src e o.b o.t.toNat) (src e o.c 0))) s)

/-- ADDI (R96). -/
def execAddi (h : Guard) (o : I12) (s : State) : Result := wordImm h o (fun a v => a + v) s
/-- ANDI (R96). -/
def execAndi (h : Guard) (o : I12) (s : State) : Result := wordImm h o (fun a v => a &&& v) s
/-- ORI (R96). -/
def execOri (h : Guard) (o : I12) (s : State) : Result := wordImm h o (fun a v => a ||| v) s
/-- XORI (R96). -/
def execXori (h : Guard) (o : I12) (s : State) : Result := wordImm h o (fun a v => a ^^^ v) s
/-- SHLI (R96). -/
def execShli (h : Guard) (o : I12) (s : State) : Result := wordImm h o (opShl 0) s
/-- SHRI (R96). -/
def execShri (h : Guard) (o : I12) (s : State) : Result := wordImm h o (opShr 0) s
/-- SARI (R96). -/
def execSari (h : Guard) (o : I12) (s : State) : Result := wordImm h o (opSar 0) s
/-- MULI (R96). -/
def execMuli (h : Guard) (o : I12) (s : State) : Result := wordImm h o (fun a v => a * v) s

/-- LIH (R97). -/
def execLih (h : Guard) (o : I20) (s : State) : Result :=
  .next (computeOk h (fun _ => wrReg o.d (o.imm ++ 0#12)) s)

end Sys2Proof.Machine
end

