-- ==== Sys2Proof/Machine/Sfu.lean ====
section
/-! DEFINITION. The faithfully rounded special functions (R114, R115). The exact value is bracketed by series in exact arithmetic; the
result is the neighbour that `Config.sfuUpper` names, except where R114 and R115 fix it. -/

namespace Sys2Proof.Machine

/-- Bits of the fixed-point arithmetic of this file. -/
def sfuBits : Nat := 320

/-- ⌊ln 2 × 2^352⌋ and ⌊π × 2^352⌋. -/
def ln2Fix : Nat := 0xb17217f7d1cf79abc9e3b39803f2f6af40f343267298b62d8a0d175b8baafa2be7b876206debac98559552fb
def piFix : Nat := 0x3243f6a8885a308d313198a2e03707344a4093822299f31d0082efa98ec4e6c89452821e638d01377be5466cf

/-- A faithful result of a value strictly between two representable ones, given with its last bit set (R114): overflow and tininess are
decided as under RNE; otherwise `up` picks the neighbour above. Log 11 (DEDUCED). -/
def faithful (t : Nat) (ftz up : Bool) (neg : Bool) (m : Nat) (e : Int) : Nat × Word :=
  let f := fmtOf t
  let near := roundNum f 0 neg m e
  if f.maxCode < near.1 then (f.withSign neg f.infCode, flagOF ||| flagNX)
  else
    let down := (roundNum f 1 neg m e).1
    -- the magnitude grows where the neighbour lies on the far side of zero
    let code := if f.maxCode < down + 1 then f.maxCode else if up != neg then down + 1 else down
    let fl := flagNX ||| flagIf near.2.2 flagUF
    if ftz && flushable t && decide (code ≠ 0) && decide (code < 2 ^ f.mw) then (f.withSign neg 0, flagUF ||| flagNX)
    else (f.withSign neg code, fl)

/-- Σ over `n` terms of a series in fixed point: each term from the one before by a step. -/
def series (step : Nat → Nat → Nat) : Nat → Nat → Nat → Nat
  | 0, _, _ => 0
  | n + 1, k, term => term + series step n (k + 1) (step k term)

/-- e^x − 1 over 2^p for x = `x` / 2^p in [0, 1), with `p` bits. -/
def expm1Fix (p x : Nat) : Nat := series (fun k term => term * x / 2 ^ p / (k + 1)) 80 1 x

/-- sin z over 2^p for z = `z` / 2^p in [0, 2). -/
def sinFix (p z : Nat) : Nat :=
  let step := fun k t => t * z / 2 ^ p * z / 2 ^ p / ((2 * k + 2) * (2 * k + 3))
  let ev := (List.range 48).foldl (fun (a : Nat × Nat × Nat) k => (if k % 2 = 0 then a.1 + a.2.2 else a.1, if k % 2 = 1 then a.2.1 + a.2.2 else a.2.1, step k a.2.2)) (0, 0, z)
  ev.1 - ev.2.1

/-- cos z over 2^p for z = `z` / 2^p in [0, 2). -/
def cosFix (p z : Nat) : Nat :=
  let step := fun k t => t * z / 2 ^ p * z / 2 ^ p / ((2 * k + 1) * (2 * k + 2))
  let ev := (List.range 48).foldl (fun (a : Nat × Nat × Nat) k => (if k % 2 = 0 then a.1 + a.2.2 else a.1, if k % 2 = 1 then a.2.1 + a.2.2 else a.2.1, step k a.2.2)) (0, 0, 2 ^ p)
  ev.1 - ev.2.1

/-- atanh (n / d) over 2^p. -/
def atanhFix (p n d : Nat) : Nat :=
  let t := n * 2 ^ p / d
  let t2 := t * t / 2 ^ p
  let r := (List.range 120).foldl (fun (a : Nat × Nat) k => (a.1 + a.2 / (2 * k + 1), a.2 * t2 / 2 ^ p)) (0, t)
  r.1

/-- m × 2^e as an integer multiple of 2^−p, rounded down. -/
def toFix (p m : Nat) (e : Int) : Nat := if -(p : Int) ≤ e then m * 2 ^ (e + p).toNat else m / 2 ^ (-(e + p)).toNat

/-- An approximation `y` over 2^p with its guard bits dropped, kept between bounds, and its sticky bit set. -/
def jammed (guard : Nat) (lo hi y : Nat) : Nat := 2 * (max lo (min hi (y / 2 ^ guard))) + 1

/-- 2^x for a number that is no integer (R114). -/
def exp2Value (neg : Bool) (m : Nat) (e : Int) : Nat × Int :=
  let p := sfuBits
  let g := p + 32
  -- x = n + f with f in (0, 1)
  let a := toFix g m e
  let (n, f) := if neg then
      (-(a / 2 ^ g : Int) - 1, 2 ^ g - a % 2 ^ g)
    else ((a / 2 ^ g : Int), a % 2 ^ g)
  let y := 2 ^ g + expm1Fix g (f * ln2Fix / 2 ^ 352)
  (jammed 32 (2 ^ p) (2 ^ (p + 1) - 1) y, n - p - 1)

/-- FEXP2 (R114, R115). -/
def exp2Bits (t : Nat) (ftz : Bool) (a : Nat) : Nat × Word :=
  let f := fmtOf t
  match decodeFloat t ftz a with
  | .nan n s p w => (quietTo t n p w, flagIf s flagNV)
  | .inf n => (if n then 0 else f.infCode, 0)
  | .num n m e =>
    if m = 0 then ((deliver t 0 false false 1 0).1, 0)
    else if 0 ≤ e ∨ m % 2 ^ (-e).toNat = 0 then
      -- an integer: 2^n exactly where it is in range
      let i : Nat := min 2000 (if 0 ≤ e then m * 2 ^ (min e 4000).toNat else m / 2 ^ (-e).toNat)
      let k : Int := if n then -(i : Int) else i
      if (roundNum f 0 false 1 k).2.1 then faithful t ftz (Config.sfuUpper 3 t (BitVec.ofNat 64 a)) false 1 k
      else deliver t 0 ftz false 1 k
    else if 2000 ≤ toFix 0 m e then
      (if n then faithful t ftz (Config.sfuUpper 3 t (BitVec.ofNat 64 a)) false 1 (-2000) else deliver t 0 ftz false 1 2000)
    else
      let y := exp2Value n m e
      faithful t ftz (Config.sfuUpper 3 t (BitVec.ofNat 64 a)) false y.1 y.2

/-- log2 of a positive number that is no power of two: sign, magnitude with a sticky bit, exponent. -/
def log2Value (m : Nat) (e : Int) : Bool × Nat × Int :=
  let p := sfuBits
  let g := p + 32
  let k := bitLen m - 1
  -- m·2^e = 2^n · (u / 2^k) with u / 2^k in [3/4, 3/2)
  let hi := decide (3 * 2 ^ k ≤ 2 * m)
  let n : Int := e + k + (if hi then 1 else 0)
  let d := 2 ^ (k + (if hi then 1 else 0))
  let lnAbs := 2 * atanhFix g (if hi then d - m else m - d) (m + d)
  let l : Int := (lnAbs * 2 ^ 352 / ln2Fix : Nat)
  let v : Int := n * 2 ^ g + (if hi then -l else l)
  (decide (v < 0), 2 * (v.natAbs / 2 ^ 32) + 1, -(p : Int) - 1)

/-- FLOG2 (R114, R115). -/
def flog2Bits (t : Nat) (ftz : Bool) (a : Nat) : Nat × Word :=
  let f := fmtOf t
  match decodeFloat t ftz a with
  | .nan n s p w => (quietTo t n p w, flagIf s flagNV)
  | .inf n => if n then invalid t else (f.infCode, 0)
  | .num n m e =>
    if m = 0 then (f.withSign true f.infCode, flagDZ)
    else if n then invalid t
    else
      let k := bitLen m - 1
      if m = 2 ^ k then
        let i := e + k
        ((deliver t 0 false (decide (i < 0)) i.natAbs 0).1, 0)
      else
        let y := log2Value m e
        faithful t ftz (Config.sfuUpper 4 t (BitVec.ofNat 64 a)) y.1 y.2.1 y.2.2

/-- FRSQ (R114, R115). -/
def frsqBits (t : Nat) (ftz : Bool) (a : Nat) : Nat × Word :=
  let f := fmtOf t
  match decodeFloat t ftz a with
  | .nan n s p w => (quietTo t n p w, flagIf s flagNV)
  | .inf n => if n then invalid t else (0, 0)
  | .num n m e =>
    if m = 0 then (f.withSign n f.infCode, flagDZ)
    else if n then invalid t
    else
      let m1 := if e % 2 = 0 then m else 2 * m
      let e1 := if e % 2 = 0 then e else e - 1
      let x := 2 ^ 256 / m1
      let r := isqrt x
      if r * r * m1 = 2 ^ 256 then deliver t 0 ftz false r (-128 - e1 / 2)
      else faithful t ftz (Config.sfuUpper 1 t (BitVec.ofNat 64 a)) false (2 * r + 1) (-129 - e1 / 2)

/-- The argument of FSIN and FCOS reduced to one turn of two half-turns, as a multiple of 2^−160. -/
def halfTurns (m : Nat) (e : Int) : Nat := toFix 160 m (if 200 < e then 200 else e) % 2 ^ 161

/-- sin(π x) for x in (0, 1/2), as a multiple of 2^−160, in sticky form. -/
def sinPi (x : Nat) : Nat × Int :=
  if x < 2 ^ 120 then (2 * (x * piFix) + 1, -160 - 352 - 1)
  else
    let g := sfuBits + 32
    let z := x * 2 ^ (g - 160) * piFix / 2 ^ 352
    (jammed 32 1 (2 ^ sfuBits - 1) (sinFix g z), -(sfuBits : Int) - 1)

/-- cos(π x) for x in (0, 1/2), as a multiple of 2^−160, in sticky form. -/
def cosPi (x : Nat) : Nat × Int :=
  let h := 2 ^ 159
  if h < 2 * x then sinPi (h - x)
  else
    let g := sfuBits + 32
    let z := x * 2 ^ (g - 160) * piFix / 2 ^ 352
    (jammed 32 1 (2 ^ sfuBits - 1) (cosFix g z), -(sfuBits : Int) - 1)

/-- FSIN (R114, R115): the argument in half-turns. -/
def fsinBits (t : Nat) (ftz : Bool) (a : Nat) : Nat × Word :=
  let f := fmtOf t
  match decodeFloat t ftz a with
  | .nan n s p w => (quietTo t n p w, flagIf s flagNV)
  | .inf _ => invalid t
  | .num n m e =>
    let one := 2 ^ 160
    let x := halfTurns m e
    let neg := n != decide (one ≤ x)
    let y := x % one
    if y = 0 then (f.withSign n 0, 0)
    else
      let z := if one < 2 * y then one - y else y
      if 2 * z = one then ((deliver t 0 false neg 1 0).1, 0)
      else
        let v := if z * 4 ≤ one then sinPi z else cosPi (one / 2 - z)
        faithful t ftz (Config.sfuUpper 5 t (BitVec.ofNat 64 a)) neg v.1 v.2

/-- FCOS (R114, R115). -/
def fcosBits (t : Nat) (ftz : Bool) (a : Nat) : Nat × Word :=
  match decodeFloat t ftz a with
  | .nan n s p w => (quietTo t n p w, flagIf s flagNV)
  | .inf _ => invalid t
  | .num _ m e =>
    let one := 2 ^ 160
    let x := halfTurns m e
    let y := if one < x then 2 * one - x else x
    let neg := decide (one < 2 * y)
    let z := if neg then one - y else y
    if 2 * z = one then (0, 0)
    else if z = 0 then ((deliver t 0 false neg 1 0).1, 0)
    else
      let v := cosPi z
      faithful t ftz (Config.sfuUpper 6 t (BitVec.ofNat 64 a)) neg v.1 v.2

/-- tanh of a positive number, in sticky form. -/
def tanhValue (m : Nat) (e : Int) : Nat × Int :=
  let top := e + bitLen m
  if top < -40 then
    -- between x − x³ ÷ 3 and x
    (2 * (m * 2 ^ 64 - 1) + 1, e - 65)
  else if 7 < top then (2 * (2 ^ sfuBits - 1) + 1, -(sfuBits : Int) - 1)
  else
    let g := sfuBits + 32
    -- u = 2x; e^u = 2^n · e^r with r in [0, ln 2)
    let u := toFix g (2 * m) e
    let l := ln2Fix * 2 ^ (g - 352)
    let n := u / l
    let em := (2 ^ g + expm1Fix g (u % l)) * 2 ^ n
    (jammed 32 1 (2 ^ sfuBits - 1) ((em - 2 ^ g) * 2 ^ g / (em + 2 ^ g)), -(sfuBits : Int) - 1)

/-- FTANH (R114, R115). -/
def ftanhBits (t : Nat) (ftz : Bool) (a : Nat) : Nat × Word :=
  let f := fmtOf t
  match decodeFloat t ftz a with
  | .nan n s p w => (quietTo t n p w, flagIf s flagNV)
  | .inf n => ((deliver t 0 false n 1 0).1, 0)
  | .num n m e =>
    if m = 0 then (f.withSign n 0, 0)
    else
      let v := tanhValue m e
      faithful t ftz (Config.sfuUpper 7 t (BitVec.ofNat 64 a)) n v.1 v.2

end Sys2Proof.Machine
end

