-- ==== Sys2Proof/Machine/Falu.lean ====
section
/-! DEFINITION. FALU and SFU (R103 to R105, R113 to R115). -/

namespace Sys2Proof.Machine

/-- Results of a floating-point word: the value written and the flags. -/
def wrFloat (d : BitVec 8) (t : Nat) (r : DWord × Word) : Wr := wrFlags (wrT d t r.1) r.2

/-- A floating-point word with one source, by `sr.frm`. -/
def float1 (h : Guard) (o : Tri) (f : Nat → Nat → Bool → Nat → Nat × Word) (s : State) : Result :=
  .next (computeOk h (fun e =>
    let t := o.t.toNat
    wrFloat o.d t (perElem t (f t (frmRM e.th.spr.frm) (frmFTZ e.th.spr.frm)) (srcT e o.a t))) s)

/-- A floating-point word with two sources, by `sr.frm`. -/
def float2 (h : Guard) (o : Tri) (f : Nat → Nat → Bool → Nat → Nat → Nat × Word) (s : State) : Result :=
  .next (computeOk h (fun e =>
    let t := o.t.toNat
    wrFloat o.d t (perElem2 t (f t (frmRM e.th.spr.frm) (frmFTZ e.th.spr.frm)) (srcT e o.a t) (srcT e o.b t))) s)

/-- FADD (R103). -/
def execFadd (h : Guard) (o : Tri) (s : State) : Result := float2 h o addBits s
/-- FSUB (R103). -/
def execFsub (h : Guard) (o : Tri) (s : State) : Result := float2 h o subBits s
/-- FMUL (R103). -/
def execFmul (h : Guard) (o : Tri) (s : State) : Result := float2 h o mulBits s
/-- FFMA (R48, R103). -/
def execFfma (h : Guard) (o : Tri) (s : State) : Result :=
  .next (computeOk h (fun e =>
    let t := o.t.toNat
    wrFloat o.d t (perElem3 t (fmaBits t (frmRM e.th.spr.frm) (frmFTZ e.th.spr.frm)) (srcT e o.a t) (srcT e o.b t) (srcT e o.c t))) s)
/-- FMIN (R42, R103). -/
def execFmin (h : Guard) (o : Tri) (s : State) : Result := float2 h o (fun t _ ftz => minMaxBits false t ftz) s
/-- FMAX (R42, R103). -/
def execFmax (h : Guard) (o : Tri) (s : State) : Result := float2 h o (fun t _ ftz => minMaxBits true t ftz) s
/-- FABS (R103): only sign bits change. -/
def execFabs (h : Guard) (o : Tri) (s : State) : Result :=
  float1 h o (fun t _ _ a => (a % 2 ^ (typeWidth t - 1), 0)) s
/-- FNEG (R103): only sign bits change. -/
def execFneg (h : Guard) (o : Tri) (s : State) : Result :=
  float1 h o (fun t _ _ a => (a ^^^ 2 ^ (typeWidth t - 1), 0)) s
/-- FRND (R104). -/
def execFrnd (h : Guard) (o : Tri) (s : State) : Result :=
  float1 h o (fun t rm ftz => integralBits t (if ctlByte o % 8 = 4 then rm else ctlByte o % 8) ((ctlByte o).testBit 3) ftz) s
/-- FSCL (R105): B holds integers. -/
def execFscl (h : Guard) (o : Tri) (s : State) : Result :=
  .next (computeOk h (fun e =>
    let t := o.t.toNat
    let rm := frmRM e.th.spr.frm
    let ftz := frmFTZ e.th.spr.frm
    let r :=
      if t = 3 ∨ t = 4 then perElem2 t (fun a k => scaleBits t rm ftz a (intOf 5 k)) (srcT e o.a t) ((src e o.b 5).setWidth 64)
      else perElem t (fun a => scaleBits t rm ftz a (intOf 0 (src e o.b 0).toNat)) (srcT e o.a t)
    wrFloat o.d t r) s)

/-- FRCP (R113, R115): one over A. -/
def execFrcp (h : Guard) (o : Tri) (s : State) : Result :=
  float1 h o (fun t rm ftz a => divBits t rm ftz ((fmtOf t).bias * 2 ^ (fmtOf t).mw) a) s
/-- FRSQ (R114, R115). -/
def execFrsq (h : Guard) (o : Tri) (s : State) : Result := float1 h o (fun t _ ftz => frsqBits t ftz) s
/-- FSQRT (R113, R115). -/
def execFsqrt (h : Guard) (o : Tri) (s : State) : Result := float1 h o sqrtBits s
/-- FEXP2 (R114, R115). -/
def execFexp2 (h : Guard) (o : Tri) (s : State) : Result := float1 h o (fun t _ ftz => exp2Bits t ftz) s
/-- FLOG2 (R114, R115). -/
def execFlog2 (h : Guard) (o : Tri) (s : State) : Result := float1 h o (fun t _ ftz => flog2Bits t ftz) s
/-- FSIN (R114, R115). -/
def execFsin (h : Guard) (o : Tri) (s : State) : Result := float1 h o (fun t _ ftz => fsinBits t ftz) s
/-- FCOS (R114, R115). -/
def execFcos (h : Guard) (o : Tri) (s : State) : Result := float1 h o (fun t _ ftz => fcosBits t ftz) s
/-- FTANH (R114, R115). -/
def execFtanh (h : Guard) (o : Tri) (s : State) : Result := float1 h o (fun t _ ftz => ftanhBits t ftz) s
/-- FDIV (R113, R115). -/
def execFdiv (h : Guard) (o : Tri) (s : State) : Result := float2 h o divBits s

end Sys2Proof.Machine
end

