-- ==== Sys2Proof/WellFormed.lean ====
section
/-! DEFINITION. Well-formed instructions: words whose every field passes the checks of R72 in the largest allocation, and
events (which are no words and have no fields to check). -/

namespace Sys2Proof

/-- The flag bit that tells two rows of one function apart holds the value of the row. -/
def flagOk : Instr → Bool
  | .ret _ o => o.flags.extractLsb' 0 1 == 0#1
  | .retFar _ o => o.flags.extractLsb' 0 1 == 1#1
  | .tfill _ o => o.flags.extractLsb' 0 1 == 0#1
  | .tfillResume _ o => o.flags.extractLsb' 0 1 == 1#1
  | .tdrain _ o => o.flags.extractLsb' 0 1 == 0#1
  | .tdrainResume _ o => o.flags.extractLsb' 0 1 == 1#1
  | .rkmark _ o => o.flags.extractLsb' 0 1 == 0#1
  | .rkmarkRelocate _ o => o.flags.extractLsb' 0 1 == 1#1
  | .rkpass _ o => o.flags.extractLsb' 0 1 == 0#1
  | .rkpassRelocate _ o => o.flags.extractLsb' 0 1 == 1#1
  | _ => true

/-- An instruction that is a word of the opcode map. -/
def Instr.isWord : Instr → Bool
  | .pairWord _ _ _ => true
  | i => (Instr.guard i).isSome

/-- Well-formed for a kernel's allocation. -/
def Instr.wfIn (regs preds : Nat) (i : Instr) : Bool := flagOk i && (wordReason regs preds i).isNone

/-- Well-formed in the largest allocation (192 g-registers, 48 predicates). -/
def Instr.wf (i : Instr) : Bool := Instr.wfIn 192 48 i

end Sys2Proof
end

