-- ==== Sys2Proof/Decode.lean ====
section
/-! DEFINITION. The decoder, total on any 64 bits and rejecting by the reason codes of R72, and after it the encoder, both
written from the layouts of R56, R58, R60, R63, R67 and the opcode map of R70. Words are stored little-endian (R55). -/

namespace Sys2Proof

/-- Why a word is no instruction (R72). -/
inductive Reject where
  /-- 0x01: OP is not in the map -/
  | unknownOpcode
  /-- 0x02: FN is not listed, or a reserved op6 -/
  | unknownFunction
  /-- 0x03: a reserved guard, or a guard where "always" is required -/
  | badGuard
  /-- 0x04: a reserved, zero or unused field -/
  | reservedField
  /-- 0x05: a reserved or forbidden register code -/
  | badRegister
  /-- 0x06: a register or predicate outside the allocation -/
  | notAllocated
  /-- 0x07: a T, SZ, scale, STYPE, SCOPE or ORD code -/
  | badCode
  /-- 0x08: a wide register, or sel3 on one -/
  | badWide
  /-- 0x11: both slots write one register -/
  | pairDest
  /-- 0x12: two sources of a pair share a bank -/
  | pairBank
  /-- 0x13: an immediate in a floating-point slot -/
  | pairImmediate
  deriving DecidableEq, Repr

/-- The reason code of R72. -/
def Reject.code : Reject → Byte
  | .unknownOpcode => 0x01
  | .unknownFunction => 0x02
  | .badGuard => 0x03
  | .reservedField => 0x04
  | .badRegister => 0x05
  | .notAllocated => 0x06
  | .badCode => 0x07
  | .badWide => 0x08
  | .pairDest => 0x11
  | .pairBank => 0x12
  | .pairImmediate => 0x13

/-- The rejection a reason code names. -/
def Reject.ofCode (b : Byte) : Reject :=
  if b = 0x01 then .unknownOpcode else if b = 0x02 then .unknownFunction else if b = 0x03 then .badGuard
  else if b = 0x04 then .reservedField else if b = 0x05 then .badRegister else if b = 0x06 then .notAllocated
  else if b = 0x07 then .badCode else if b = 0x08 then .badWide else if b = 0x11 then .pairDest
  else if b = 0x12 then .pairBank else .pairImmediate

/-- The rules of R69 are ILLEGAL_PAIR; every other reason is ILLEGAL_INSTRUCTION. -/
def Reject.pair : Reject → Bool
  | .pairDest => true
  | .pairBank => true
  | .pairImmediate => true
  | _ => false

/-- Format TRI (R58). -/
def readTri (w : DWord) : Tri :=
  { d := w.extractLsb' 37 8, a := { reg := w.extractLsb' 29 8, sel := w.extractLsb' 26 3 },
    b := { reg := w.extractLsb' 18 8, sel := w.extractLsb' 15 3 }, c := { reg := w.extractLsb' 7 8, sel := w.extractLsb' 4 3 },
    t := w.extractLsb' 0 4 }

/-- Format I12 (R58). -/
def readI12 (w : DWord) : I12 :=
  { d := w.extractLsb' 37 8, a := { reg := w.extractLsb' 29 8, sel := w.extractLsb' 26 3 }, imm := w.extractLsb' 14 12,
    z := w.extractLsb' 4 10, t := w.extractLsb' 0 4 }

/-- Format I20 (R58). -/
def readI20 (w : DWord) : I20 :=
  { d := w.extractLsb' 37 8, imm := w.extractLsb' 17 20, z := w.extractLsb' 4 13, t := w.extractLsb' 0 4 }

/-- Format M (R58, R63). -/
def readMF (w : DWord) : MF :=
  { d := w.extractLsb' 37 8, cap := w.extractLsb' 32 5, off := w.extractLsb' 24 8, sc := w.extractLsb' 21 3,
    disp := w.extractLsb' 9 12, rh := w.extractLsb' 7 2, sz := w.extractLsb' 4 3, scope := w.extractLsb' 2 2,
    ord := w.extractLsb' 0 2 }

/-- Format B (R58). -/
def readBF (w : DWord) : BF :=
  { disp := w.extractLsb' 20 25, aux := w.extractLsb' 12 8, reg := w.extractLsb' 4 8, flags := w.extractLsb' 0 4 }

/-- Format X (R58). -/
def readXF (w : DWord) : XF :=
  { x0 := w.extractLsb' 37 8, x1 := w.extractLsb' 29 8, x2 := w.extractLsb' 21 8, x3 := w.extractLsb' 13 8,
    flags := w.extractLsb' 4 9, t := w.extractLsb' 0 4 }

/-- Format S (R58). -/
def readSF (w : DWord) : SF :=
  { d := w.extractLsb' 37 8, a := { reg := w.extractLsb' 29 8, sel := w.extractLsb' 26 3 }, num := w.extractLsb' 10 16,
    flags := w.extractLsb' 4 6, t := w.extractLsb' 0 4 }

/-- The guard of a full word (R56). -/
def readGuard (w : DWord) : Guard := { pn := w.extractLsb' 51 1, pg := w.extractLsb' 45 6 }

/-- A slot of a pair word (R67), its least significant bit at a place of the word. -/
def readSlot (w : DWord) (lo : Nat) : Slot :=
  { op := w.extractLsb' (lo + 25) 6, d := w.extractLsb' (lo + 17) 8, a := w.extractLsb' (lo + 9) 8,
    b := w.extractLsb' (lo + 1) 8, i := w.extractLsb' lo 1 }

/-- The functions of major opcode 0x01 (R70). -/
def parse01 (h : Guard) (o : Tri) (fn : Nat) : Option Instr :=
  match fn with
  | 0 => some (.add h o)
  | 1 => some (.sub h o)
  | 2 => some (.mul h o)
  | 3 => some (.mulh h o)
  | 4 => some (.mulhu h o)
  | 5 => some (.mad h o)
  | 6 => some (.and h o)
  | 7 => some (.or h o)
  | 8 => some (.xor h o)
  | 9 => some (.andn h o)
  | 10 => some (.orn h o)
  | 11 => some (.shl h o)
  | 12 => some (.shr h o)
  | 13 => some (.sar h o)
  | 14 => some (.rot h o)
  | 15 => some (.sel h o)
  | _ => none

/-- The functions of major opcode 0x02 (R70). -/
def parse02 (h : Guard) (o : Tri) (fn : Nat) : Option Instr :=
  match fn with
  | 0 => some (.min h o)
  | 1 => some (.max h o)
  | 2 => some (.abs h o)
  | 3 => some (.clz h o)
  | 4 => some (.popc h o)
  | 5 => some (.brev h o)
  | 6 => some (.bfx h o)
  | 7 => some (.bfi h o)
  | 8 => some (.div h o)
  | 9 => some (.rem h o)
  | 10 => some (.addc h o)
  | 11 => some (.subb h o)
  | 12 => some (.lop3 h o)
  | 13 => some (.prmt h o)
  | 14 => some (.mov h o)
  | 15 => some (.sad h o)
  | _ => none

/-- The functions of major opcode 0x03 (R70). -/
def parse03 (h : Guard) (o : I12) (fn : Nat) : Option Instr :=
  match fn with
  | 0 => some (.addi h o)
  | 1 => some (.andi h o)
  | 2 => some (.ori h o)
  | 3 => some (.xori h o)
  | 4 => some (.shli h o)
  | 5 => some (.shri h o)
  | 6 => some (.sari h o)
  | 7 => some (.muli h o)
  | _ => none

/-- The functions of major opcode 0x04 (R70). -/
def parse04 (h : Guard) (o : I20) (fn : Nat) : Option Instr :=
  match fn with
  | 0 => some (.lih h o)
  | _ => none

/-- The functions of major opcode 0x05 (R70). -/
def parse05 (h : Guard) (o : Tri) (fn : Nat) : Option Instr :=
  match fn with
  | 0 => some (.icmp h o)
  | 1 => some (.fcmp h o)
  | 2 => some (.fclass h o)
  | 3 => some (.plop3 h o)
  | 4 => some (.p2g h o)
  | 5 => some (.g2p h o)
  | _ => none

/-- The functions of major opcode 0x08 (R70). -/
def parse08 (h : Guard) (o : Tri) (fn : Nat) : Option Instr :=
  match fn with
  | 0 => some (.fadd h o)
  | 1 => some (.fsub h o)
  | 2 => some (.fmul h o)
  | 3 => some (.ffma h o)
  | 4 => some (.fmin h o)
  | 5 => some (.fmax h o)
  | 6 => some (.fabs h o)
  | 7 => some (.fneg h o)
  | 8 => some (.frnd h o)
  | 9 => some (.fscl h o)
  | _ => none

/-- The functions of major opcode 0x09 (R70). -/
def parse09 (h : Guard) (o : Tri) (fn : Nat) : Option Instr :=
  match fn with
  | 0 => some (.cvt h o)
  | 1 => some (.packh h o)
  | 2 => some (.packbl h o)
  | 3 => some (.packbh h o)
  | 4 => some (.packn h o)
  | 5 => some (.unpk h o)
  | 6 => some (.dot4i h o)
  | 7 => some (.dot4u h o)
  | 8 => some (.dot8i h o)
  | 9 => some (.dot4f h o)
  | 10 => some (.dot8f h o)
  | 11 => some (.dot2h h o)
  | _ => none

/-- The functions of major opcode 0x0A (R70). -/
def parse0A (h : Guard) (o : Tri) (fn : Nat) : Option Instr :=
  match fn with
  | 0 => some (.frcp h o)
  | 1 => some (.frsq h o)
  | 2 => some (.fsqrt h o)
  | 3 => some (.fexp2 h o)
  | 4 => some (.flog2 h o)
  | 5 => some (.fsin h o)
  | 6 => some (.fcos h o)
  | 7 => some (.ftanh h o)
  | 8 => some (.fdiv h o)
  | _ => none

/-- The functions of major opcode 0x10 (R70). -/
def parse10 (h : Guard) (o : BF) (fn : Nat) : Option Instr :=
  match fn with
  | 0 => some (.bra h o)
  | 1 => some (.brx h o)
  | 2 => some (.call h o)
  | 3 => some (.callc h o)
  | 4 => some (if o.flags.extractLsb' 0 1 == 1#1 then .retFar h o else .ret h o)
  | 5 => some (.loop h o)
  | 6 => some (.jmark h o)
  | 7 => some (.join h o)
  | 8 => some (.yield h o)
  | 9 => some (.exit h o)
  | 10 => some (.nop h o)
  | 11 => some (.runb h o)
  | 12 => some (.rune h o)
  | 13 => some (.enter h o)
  | 14 => some (.leave h o)
  | _ => none

/-- The functions of major opcode 0x11 (R70). -/
def parse11 (h : Guard) (o : Tri) (fn : Nat) : Option Instr :=
  match fn with
  | 0 => some (.shfl h o)
  | 1 => some (.shflp h o)
  | 2 => some (.vany h o)
  | 3 => some (.vall h o)
  | 4 => some (.ballot h o)
  | 5 => some (.redux h o)
  | 6 => some (.scan h o)
  | 7 => some (.matchm h o)
  | _ => none

/-- The functions of major opcode 0x12 (R70). -/
def parse12 (h : Guard) (o : Tri) (fn : Nat) : Option Instr :=
  match fn with
  | 0 => some (.rdvinit h o)
  | 1 => some (.rdvarr h o)
  | 2 => some (.rdvwait h o)
  | 3 => some (.rdvaw h o)
  | 4 => some (.sigwait h o)
  | 5 => some (.sigpost h o)
  | 6 => some (.phase h o)
  | _ => none

/-- The functions of major opcode 0x13 (R70). -/
def parse13 (h : Guard) (o : Tri) (fn : Nat) : Option Instr :=
  match fn with
  | 0 => some (.live h o)
  | 1 => some (.hop h o)
  | 2 => some (.launch h o)
  | 3 => some (.lwait h o)
  | _ => none

/-- The functions of major opcode 0x18 (R70). -/
def parse18 (h : Guard) (o : MF) (fn : Nat) : Option Instr :=
  match fn with
  | 0 => some (.ld h o)
  | 1 => some (.st h o)
  | 2 => some (.ldw h o)
  | 3 => some (.ldc h o)
  | 4 => some (.stc h o)
  | 5 => some (.lds h o)
  | 6 => some (.sts h o)
  | 7 => some (.cas h o)
  | 8 => some (.cass h o)
  | 9 => some (.pref h o)
  | _ => none

/-- The functions of major opcode 0x19 (R70). -/
def parse19 (h : Guard) (o : MF) (fn : Nat) : Option Instr :=
  match fn with
  | 0 => some (.atomAdd h o)
  | 1 => some (.atomMin h o)
  | 2 => some (.atomMax h o)
  | 3 => some (.atomMinu h o)
  | 4 => some (.atomMaxu h o)
  | 5 => some (.atomAnd h o)
  | 6 => some (.atomOr h o)
  | 7 => some (.atomXor h o)
  | 8 => some (.atomXchg h o)
  | 9 => some (.atomFadd h o)
  | 10 => some (.atomFmin h o)
  | 11 => some (.atomFmax h o)
  | 12 => some (.atomInc h o)
  | _ => none

/-- The functions of major opcode 0x1A (R70). -/
def parse1A (h : Guard) (o : MF) (fn : Nat) : Option Instr :=
  match fn with
  | 0 => some (.atomsAdd h o)
  | 1 => some (.atomsMin h o)
  | 2 => some (.atomsMax h o)
  | 3 => some (.atomsMinu h o)
  | 4 => some (.atomsMaxu h o)
  | 5 => some (.atomsAnd h o)
  | 6 => some (.atomsOr h o)
  | 7 => some (.atomsXor h o)
  | 8 => some (.atomsXchg h o)
  | 9 => some (.atomsFadd h o)
  | 10 => some (.atomsFmin h o)
  | 11 => some (.atomsFmax h o)
  | 12 => some (.atomsInc h o)
  | _ => none

/-- The functions of major opcode 0x1B (R70). -/
def parse1B (h : Guard) (o : MF) (fn : Nat) : Option Instr :=
  match fn with
  | 0 => some (.fence h o)
  | 1 => some (.check h o)
  | 2 => some (.wset h o)
  | 3 => some (.bankcfg h o)
  | _ => none

/-- The functions of major opcode 0x20 (R70). -/
def parse20 (h : Guard) (o : Tri) (fn : Nat) : Option Instr :=
  match fn with
  | 0 => some (.cgetb h o)
  | 1 => some (.cgetl h o)
  | 2 => some (.cgetp h o)
  | 3 => some (.cgetc h o)
  | 4 => some (.cgetk h o)
  | 5 => some (.cgett h o)
  | 6 => some (.cnarrow h o)
  | 7 => some (.candp h o)
  | 8 => some (.cseal h o)
  | 9 => some (.cunseal h o)
  | 10 => some (.cmov h o)
  | 11 => some (.cclrt h o)
  | 12 => some (.ctest h o)
  | 13 => some (.csend h o)
  | 14 => some (.crecv h o)
  | 15 => some (.csetu h o)
  | _ => none

/-- The functions of major opcode 0x28 (R70). -/
def parse28 (h : Guard) (o : XF) (fn : Nat) : Option Instr :=
  match fn with
  | 0 => some (.tdef h o)
  | 1 => some (if o.flags.extractLsb' 0 1 == 1#1 then .tfillResume h o else .tfill h o)
  | 2 => some (if o.flags.extractLsb' 0 1 == 1#1 then .tdrainResume h o else .tdrain h o)
  | 3 => some (.twait h o)
  | 4 => some (.tstat h o)
  | 5 => some (.tfree h o)
  | 6 => some (.tgive h o)
  | _ => none

/-- The functions of major opcode 0x29 (R70). -/
def parse29 (h : Guard) (o : XF) (fn : Nat) : Option Instr :=
  match fn with
  | 0 => some (.fstart h o)
  | 1 => some (.fpush h o)
  | 2 => some (.fpop h o)
  | 3 => some (.fwait h o)
  | 4 => some (.fstop h o)
  | _ => none

/-- The functions of major opcode 0x2A (R70). -/
def parse2A (h : Guard) (o : XF) (fn : Nat) : Option Instr :=
  match fn with
  | 0 => some (.cmdrun h o)
  | 1 => some (.cmdpoll h o)
  | 2 => some (if o.flags.extractLsb' 0 1 == 1#1 then .rkmarkRelocate h o else .rkmark h o)
  | 3 => some (if o.flags.extractLsb' 0 1 == 1#1 then .rkpassRelocate h o else .rkpass h o)
  | 4 => some (.rkwait h o)
  | 5 => some (.rkstat h o)
  | 6 => some (.stmr h o)
  | 7 => some (.mrwait h o)
  | _ => none

/-- The functions of major opcode 0x30 (R70). -/
def parse30 (h : Guard) (o : XF) (fn : Nat) : Option Instr :=
  match fn with
  | 0 => some (.mma h o)
  | 1 => some (.accalloc h o)
  | 2 => some (.accfree h o)
  | 3 => some (.acczero h o)
  | 4 => some (.accrd h o)
  | 5 => some (.accwr h o)
  | 6 => some (.accst h o)
  | 7 => some (.bht h o)
  | 8 => some (.tqnt h o)
  | 9 => some (.ttrn h o)
  | _ => none

/-- The functions of major opcode 0x3C (R70). -/
def parse3C (h : Guard) (o : SF) (fn : Nat) : Option Instr :=
  match fn with
  | 0 => some (.srr h o)
  | 1 => some (.srw h o)
  | 2 => some (.trap h o)
  | 3 => some (.eret h o)
  | 4 => some (.brk h o)
  | 5 => some (.perf h o)
  | 6 => some (.sleep h o)
  | 7 => some (.parkq h o)
  | _ => none

/-- The instruction a word's fields spell, before the checks of R72 from reason 0x03 on. -/
def parse (w : DWord) : Except Reject Instr :=
  if w.extractLsb' 63 1 == 1#1 then .ok (.pairWord (readSlot w 32) (readSlot w 1) (w.extractLsb' 0 1))
  else
    let h := readGuard w
    let fn := (w.extractLsb' 52 4).toNat
    let pick := fun (r : Option Instr) => match r with
      | some i => Except.ok i
      | none => Except.error Reject.unknownFunction
    match (w.extractLsb' 56 7).toNat with
    | 1 => pick (parse01 h (readTri w) fn)
    | 2 => pick (parse02 h (readTri w) fn)
    | 3 => pick (parse03 h (readI12 w) fn)
    | 4 => pick (parse04 h (readI20 w) fn)
    | 5 => pick (parse05 h (readTri w) fn)
    | 8 => pick (parse08 h (readTri w) fn)
    | 9 => pick (parse09 h (readTri w) fn)
    | 10 => pick (parse0A h (readTri w) fn)
    | 16 => pick (parse10 h (readBF w) fn)
    | 17 => pick (parse11 h (readTri w) fn)
    | 18 => pick (parse12 h (readTri w) fn)
    | 19 => pick (parse13 h (readTri w) fn)
    | 24 => pick (parse18 h (readMF w) fn)
    | 25 => pick (parse19 h (readMF w) fn)
    | 26 => pick (parse1A h (readMF w) fn)
    | 27 => pick (parse1B h (readMF w) fn)
    | 32 => pick (parse20 h (readTri w) fn)
    | 40 => pick (parse28 h (readXF w) fn)
    | 41 => pick (parse29 h (readXF w) fn)
    | 42 => pick (parse2A h (readXF w) fn)
    | 48 => pick (parse30 h (readXF w) fn)
    | 60 => pick (parse3C h (readSF w) fn)
    | _ => .error .unknownOpcode

/-- The decoder for a kernel's allocation (R61, R71, R72). -/
def decode (regs preds : Nat) (w : DWord) : Except Reject Instr :=
  match parse w with
  | .error e => .error e
  | .ok i =>
    match wordReason regs preds i with
    | some r => .error (Reject.ofCode r)
    | none => .ok i

/-- The 64 bits stored little-endian at an address hold this word: its bytes, lowest address first (R5, R55). -/
def wordBytes (w : DWord) : List Byte := (List.range 8).map fun k => w.extractLsb' (8 * k) 8

/-- The word that eight bytes hold, lowest address first (R5, R55). -/
def wordOfBytes (l : List Byte) : DWord := l.foldr (fun b acc => acc <<< 8 ||| b.setWidth 64) 0

/-- The decoder of this model on an opcode-table row's bits: one 64-bit word in the largest allocation. -/
def decodeTableWord (_nbits w : Nat) : Option Instr :=
  match decode 192 48 (wordOfBytes (wordBytes (BitVec.ofNat 64 w))) with
  | .ok i => some i
  | .error _ => none

/-- An 11-bit specifier as bits. -/
def putSpec (x : Spec11) : BitVec 11 := x.reg ++ x.sel

/-- The body of a TRI word. -/
def putTri (o : Tri) : BitVec 45 := o.d ++ (putSpec o.a) ++ (putSpec o.b) ++ (putSpec o.c) ++ o.t

/-- The body of an I12 word. -/
def putI12 (o : I12) : BitVec 45 := o.d ++ (putSpec o.a) ++ o.imm ++ o.z ++ o.t

/-- The body of an I20 word. -/
def putI20 (o : I20) : BitVec 45 := o.d ++ o.imm ++ o.z ++ o.t

/-- The body of an M word. -/
def putMF (o : MF) : BitVec 45 := o.d ++ o.cap ++ o.off ++ o.sc ++ o.disp ++ o.rh ++ o.sz ++ o.scope ++ o.ord

/-- The body of a B word. -/
def putBF (o : BF) : BitVec 45 := o.disp ++ o.aux ++ o.reg ++ o.flags

/-- The body of an X word. -/
def putXF (o : XF) : BitVec 45 := o.x0 ++ o.x1 ++ o.x2 ++ o.x3 ++ o.flags ++ o.t

/-- The body of an S word. -/
def putSF (o : SF) : BitVec 45 := o.d ++ (putSpec o.a) ++ o.num ++ o.flags ++ o.t

/-- A full word: K, OP, FN, the guard and a body (R56). -/
def putFull (op : BitVec 7) (fn : BitVec 4) (h : Guard) (body : BitVec 45) : DWord :=
  0#1 ++ op ++ fn ++ h.pn ++ h.pg ++ body

/-- A slot as bits (R67). -/
def putSlot (s : Slot) : BitVec 31 := s.op ++ s.d ++ s.a ++ s.b ++ s.i

/-- A pair word (R67). -/
def putPair (x y : Slot) (z : BitVec 1) : DWord := 1#1 ++ putSlot x ++ putSlot y ++ z

/-- The word of an instruction; events are no words and encode as the all-zero word, which is no instruction. -/
def encode : Instr → DWord
  | .add h o => putFull 1#7 0#4 h (putTri o)
  | .sub h o => putFull 1#7 1#4 h (putTri o)
  | .mul h o => putFull 1#7 2#4 h (putTri o)
  | .mulh h o => putFull 1#7 3#4 h (putTri o)
  | .mulhu h o => putFull 1#7 4#4 h (putTri o)
  | .mad h o => putFull 1#7 5#4 h (putTri o)
  | .and h o => putFull 1#7 6#4 h (putTri o)
  | .or h o => putFull 1#7 7#4 h (putTri o)
  | .xor h o => putFull 1#7 8#4 h (putTri o)
  | .andn h o => putFull 1#7 9#4 h (putTri o)
  | .orn h o => putFull 1#7 10#4 h (putTri o)
  | .shl h o => putFull 1#7 11#4 h (putTri o)
  | .shr h o => putFull 1#7 12#4 h (putTri o)
  | .sar h o => putFull 1#7 13#4 h (putTri o)
  | .rot h o => putFull 1#7 14#4 h (putTri o)
  | .sel h o => putFull 1#7 15#4 h (putTri o)
  | .min h o => putFull 2#7 0#4 h (putTri o)
  | .max h o => putFull 2#7 1#4 h (putTri o)
  | .abs h o => putFull 2#7 2#4 h (putTri o)
  | .clz h o => putFull 2#7 3#4 h (putTri o)
  | .popc h o => putFull 2#7 4#4 h (putTri o)
  | .brev h o => putFull 2#7 5#4 h (putTri o)
  | .bfx h o => putFull 2#7 6#4 h (putTri o)
  | .bfi h o => putFull 2#7 7#4 h (putTri o)
  | .div h o => putFull 2#7 8#4 h (putTri o)
  | .rem h o => putFull 2#7 9#4 h (putTri o)
  | .addc h o => putFull 2#7 10#4 h (putTri o)
  | .subb h o => putFull 2#7 11#4 h (putTri o)
  | .lop3 h o => putFull 2#7 12#4 h (putTri o)
  | .prmt h o => putFull 2#7 13#4 h (putTri o)
  | .mov h o => putFull 2#7 14#4 h (putTri o)
  | .sad h o => putFull 2#7 15#4 h (putTri o)
  | .addi h o => putFull 3#7 0#4 h (putI12 o)
  | .andi h o => putFull 3#7 1#4 h (putI12 o)
  | .ori h o => putFull 3#7 2#4 h (putI12 o)
  | .xori h o => putFull 3#7 3#4 h (putI12 o)
  | .shli h o => putFull 3#7 4#4 h (putI12 o)
  | .shri h o => putFull 3#7 5#4 h (putI12 o)
  | .sari h o => putFull 3#7 6#4 h (putI12 o)
  | .muli h o => putFull 3#7 7#4 h (putI12 o)
  | .lih h o => putFull 4#7 0#4 h (putI20 o)
  | .icmp h o => putFull 5#7 0#4 h (putTri o)
  | .fcmp h o => putFull 5#7 1#4 h (putTri o)
  | .fclass h o => putFull 5#7 2#4 h (putTri o)
  | .plop3 h o => putFull 5#7 3#4 h (putTri o)
  | .p2g h o => putFull 5#7 4#4 h (putTri o)
  | .g2p h o => putFull 5#7 5#4 h (putTri o)
  | .fadd h o => putFull 8#7 0#4 h (putTri o)
  | .fsub h o => putFull 8#7 1#4 h (putTri o)
  | .fmul h o => putFull 8#7 2#4 h (putTri o)
  | .ffma h o => putFull 8#7 3#4 h (putTri o)
  | .fmin h o => putFull 8#7 4#4 h (putTri o)
  | .fmax h o => putFull 8#7 5#4 h (putTri o)
  | .fabs h o => putFull 8#7 6#4 h (putTri o)
  | .fneg h o => putFull 8#7 7#4 h (putTri o)
  | .frnd h o => putFull 8#7 8#4 h (putTri o)
  | .fscl h o => putFull 8#7 9#4 h (putTri o)
  | .cvt h o => putFull 9#7 0#4 h (putTri o)
  | .packh h o => putFull 9#7 1#4 h (putTri o)
  | .packbl h o => putFull 9#7 2#4 h (putTri o)
  | .packbh h o => putFull 9#7 3#4 h (putTri o)
  | .packn h o => putFull 9#7 4#4 h (putTri o)
  | .unpk h o => putFull 9#7 5#4 h (putTri o)
  | .dot4i h o => putFull 9#7 6#4 h (putTri o)
  | .dot4u h o => putFull 9#7 7#4 h (putTri o)
  | .dot8i h o => putFull 9#7 8#4 h (putTri o)
  | .dot4f h o => putFull 9#7 9#4 h (putTri o)
  | .dot8f h o => putFull 9#7 10#4 h (putTri o)
  | .dot2h h o => putFull 9#7 11#4 h (putTri o)
  | .frcp h o => putFull 10#7 0#4 h (putTri o)
  | .frsq h o => putFull 10#7 1#4 h (putTri o)
  | .fsqrt h o => putFull 10#7 2#4 h (putTri o)
  | .fexp2 h o => putFull 10#7 3#4 h (putTri o)
  | .flog2 h o => putFull 10#7 4#4 h (putTri o)
  | .fsin h o => putFull 10#7 5#4 h (putTri o)
  | .fcos h o => putFull 10#7 6#4 h (putTri o)
  | .ftanh h o => putFull 10#7 7#4 h (putTri o)
  | .fdiv h o => putFull 10#7 8#4 h (putTri o)
  | .bra h o => putFull 16#7 0#4 h (putBF o)
  | .brx h o => putFull 16#7 1#4 h (putBF o)
  | .call h o => putFull 16#7 2#4 h (putBF o)
  | .callc h o => putFull 16#7 3#4 h (putBF o)
  | .ret h o => putFull 16#7 4#4 h (putBF o)
  | .retFar h o => putFull 16#7 4#4 h (putBF o)
  | .loop h o => putFull 16#7 5#4 h (putBF o)
  | .jmark h o => putFull 16#7 6#4 h (putBF o)
  | .join h o => putFull 16#7 7#4 h (putBF o)
  | .yield h o => putFull 16#7 8#4 h (putBF o)
  | .exit h o => putFull 16#7 9#4 h (putBF o)
  | .nop h o => putFull 16#7 10#4 h (putBF o)
  | .runb h o => putFull 16#7 11#4 h (putBF o)
  | .rune h o => putFull 16#7 12#4 h (putBF o)
  | .enter h o => putFull 16#7 13#4 h (putBF o)
  | .leave h o => putFull 16#7 14#4 h (putBF o)
  | .shfl h o => putFull 17#7 0#4 h (putTri o)
  | .shflp h o => putFull 17#7 1#4 h (putTri o)
  | .vany h o => putFull 17#7 2#4 h (putTri o)
  | .vall h o => putFull 17#7 3#4 h (putTri o)
  | .ballot h o => putFull 17#7 4#4 h (putTri o)
  | .redux h o => putFull 17#7 5#4 h (putTri o)
  | .scan h o => putFull 17#7 6#4 h (putTri o)
  | .matchm h o => putFull 17#7 7#4 h (putTri o)
  | .rdvinit h o => putFull 18#7 0#4 h (putTri o)
  | .rdvarr h o => putFull 18#7 1#4 h (putTri o)
  | .rdvwait h o => putFull 18#7 2#4 h (putTri o)
  | .rdvaw h o => putFull 18#7 3#4 h (putTri o)
  | .sigwait h o => putFull 18#7 4#4 h (putTri o)
  | .sigpost h o => putFull 18#7 5#4 h (putTri o)
  | .phase h o => putFull 18#7 6#4 h (putTri o)
  | .live h o => putFull 19#7 0#4 h (putTri o)
  | .hop h o => putFull 19#7 1#4 h (putTri o)
  | .launch h o => putFull 19#7 2#4 h (putTri o)
  | .lwait h o => putFull 19#7 3#4 h (putTri o)
  | .ld h o => putFull 24#7 0#4 h (putMF o)
  | .st h o => putFull 24#7 1#4 h (putMF o)
  | .ldw h o => putFull 24#7 2#4 h (putMF o)
  | .ldc h o => putFull 24#7 3#4 h (putMF o)
  | .stc h o => putFull 24#7 4#4 h (putMF o)
  | .lds h o => putFull 24#7 5#4 h (putMF o)
  | .sts h o => putFull 24#7 6#4 h (putMF o)
  | .cas h o => putFull 24#7 7#4 h (putMF o)
  | .cass h o => putFull 24#7 8#4 h (putMF o)
  | .pref h o => putFull 24#7 9#4 h (putMF o)
  | .atomAdd h o => putFull 25#7 0#4 h (putMF o)
  | .atomMin h o => putFull 25#7 1#4 h (putMF o)
  | .atomMax h o => putFull 25#7 2#4 h (putMF o)
  | .atomMinu h o => putFull 25#7 3#4 h (putMF o)
  | .atomMaxu h o => putFull 25#7 4#4 h (putMF o)
  | .atomAnd h o => putFull 25#7 5#4 h (putMF o)
  | .atomOr h o => putFull 25#7 6#4 h (putMF o)
  | .atomXor h o => putFull 25#7 7#4 h (putMF o)
  | .atomXchg h o => putFull 25#7 8#4 h (putMF o)
  | .atomFadd h o => putFull 25#7 9#4 h (putMF o)
  | .atomFmin h o => putFull 25#7 10#4 h (putMF o)
  | .atomFmax h o => putFull 25#7 11#4 h (putMF o)
  | .atomInc h o => putFull 25#7 12#4 h (putMF o)
  | .atomsAdd h o => putFull 26#7 0#4 h (putMF o)
  | .atomsMin h o => putFull 26#7 1#4 h (putMF o)
  | .atomsMax h o => putFull 26#7 2#4 h (putMF o)
  | .atomsMinu h o => putFull 26#7 3#4 h (putMF o)
  | .atomsMaxu h o => putFull 26#7 4#4 h (putMF o)
  | .atomsAnd h o => putFull 26#7 5#4 h (putMF o)
  | .atomsOr h o => putFull 26#7 6#4 h (putMF o)
  | .atomsXor h o => putFull 26#7 7#4 h (putMF o)
  | .atomsXchg h o => putFull 26#7 8#4 h (putMF o)
  | .atomsFadd h o => putFull 26#7 9#4 h (putMF o)
  | .atomsFmin h o => putFull 26#7 10#4 h (putMF o)
  | .atomsFmax h o => putFull 26#7 11#4 h (putMF o)
  | .atomsInc h o => putFull 26#7 12#4 h (putMF o)
  | .fence h o => putFull 27#7 0#4 h (putMF o)
  | .check h o => putFull 27#7 1#4 h (putMF o)
  | .wset h o => putFull 27#7 2#4 h (putMF o)
  | .bankcfg h o => putFull 27#7 3#4 h (putMF o)
  | .cgetb h o => putFull 32#7 0#4 h (putTri o)
  | .cgetl h o => putFull 32#7 1#4 h (putTri o)
  | .cgetp h o => putFull 32#7 2#4 h (putTri o)
  | .cgetc h o => putFull 32#7 3#4 h (putTri o)
  | .cgetk h o => putFull 32#7 4#4 h (putTri o)
  | .cgett h o => putFull 32#7 5#4 h (putTri o)
  | .cnarrow h o => putFull 32#7 6#4 h (putTri o)
  | .candp h o => putFull 32#7 7#4 h (putTri o)
  | .cseal h o => putFull 32#7 8#4 h (putTri o)
  | .cunseal h o => putFull 32#7 9#4 h (putTri o)
  | .cmov h o => putFull 32#7 10#4 h (putTri o)
  | .cclrt h o => putFull 32#7 11#4 h (putTri o)
  | .ctest h o => putFull 32#7 12#4 h (putTri o)
  | .csend h o => putFull 32#7 13#4 h (putTri o)
  | .crecv h o => putFull 32#7 14#4 h (putTri o)
  | .csetu h o => putFull 32#7 15#4 h (putTri o)
  | .tdef h o => putFull 40#7 0#4 h (putXF o)
  | .tfill h o => putFull 40#7 1#4 h (putXF o)
  | .tfillResume h o => putFull 40#7 1#4 h (putXF o)
  | .tdrain h o => putFull 40#7 2#4 h (putXF o)
  | .tdrainResume h o => putFull 40#7 2#4 h (putXF o)
  | .twait h o => putFull 40#7 3#4 h (putXF o)
  | .tstat h o => putFull 40#7 4#4 h (putXF o)
  | .tfree h o => putFull 40#7 5#4 h (putXF o)
  | .tgive h o => putFull 40#7 6#4 h (putXF o)
  | .fstart h o => putFull 41#7 0#4 h (putXF o)
  | .fpush h o => putFull 41#7 1#4 h (putXF o)
  | .fpop h o => putFull 41#7 2#4 h (putXF o)
  | .fwait h o => putFull 41#7 3#4 h (putXF o)
  | .fstop h o => putFull 41#7 4#4 h (putXF o)
  | .cmdrun h o => putFull 42#7 0#4 h (putXF o)
  | .cmdpoll h o => putFull 42#7 1#4 h (putXF o)
  | .rkmark h o => putFull 42#7 2#4 h (putXF o)
  | .rkmarkRelocate h o => putFull 42#7 2#4 h (putXF o)
  | .rkpass h o => putFull 42#7 3#4 h (putXF o)
  | .rkpassRelocate h o => putFull 42#7 3#4 h (putXF o)
  | .rkwait h o => putFull 42#7 4#4 h (putXF o)
  | .rkstat h o => putFull 42#7 5#4 h (putXF o)
  | .stmr h o => putFull 42#7 6#4 h (putXF o)
  | .mrwait h o => putFull 42#7 7#4 h (putXF o)
  | .mma h o => putFull 48#7 0#4 h (putXF o)
  | .accalloc h o => putFull 48#7 1#4 h (putXF o)
  | .accfree h o => putFull 48#7 2#4 h (putXF o)
  | .acczero h o => putFull 48#7 3#4 h (putXF o)
  | .accrd h o => putFull 48#7 4#4 h (putXF o)
  | .accwr h o => putFull 48#7 5#4 h (putXF o)
  | .accst h o => putFull 48#7 6#4 h (putXF o)
  | .bht h o => putFull 48#7 7#4 h (putXF o)
  | .tqnt h o => putFull 48#7 8#4 h (putXF o)
  | .ttrn h o => putFull 48#7 9#4 h (putXF o)
  | .srr h o => putFull 60#7 0#4 h (putSF o)
  | .srw h o => putFull 60#7 1#4 h (putSF o)
  | .trap h o => putFull 60#7 2#4 h (putSF o)
  | .eret h o => putFull 60#7 3#4 h (putSF o)
  | .brk h o => putFull 60#7 4#4 h (putSF o)
  | .perf h o => putFull 60#7 5#4 h (putSF o)
  | .sleep h o => putFull 60#7 6#4 h (putSF o)
  | .parkq h o => putFull 60#7 7#4 h (putSF o)
  | .pairWord x y z => putPair x y z
  | .sheafChoice _ _ => 0#64
  | .yieldHoldEnd _ _ => 0#64
  | .runCommit _ _ => 0#64
  | .joinRelease _ _ => 0#64
  | .sleepEnd _ _ => 0#64
  | .phaseOverrun _ => 0#64
  | .asyncFaultDelivery _ _ => 0#64
  | .sigwaitReload _ _ => 0#64
  | .sigwaitHostPoll _ _ _ => 0#64
  | .ltimeTick _ => 0#64
  | .seasonBoundary => 0#64
  | .homeRenew _ => 0#64
  | .loadReply _ _ => 0#64
  | .homeWrite _ => 0#64
  | .homeRead _ _ => 0#64
  | .storeAck _ _ => 0#64
  | .otherPartyWrite _ _ => 0#64
  | .csendAtHome _ => 0#64
  | .crecvAtHome _ => 0#64
  | .conditionalWriteback _ => 0#64
  | .writebackReply _ => 0#64
  | .writeLostAnswer _ => 0#64
  | .granuleEntryWrite _ _ _ => 0#64
  | .heldAccessRecheck _ => 0#64
  | .eccUncorrectable _ => 0#64
  | .bankSwitchDone _ _ => 0#64
  | .stageSetDispatch _ => 0#64
  | .stealRequest _ => 0#64
  | .stealReply _ => 0#64
  | .teamRetire _ => 0#64
  | .launchComplete _ => 0#64
  | .runnerStart _ => 0#64
  | .runnerComplete _ => 0#64
  | .travelDepart _ _ => 0#64
  | .packetRelay _ => 0#64
  | .ringToFifo _ _ _ => 0#64
  | .packetPlace _ _ _ => 0#64
  | .sheafRelease _ => 0#64
  | .depthBroadcast _ => 0#64
  | .cuttingAdd _ _ _ => 0#64
  | .cuttingRemove _ _ _ => 0#64
  | .copyRow _ => 0#64
  | .tileTransferDone _ => 0#64
  | .commandCopyDone _ => 0#64
  | .mmaComplete _ _ => 0#64
  | .arrayOpDone _ _ => 0#64
  | .accallocGrant _ => 0#64
  | .rakePassStart => 0#64
  | .rakeBatch => 0#64
  | .rakePeerReport _ => 0#64
  | .rakePassComplete => 0#64
  | .permitRequest _ _ => 0#64
  | .permitGrant _ => 0#64
  | .mrDelivery _ _ => 0#64
  | .mrSwitchSum _ _ _ => 0#64
  | .mrGroupInvalidate _ => 0#64
  | .handlerEntry _ _ => 0#64
  | .stopRequest _ _ => 0#64
  | .unitAck _ _ => 0#64
  | .contextStopped _ => 0#64
  | .save _ => 0#64
  | .restore _ => 0#64
  | .quantumChange => 0#64
  | .queueMapping => 0#64
  | .queueKick _ _ _ => 0#64
  | .queueCommandBegin _ _ => 0#64
  | .queueNop _ => 0#64
  | .queueLaunch _ => 0#64
  | .queueWait _ _ => 0#64
  | .queuePost _ => 0#64
  | .adminDb _ _ => 0#64
  | .ctxCreate _ _ => 0#64
  | .ctxHandler _ _ => 0#64
  | .ctxDestroy _ _ => 0#64
  | .objLoad _ _ _ => 0#64
  | .qCreate _ _ => 0#64
  | .qDestroy _ _ => 0#64
  | .monSet _ _ => 0#64
  | .cntClear _ _ => 0#64
  | .aperture _ _ => 0#64
  | .monRead _ _ => 0#64
  | .ctxQuery _ _ => 0#64
  | .vfColours _ _ _ => 0#64
  | .qtabWrite _ _ => 0#64
  | .ctxMigrate _ _ _ _ => 0#64
  | .pctWrite _ _ => 0#64
  | .attest _ _ => 0#64
  | .vfEn _ => 0#64
  | .vfReset _ => 0#64
  | .evtHead _ _ => 0#64
  | .evtDrop _ => 0#64
  | .registerWrite _ _ _ _ => 0#64
  | .apertureRead _ _ _ _ => 0#64
  | .apertureWrite _ _ _ _ => 0#64
  | .counterOverflow _ _ => 0#64
  | .ingressAccess _ => 0#64
  | .portStateChange _ _ => 0#64
  | .keyAgreement _ _ _ => 0#64
  | .epochGraceEnd _ => 0#64
  | .thermalStop _ _ => 0#64
  | .thermalResume _ _ => 0#64
  | .boot _ => 0#64
  | .stackCacheSpill _ _ _ _ => 0#64
  | .objectUnload _ _ => 0#64
  | .groupDescriptorSet _ _ => 0#64
  | .peerSweep _ _ _ => 0#64
  | .pcieCompletion _ _ => 0#64
  | .pcieWriteDeparture _ => 0#64
  | .evtCtl _ _ => 0#64

end Sys2Proof
end

