-- ==== Sys2Proof/Machine/Issue.lean ====
section
/-! DEFINITION. PC groups (R179), the fetch of a word with its checks (R15, R71), delivery of asynchronous faults at a run boundary (R390),
and the choice of what issues (R181 to R186, R228). -/

namespace Sys2Proof.Machine

/-- A lane that may issue: live, not waiting, not parked unless in handler mode (R179, R180, R385). -/
def issuable (th : Thread) : Bool :=
  decide (th.status = .live) && th.hold.isNone && (match th.park with
    | none => true
    | some p => p.inHandler)

/-- Two lanes stand at one word in one run state (R179, R385). -/
def samePlace (a b : Thread) : Bool :=
  decide (a.code = b.code) && decide (a.pc = b.pc) && (a.run.isSome == b.run.isSome) && decide (a.park = b.park)

/-- Two lanes are of one PC group (R179, R385); of a word that has begun, the lanes that began it. -/
def sameGroup (a b : Thread) : Bool := samePlace a b && decide (a.word = b.word)

/-- The lanes of a sheaf that may issue with a lane. -/
def groupMask (sf : Sheaf) (lead : Thread) : Word :=
  maskOf ((sf.lanes.filter fun e => issuable e.2 && sameGroup lead e.2).map (·.1))

/-- The PC groups of a sheaf that may issue: leader, and mask (R179). -/
def groupsOf (sf : Sheaf) : List (Thread × Word) :=
  sf.lanes.filterMap fun e =>
    if issuable e.2 then
      let m := groupMask sf e.2
      if (List.range e.1).any fun k => m.getLsbD k then none else some (e.2, m)
    else none

/-- The access a fetch makes (R15). -/
def accFetch : Access := { kinds := [1], perms := [2], sealOk := false, windows := false, atomic := none, xcap := false }

/-- The word at an offset of a code capability; outside local HBM the manual names no source for it.
Log 17 (DESIGN CHOICE). -/
def wordAt (s : State) (code : Cap) (pc : Nat) : DWord :=
  let a := (capBase code + pc) % 2 ^ 52
  if regionOf s.fabric.number a = .hbm then wordOfBytes (readMem s.mem (localOf a) 8) else Config.freeDWord s.free

/-- The checks of a fetch (R15): the failing PC is reported with reason 0x70. Log 17 (DESIGN CHOICE). -/
def fetchCheck (s : State) (sf : Sheaf) (th : Thread) : Option FaultInfo :=
  match checkCap s.fabric.number (coloursOf s sf) th.code accFetch th.pc.toNat 8 1 with
  | .ok _ => none
  | .error c => some (mkFault c 0x70 th.pc.toNat)

/-- The fault of a word that R72 rejects (R71). -/
def encodingFault (r : Reject) (pc : Word) : FaultInfo :=
  mkFault (if r.pair then causePair else causeIllegal) r.code pc.toNat

/-- A lane at a run boundary: outside a run, not parked, and waiting at most for something that R394 saves in place (R390). -/
def atBoundary (th : Thread) : Bool :=
  decide (th.status = .live) && th.run.isNone && th.word.isNone && th.park.isNone && (match th.hold with
    | none => true
    | some .stall => true
    | some (.join _) => true
    | some (.rdv _ _) => true
    | some (.sigwait _ _ _) => true
    | some (.sleep _) => true
    | some (.yielded _) => true
    | some (.lwait _) => true
    | some .acc => true
    | some (.mr _ _ _) => true
    | _ => false)

/-- The asynchronous fault a thread takes next (R389, R390): a waiting loss, then the overrun; and the thread without it. -/
def nextAsync (th : Thread) : Option (FaultInfo × Thread) :=
  match th.losses, th.overrun with
  | x :: rest, _ =>
    let more := min 15 (rest.length + th.lossMore)
    some ({ mkFault causeLost 0 x.addr with detail := BitVec.ofNat 16 (x.colour % 4096 + more * 4096), async := true },
          { th with losses := rest, lossMore := if rest.isEmpty then 0 else th.lossMore })
  | [], some n => some ({ mkFault causeOverrun 0 n with async := true }, { th with overrun := none })
  | [], none => none

/-- The delivery of a pending asynchronous fault to a lane at a run boundary: it parks alone (R390). A context that is being stopped keeps it undelivered
(R395). -/
def deliverAsync (s : State) (sh ln : Nat) : State :=
  match sheaf? s sh, thread? s sh ln with
  | some sf, some th =>
    if atBoundary th ∧ (ctxAt s sf.ctx).state = .running then
      match nextAsync th with
      | some (f, th') => parkLanes (updThread s sh ln fun _ => th') sh [(ln, f)]
      | none => s
    else s
  | _, _ => s

/-- Deliveries to every lane of a mask. -/
def deliverAll (s : State) (sh : Nat) (m : Word) : State :=
  (maskLanes sh m).foldl (fun s x => deliverAsync s x.1 x.2) s

/-- A word of the LANE group (R70, R228). -/
def laneWord (w : DWord) : Bool := w.extractLsb' 56 8 = 0x11#8

/-- What issuing a group gives: nothing to execute, or an instruction with its group in focus. -/
inductive Issued where
  | nothing (s : State)
  | word (i : Instr) (s : State)
  deriving DecidableEq, Repr

/-- Every lane of a mask takes one fault. -/
def parkMask (s : State) (sh : Nat) (m : Word) (f : FaultInfo) : State :=
  parkLanes s sh ((maskLanes sh m).map fun x => (x.2, f))

/-- The other sheaf of a pair, for a group outside handler mode: handler groups of two sheaves never merge (R228, R385).
Log 60 (DEDUCED). -/
def pairSheaf (s : State) (sf : Sheaf) (lead : Thread) : Option (Nat × Sheaf) :=
  if lead.park.isSome then none else sf.pair.bind fun p => (sheaf? s p).map fun sp => (p, sp)

/-- The lanes of the other sheaf of a pair that share a LANE word (R228). Log 60 (DEDUCED). -/
def pairShare (s : State) (sf : Sheaf) (lead : Thread) : Option (Nat × Word) := (pairSheaf s sf lead).map fun x => (x.1, groupMask x.2 lead)

/-- A lane of the run in progress has not done the word before this one: the group of a run goes on together (R127, R184). -/
def runBehind (sf : Sheaf) (lead : Thread) : Bool :=
  match lead.run with
  | none => false
  | some r => sf.lanes.any fun e => match e.2.run with
      | some q => decide (e.2.status = .live) && decide (q.pos < r.pos)
      | none => false

/-- The other sheaf's group at the word is not ready: a lane of it waits, or is behind in the run (R228). Log 60 (DEDUCED). -/
def pairWaits (s : State) (sf : Sheaf) (lead : Thread) : Bool :=
  match pairSheaf s sf lead with
  | none => false
  | some (_, sp) => (sp.lanes.any fun e => decide (e.2.status = .live) && samePlace lead e.2 && !issuable e.2) ||
      ((sp.lanes.any fun e => decide (e.2.status = .live) && samePlace lead e.2) && runBehind sp lead)

/-- A word whose lanes take effect in ascending order over both sheaves of a pair (R294, R342): STS, CAS, CASS, ATOM, ATOMS, and the engine words. The rendezvous words and PHASE as well (R239, R242). -/
def orderedWord (w : DWord) : Bool :=
  let op := (w.extractLsb' 56 8).toNat
  let fn := (w.extractLsb' 52 4).toNat
  [0x19, 0x1A, 0x28, 0x29, 0x2A, 0x30].contains op || (decide (op = 0x18) && [6, 7, 8].contains fn) || (decide (op = 0x12) && !([4, 5].contains fn))

/-- The first sheaf of a pair stands at the same ordered word and goes first (R294, R342). Log 60 (DEDUCED). -/
def firstGoes (s : State) (sf : Sheaf) (lead : Thread) (w : DWord) : Bool :=
  decide (sf.half = 1) && orderedWord w && (match pairSheaf s sf lead with
    | none => false
    | some (_, sp) => sp.lanes.any fun e => decide (e.2.status = .live) && samePlace lead e.2 && partOpen e.2.hold)

/-- The lanes in focus have issued (R185). -/
def clearUnissued (s : State) (sh : Nat) (m : Word) : State :=
  (maskLanes sh m).foldl (fun s x => updThread s x.1 x.2 fun th => { th with unissued := 0 }) s

/-- A word issues for a context (R413); one that goes on has been counted. -/
def countWord (s : State) (sf : Sheaf) (lead : Thread) : State := if lead.word.isSome then s else countEvent s sf.ctx 1 1

/-- The lead lane of a mask of a sheaf that may issue. -/
def leadOf (sf : Sheaf) (m : Word) : Option (Nat × Thread) := sf.lanes.find? fun e => m.getLsbD e.1 && issuable e.2

/-- While a context is being stopped only runs in progress go on (R393); a word that has begun outside a run is a run of its own (R127). -/
def mayGoOn (s : State) (sf : Sheaf) (th : Thread) : Bool :=
  match (ctxAt s sf.ctx).state with
  | .running => true
  | .stopping => th.run.isSome || th.word.isSome
  | _ => false

/-- The lanes of a word that has begun whose parts are done or under way. -/
def restMask (sf : Sheaf) (lead : Thread) (m : Word) : Word :=
  match lead.word with
  | none => 0
  | some id => maskOf (((wordLanes sf id).filter fun l => !m.getLsbD l.1).map (·.1))

/-- The group of a word in focus: its lanes begin it, or go on with it. -/
def focusOn (s : State) (sh : Nat) (sf : Sheaf) (lead : Thread) (m : Word) : State :=
  { (if lead.word.isSome then (maskLanes sh m).foldl (fun s x => updThread s x.1 x.2 fun th => { th with word := none }) s else s) with
    focus := some { sh := sh, mask := m, pairMask := 0, rest := restMask sf lead m, word := lead.word } }

/-- A group issues (R15, R71, R179, R390): asynchronous faults first, then the fetch, then the checks of R72 against the kernel's allocation.
Log 60 (DEDUCED). -/
def issueGroup (s : State) (g : Group) : Issued :=
  let s1 := deliverAll s g.sh g.mask
  match sheaf? s1 g.sh with
  | none => .nothing s1
  | some sf =>
    match leadOf sf g.mask with
    | none => .nothing s1
    | some (_, lead) =>
      if sf.forming.isSome || !mayGoOn s1 sf lead || runBehind sf lead then .nothing s1
      else
        let m := groupMask sf lead &&& g.mask
        match fetchCheck s1 sf lead with
        | some f => .nothing (parkMask s1 g.sh m f)
        | none =>
          let w := wordAt s1 lead.code lead.pc.toNat
          let s2 := countWord (clearUnissued s1 g.sh m) sf lead
          match decode sf.allocRegs sf.allocPreds w with
          | .error r => .nothing (parkMask s2 g.sh m (encodingFault r lead.pc))
          | .ok i =>
            if laneWord w then
              if pairWaits s1 sf lead then .nothing s1
              else
                match pairShare s1 sf lead with
                | some (p, pm) => .word i { clearUnissued s2 p pm with focus := some { sh := g.sh, mask := m, pairMask := pm, rest := 0, word := none } }
                | none => .word i { s2 with focus := some { sh := g.sh, mask := m, pairMask := 0, rest := 0, word := none } }
            else .word i (focusOn s2 g.sh sf lead m)

/-- The word a group would issue next, for the choice only. -/
def peekWord (s : State) (th : Thread) : DWord := wordAt s th.code th.pc.toNat

/-- The number of lanes of a mask. -/
def laneCount (m : Word) : Nat := ((List.range 32).filter fun k => m.getLsbD k).length

/-- The unissued count of a group (R185). -/
def unissuedOf (sf : Sheaf) (m : Word) : Nat :=
  sf.lanes.foldl (fun acc e => if m.getLsbD e.1 then max acc e.2.unissued else acc) 0

/-- RUNB waits while another group of the sheaf is inside a run or forced (R180). -/
def runbWaits (s : State) (sf : Sheaf) (gs : List (Thread × Word)) (x : Thread × Word) : Bool :=
  (peekWord s x.1).extractLsb' 52 12 = 0x10B#12 &&
    (sf.lanes.any (fun e => decide (e.2.status = .live) && e.2.run.isSome && !x.2.getLsbD e.1) ||
      gs.any fun y => decide (y.2 ≠ x.2) && decide (64 ≤ unissuedOf sf y.2))

/-- The group of a lane is out of the ready set by a YIELD of one of its lanes (R236). -/
def yieldHolds (sf : Sheaf) (lead : Thread) : Bool :=
  sf.lanes.any fun e => decide (e.2.status = .live) && samePlace lead e.2 && (match e.2.hold with
    | some (.yielded _) => true
    | _ => false)

/-- The ready groups of a sheaf (R180). Log 13 (DEDUCED). -/
def readyGroups (s : State) (sf : Sheaf) : List (Thread × Word) :=
  if sf.forming.isSome then []
  else
    let gs := (groupsOf sf).filter fun x => mayGoOn s sf x.1 && !runBehind sf x.1
    gs.filter fun x => !runbWaits s sf gs x && !yieldHolds sf x.1 && !(laneWord (peekWord s x.1) && pairWaits s sf x.1) && !firstGoes s sf x.1 (peekWord s x.1)

/-- The lowest lane of a mask. -/
def lowLane (m : Word) : Nat := ((List.range 32).find? fun k => m.getLsbD k).getD 32

/-- The place of a group in the list of R182: a run first, then forced groups, then the larger; ties by PC and lane. -/
def groupKey (sf : Sheaf) (x : Thread × Word) : Nat :=
  let u := unissuedOf sf x.2
  let cls := if x.1.run.isSome then 0 else if 64 ≤ u then 1 else 2
  let within := if cls = 1 then 2 ^ 20 - min u (2 ^ 20) else if cls = 2 then 64 - laneCount x.2 else 0
  ((cls * 2 ^ 21 + within) * 2 ^ 32 + x.1.pc.toNat) * 64 + lowLane x.2

/-- The unit of R88 and the class of R70 that a word uses: 0 control, 1 to 6 compute units, 7 memory, engine and system. -/
def unitOf (w : DWord) : Nat :=
  if w.getLsbD 63 then 1
  else
    let fn := (w.extractLsb' 52 4).toNat
    match (w.extractLsb' 56 7).toNat with
    | 0x01 => 1
    | 0x02 => if fn = 8 ∨ fn = 9 then 3 else 1
    | 0x03 => 1
    | 0x04 => 1
    | 0x05 => 1
    | 0x08 => 2
    | 0x09 => 2
    | 0x0A => 4
    | 0x11 => 6
    | 0x20 => if fn = 13 ∨ fn = 14 then 7 else 5
    | 0x10 => 0
    | 0x12 => 0
    | 0x13 => 0
    | _ => 7

/-- Two words may issue in one cycle (R183). -/
def mayPair (a b : DWord) : Bool := unitOf a = 0 || unitOf a ≠ unitOf b

/-- The choice of a sheaf among the ready ones of a quadrant (R181): a run first, then the highest wait count, ties in rotation. -/
def chooseSheaf (s : State) (q : Nat) : Option Nat :=
  let rr := (quadAt s q).rr
  let cand := (List.range 16).map fun k => (rr + k) % 16
  let ready := cand.filterMap fun slot =>
    match sheaf? s (q * 16 + slot) with
    | some sf =>
      let gs := readyGroups s sf
      if gs.isEmpty then none else some (slot, sf, gs.any fun x => x.1.run.isSome)
    | none => none
  match ready.find? (fun x => x.2.2) with
  | some x => some x.1
  | none => (minPos (ready.map fun x => (x.1, 2 ^ 32 - min x.2.1.wait (2 ^ 32)))).map (·.1)

/-- The holds of YIELD seen at a choice of a sheaf (R236): one choice fewer, and none where no other group is ready. -/
def yieldChoice (sf : Sheaf) (otherReady : Bool) : Sheaf :=
  { sf with lanes := sf.lanes.map fun e => match e.2.hold with
      | some (.yielded n) => (e.1, { e.2 with hold := if otherReady && decide (1 < n) then some (.yielded (n - 1)) else none })
      | _ => e }

/-- Wait counts after a choice in a quadrant (R181). -/
def waitCounts (s : State) (q chosen : Nat) : State :=
  (List.range 16).foldl (fun s slot =>
    let sh := q * 16 + slot
    match sheaf? s sh with
    | some sf =>
      if slot = chosen then setSheaf s sh { sf with wait := 0 }
      else if (readyGroups s sf).isEmpty then s
      else setSheaf s sh { sf with wait := sf.wait + 1 }
    | none => s) s

/-- Groups that were ready at a choice of their sheaf and do not issue (R185). -/
def passOver (s : State) (sh : Nat) (l : List (Thread × Word)) : State :=
  l.foldl (fun s g => (maskLanes sh g.2).foldl (fun s x => updThread s x.1 x.2 fun th => { th with unissued := th.unissued + 1 }) s) s

/-- A LANE word that both sheaves of a pair issue is a choice of the other sheaf as well (R181, R185, R228). -/
def chargePair (s : State) (sf : Sheaf) (x : Thread × Word) : State :=
  match (if laneWord (peekWord s x.1) then pairShare s sf x.1 else none) with
  | some (p, pm) =>
    match sheaf? s p with
    | some sp =>
      if pm = 0 then s
      else passOver (updSheaf s p fun sp => yieldChoice { sp with wait := 0 } true) p ((readyGroups s sp).filter fun y => !samePlace x.1 y.1)
    | none => s
  | none => s

/-- The choice of a quadrant in a cycle (R181 to R186): its sheaf and up to two groups are put in the state's list of issues. -/
def chooseIssue (s : State) (q : Nat) : State :=
  match chooseSheaf s q with
  | none => s
  | some slot =>
    let sh := q * 16 + slot
    match sheaf? s sh with
    | none => s
    | some sf =>
      let gs := sortBy (groupKey sf) (readyGroups s sf)
      let picks := match gs with
        | a :: b :: _ => if mayPair (peekWord s a.1) (peekWord s b.1) then [a, b] else [a]
        | l => l
      let s1 := waitCounts s q slot
      let s2 := updQuad s1 q fun x => { x with rr := (slot + 1) % 16 }
      let rest := gs.drop picks.length
      let forced := (picks.filter fun x => !x.1.run.isSome && decide (64 ≤ unissuedOf sf x.2)).length
      let s3 := picks.foldl (fun s x => chargePair s sf x) (passOver s2 sh rest)
      let s4 := countEvent (updSheaf s3 sh fun sf => yieldChoice sf true) sf.ctx 2 forced
      { s4 with issue := s4.issue ++ picks.map fun g => { sh := sh, mask := g.2, pairMask := 0, rest := 0, word := none } }

/-- A quadrant's sheaves whose only groups yielded: the hold ends (R236). -/
def endIdleYields (s : State) (q : Nat) : State :=
  (List.range 16).foldl (fun s slot =>
    match sheaf? s (q * 16 + slot) with
    | some sf => if (readyGroups s sf).isEmpty then setSheaf s (q * 16 + slot) (yieldChoice sf false) else s
    | none => s) s

/-- SHEAF_CHOICE (R181): the choice of one quadrant of one core. Log 1 (DESIGN CHOICE). -/
def execSheafChoice (core quad : Nat) (s : State) : Result :=
  .next (if core < Config.cores ∧ quad < 4 then chooseIssue (endIdleYields s (core * 4 + quad)) (core * 4 + quad) else s)

/-- YIELD_HOLD_END (R236): at a choice with no other group ready, or with its choices used up, a yielded lane returns. -/
def execYieldHoldEnd (sh ln : Nat) (s : State) : Result :=
  .next (match sheaf? s sh, thread? s sh ln with
    | some sf, some th =>
      match th.hold with
      | some (.yielded n) =>
        if n = 0 ∨ (readyGroups s sf).isEmpty then updThread s sh ln fun th => { th with hold := none } else s
      | _ => s
    | _, _ => s)

/-- ASYNC_FAULT_DELIVERY (R390). -/
def execAsyncFaultDelivery (sh ln : Nat) (s : State) : Result := .next (deliverAsync s sh ln)

end Sys2Proof.Machine
end

