-- ==== Sys2Proof/Machine/Ctrl.lean ====
section
/-! DEFINITION. CTRL (R118 to R129, R187 to R190, R235 to R237): transfers, entry lists, the stack offset, runs with their trailer,
rejoin masks, YIELD and EXIT. -/

namespace Sys2Proof.Machine

/-- pc + 8 × DISP25, modulo 2^32 (R65, R120). -/
def brTarget (base : Word) (disp : BitVec 25) : Word := base + disp.signExtend 32 * 8

/-- `g189`, `g190` and `g191` as register codes. -/
def g189 : BitVec 8 := 189
def g191 : BitVec 8 := 191

/-- BRA (R120). -/
def execBra (h : Guard) (o : BF) (s : State) : Result :=
  .next (runWord (cfgNR h) (fun e s => (s, .jump wrNone (brTarget e.th.pc o.disp))) s)

/-- BRX (R120). -/
def execBrx (h : Guard) (o : BF) (s : State) : Result :=
  .next (runWord (cfgNR h) (fun e s => (s, .jump wrNone (brTarget (readCode e o.reg.toNat) o.disp))) s)

/-- CALL (R120). -/
def execCall (h : Guard) (o : BF) (s : State) : Result :=
  .next (runWord (cfgNR h) (fun e s => (s, .jump (wrReg g189 (e.th.pc + 8)) (brTarget e.th.pc o.disp))) s)

/-- RET (R120). -/
def execRet (h : Guard) (o : BF) (s : State) : Result :=
  .next (runWord (cfgNR h) (fun e s => (s, .jump wrNone (readCode e o.reg.toNat))) s)

/-- LOOP (R120). -/
def execLoop (h : Guard) (o : BF) (s : State) : Result :=
  .next (runWord (cfgNR h) (fun e s =>
    let v := readCode e o.reg.toNat - 1
    (s, if v = 0 then .ok (wrReg o.reg v) else .jump (wrReg o.reg v) (brTarget e.th.pc o.disp))) s)

/-- NOP (R120). -/
def execNop (h : Guard) (_ : BF) (s : State) : Result := .next (computeOk h (fun _ => wrNone) s)

/-- A 32-bit word of a code region: bytes of local HBM. Log 17 (DESIGN CHOICE). -/
def codeWord (s : State) (c : Cap) (off : Nat) : Nat :=
  let a := (capBase c + off) % 2 ^ 52
  if regionOf s.fabric.number a = .hbm then ofBytes (readMem s.mem (localOf a) 4) else (Config.freeWord (s.free + off)).toNat

/-- EntryCount (R155): a region too short to hold its count holds no entry. -/
def entryCount (s : State) (c : Cap) : Nat := if capLen c < 4 then 0 else codeWord s c 0

/-- EntryOffset (R155). -/
def entryOffset (s : State) (c : Cap) (i : Nat) : Nat := codeWord s c (4 + 4 * i)

/-- The tests of a code capability: tag, sealing by what is accepted, kind, EX, colour (R121, R122). -/
def codeCheck (s : State) (sf : Sheaf) (c : Cap) (sealOk : Bool) : Option Byte :=
  if !c.tag then some causeTag
  else if !sealOk then some causeSealed
  else if capKind c ≠ 1 then some causeKind
  else if !capHas c 2 then some causePerm
  else if !(validColours (coloursOf s sf)).contains (capColour c) then some causeColour
  else none

/-- A fault of the target of CALLC: the entry index in the detail (R379, R380). Log 23 (DEDUCED). -/
def calleeFault (cause : Byte) (index addr : Nat) : FaultInfo :=
  { mkFault cause 0x71 addr with detail := BitVec.ofNat 16 index }

/-- CALLC (R121). -/
def execCallc (h : Guard) (o : BF) (s : State) : Result :=
  .next (runWord (cfgNRR h) (fun e s =>
    let t := cReg e.th (o.reg.toNat % 32)
    let i := o.aux.toNat
    match codeCheck s e.sf t true with
    | some c => (s, .fault (calleeFault c i 0))
    | none =>
      if entryCount s t ≤ i ∨ capLen t < 8 + 4 * i then (s, .fault (calleeFault causeBounds i 0))
      else
        let x := entryOffset s t i
        if capLen t < x + 8 then (s, .fault (calleeFault causeBounds i x))
        else if x % 8 ≠ 0 then (s, .fault (calleeFault causeAlign i x))
        else
          let th := applyWr e.th (wrBoth (wrReg g189 (e.th.pc + 8)) (wrCap 29 (returnSeal e.th.code)))
          (s, .enter { th with code := capOpen t } (BitVec.ofNat 32 x))) s)

/-- RET with F = 1 (R122): an unsealed capability or a return capability. Log 23 (DEDUCED). -/
def execRetFar (h : Guard) (o : BF) (s : State) : Result :=
  .next (runWord (cfgNRR h) (fun e s =>
    let t := cReg e.th (o.aux.toNat % 32)
    let x := readCode e o.reg.toNat
    match codeCheck s e.sf t (!capSealed t || capOtype t == 0xFF#8) with
    | some c => (s, .fault (mkFault c 0x72 x.toNat))
    | none =>
      if x.toNat % 8 ≠ 0 then (s, .fault (mkFault causeAlign 0x72 x.toNat))
      else (s, .enter { e.th with code := capOpen t } x)) s)

/-- CheckStack (R124): tag, sealed, kind 4, colour. -/
def stackCheck (s : State) (sf : Sheaf) (c : Cap) : Option Byte :=
  if !c.tag then some causeTag
  else if capSealed c then some causeSealed
  else if capKind c ≠ 4 then some causeKind
  else if !(validColours (coloursOf s sf)).contains (capColour c) then some causeColour
  else none

/-- ENTER and LEAVE (R124): the new stack offset, or none beyond the limit. Log 23 (DEDUCED). -/
def stackWord (h : Guard) (move : Env → Option Nat) (s : State) : Result :=
  .next (compute (cfg h) (fun e =>
    match stackCheck e.s e.sf (cReg e.th 1) with
    | some c => .error (mkFault c 0x73 0)
    | none =>
      match move e with
      | some v => .ok (wrReg g191 (BitVec.ofNat 32 v))
      | none => .error (mkFault causeStack 0 0)) s)

/-- The frame size of ENTER and LEAVE: 16 × DISP25 (R118). -/
def frameSize (o : BF) : Nat := 16 * o.disp.toNat

/-- ENTER (R124). -/
def execEnter (h : Guard) (o : BF) (s : State) : Result :=
  stackWord h (fun e =>
    let g := (gReg e.th 191).toNat
    if g < frameSize o ∨ g - frameSize o < e.th.spr.stklim.toNat then none else some (g - frameSize o)) s

/-- LEAVE (R124). -/
def execLeave (h : Guard) (o : BF) (s : State) : Result :=
  stackWord h (fun e =>
    let g := (gReg e.th 191).toNat
    if capLen (cReg e.th 1) < g + frameSize o then none else some (g + frameSize o)) s

/-- A word is a RUNE: OP 0x10, FN 12 (R70). -/
def isRune (w : DWord) : Bool := w.extractLsb' 52 12 = 0x10C#12

/-- The word at an offset is a RUNE that the code capability covers. Log 17 (DESIGN CHOICE). -/
def runeAt (s : State) (c : Cap) (off : Nat) : Bool := decide (off + 8 ≤ capLen c) && isRune (wordAt s c off)

/-- What is wrong with the form of a run of `n` words opened at an offset: the first word that breaks it (R128, 0x34), or the fetch of a trailer that lies
beyond the code capability (R15). Log 17 (DESIGN CHOICE). -/
def runFormError (s : State) (c : Cap) (pc n : Nat) : Option FaultInfo :=
  let trailer := pc + 8 * (n + 1)
  match (List.range n).find? fun k => runeAt s c (pc + 8 * (k + 1)) with
  | some k => some (mkFault causeRun 0x34 (pc + 8 * (k + 1)))
  | none =>
    if runeAt s c trailer then none
    else if capLen c < trailer + 8 then some (mkFault causeBounds 0x70 trailer)
    else some (mkFault causeRun 0x34 trailer)

/-- The published slots of a RUNE word (R118, R126). -/
def publishedOf (w : DWord) : List Nat :=
  [(w.extractLsb' 37 8).toNat, (w.extractLsb' 29 8).toNat, (w.extractLsb' 12 8).toNat, (w.extractLsb' 4 8).toNat].filter (· < 0xC0)

/-- A run opened in a thread (R126, R127): `t0` to `t15` zero, what a discard returns to kept. -/
def openRun (s : State) (th : Thread) (n : Nat) : Thread :=
  { th with t := [], run := some { start := th.pc, n := n, pos := 1, pub := publishedOf (wordAt s th.code (th.pc.toNat + 8 * (n + 1))),
                                   g0 := th.g, p0 := th.p, fexc0 := th.spr.fexc, stores := [], nst := 0, late := none, after := [], going := false } }

/-- RUNB (R126, R128). -/
def execRunb (h : Guard) (o : BF) (s : State) : Result :=
  .next (runWord (cfgNR h) (fun e s =>
    let n := o.aux.toNat
    match runFormError s e.th.code e.th.pc.toNat n with
    | some f => (s, .fault f)
    | none => (s, .enter (openRun s e.th n) (e.th.pc + 8))) s)

/-- JMARK (R188): bits of the gangs that hold a lane of the word are replaced. -/
def markMask (width : Nat) (old : Word) (lanes : List Nat) : Word :=
  let m := maskOf lanes
  let w := if 32 ≤ width then 32 else width
  let l := maskOf ((lanes.map fun k => (List.range w).map fun i => gangBase width k + i).flatten)
  (old &&& ~~~l) ||| m

/-- The state change of a word made once, by the leading lane that takes effect. -/
def onceWord (k : WordCfg) (f : Env → State → State) (s : State) : State :=
  runWord k (fun e s => (if e.parts.head? = some (e.sh, e.ln) then f e s else s, .ok wrNone)) s

/-- JMARK (R188). -/
def execJmark (h : Guard) (o : BF) (s : State) : Result :=
  .next (onceWord (cfgNR h) (fun e s =>
    updSheaf s e.sh fun sf =>
      { sf with j := Tab.set 0 sf.j o.aux.toNat (markMask sf.width (Tab.get 0 sf.j o.aux.toNat) (e.parts.map (·.2))) }) s)

/-- The sheaves over which a rejoin mask of a sheaf reaches: itself and the other of a pair. -/
def joinSheaves (s : State) (sh : Nat) : List (Nat × Sheaf) :=
  match sheaf? s sh with
  | none => []
  | some sf =>
    match sf.pair with
    | none => [(sh, sf)]
    | some p =>
      match sheaf? s p with
      | some sp => [(sh, sf), (p, sp)]
      | none => [(sh, sf)]

/-- A lane waits at a JOIN word (R189). -/
def waitsAt (code : Cap) (pc : Word) (th : Thread) : Bool :=
  decide (th.status = .live) && decide (th.code = code) && decide (th.pc = pc) && (match th.hold with
    | some (.join _) => true
    | _ => false)

/-- Every member of a rejoin mask waits at the word, has exited or has departed; empty lanes never count (R176, R189). -/
def joinMet (s : State) (sh n : Nat) (code : Cap) (pc : Word) : Bool :=
  (joinSheaves s sh).all fun x => x.2.lanes.all fun l =>
    !(Tab.get 0 x.2.j n).getLsbD l.1 || decide (l.2.status ≠ .live) || waitsAt code pc l.2

/-- The lanes waiting at a lane's JOIN released together if its condition holds (R189). -/
def tryJoin (s : State) (sh ln : Nat) : State :=
  match thread? s sh ln with
  | some th =>
    match th.hold with
    | some (.join n) =>
      if joinMet s sh n th.code th.pc then
        (joinSheaves s sh).foldl (fun s x => x.2.lanes.foldl (fun s l => if waitsAt th.code th.pc l.2 then resume s x.1 l.1 wrNone else s) s) s
      else s
    | _ => s
  | none => s

/-- JOIN (R189): the lanes arrive, and pass at once where the condition holds. -/
def execJoin (h : Guard) (o : BF) (s : State) : Result :=
  .next (
    let lanes := activeLanes s
    let s1 := runWord (cfgNR h) (fun _ s => (s, .hold (.join (o.aux.toNat % 8)))) s
    lanes.foldl (fun s x => tryJoin s x.1 x.2) s1)

/-- JOIN_RELEASE (R189). -/
def execJoinRelease (sh ln : Nat) (s : State) : Result := .next (tryJoin s sh ln)

/-- YIELD (R236): past the word, then out of the ready set for 16 choices. Log 13 (DEDUCED). -/
def execYield (h : Guard) (_ : BF) (s : State) : Result :=
  .next (runWord (cfgNR h) (fun _ s => (s, .past wrNone (.yielded 16))) s)

/-- EXIT (R123, R237, R387). -/
def execExit (h : Guard) (_ : BF) (s : State) : Result :=
  .next (runWord (cfgNR h) (fun _ s => (s, .exit)) s)

end Sys2Proof.Machine
end

