-- ==== Sys2Proof/Machine/Wire.lean ====
section
/-! DEFINITION. Capabilities on the wire (R428 to R430), the filter of a revoke pass (R334), routes (R426), and sending an access to a peer. -/

namespace Sys2Proof.Machine

/-- The fields of a valid entry of the peer colour table (R429). -/
def pctPeer (w : DWord) : Nat := (w.extractLsb' 34 9).toNat
def pctRemote (w : DWord) : Nat := (w.extractLsb' 22 12).toNat
def pctLocal (w : DWord) : Nat := (w.extractLsb' 10 12).toNat
def pctMask (w : DWord) : BitVec 10 := w.extractLsb' 0 10

/-- The lowest-numbered valid entry that matches (R429). -/
def pctFind (s : State) (p : DWord → Bool) : Option DWord :=
  (s.fabric.pct.find? fun e => decide (e.1 < 1024) && e.2.getLsbD 43 && p e.2).map (·.2)

/-- A capability as it leaves for a peer (R428, R430): CODE is computed only from a tagged capability that holds XDEV (R29). -/
def egress (s : State) (peer : Nat) (c : Cap) : WireCap :=
  match pctFind s fun w => pctPeer w == peer && pctLocal w == capColour c with
  | some w => { bits := (capField c 18 12 (pctRemote w)).bits, home := 1, codeOk := c.tag && capHas c 8 }
  | none => { bits := c.bits, home := 0, codeOk := c.tag && capHas c 8 }

/-- The local colour and the mask the entry gives a capability from a peer (R430). -/
def ingress (s : State) (peer : Nat) (w : WireCap) : Option (Nat × BitVec 10) :=
  let col := capColour { bits := w.bits, tag := true }
  if w.home = 1 then (pctFind s fun x => pctPeer x == peer && pctLocal x == col).map fun x => (col, pctMask x)
  else (pctFind s fun x => pctPeer x == peer && pctRemote x == col).map fun x => (pctLocal x, pctMask x)

/-- A capability compared with the ranges of the revoke pass in progress: it arrives untagged if its BASE lies in one (R334). -/
def rakeFilter (s : State) (c : Cap) : Cap :=
  match s.rake.running with
  | some p =>
    if !p.relocate && p.ranges.any fun r => decide (r.base ≤ capBase c) && decide (capBase c < r.base + r.len)
    then { c with tag := false } else c
  | none => c

/-- A capability carried as data from a peer (R430, R432). -/
def arriving (s : State) (peer : Nat) (w : WireCap) : Cap :=
  match (if w.codeOk then ingress s peer w else none) with
  | some (col, m) =>
    let c := capField { bits := w.bits, tag := true } 18 12 col
    rakeFilter s (capField c 30 10 (capPerm c &&& m).toNat)
  | none => { bits := w.bits, tag := false }

/-- Fold (R219, R426). -/
def fold9 (n : Nat) : Nat := n ^^^ (n / 2 ^ 9) ^^^ (n / 2 ^ 18) ^^^ (n / 2 ^ 27)

/-- A fabric port. -/
def portAt (s : State) (k : Nat) : Port := Tab.get portReset s.fabric.ports k

/-- The ports in state 3 of a peer's route, ascending (R426). -/
def routeOf (s : State) (peer : Nat) : List Nat :=
  (sortBy id (Tab.get [] s.fabric.routes peer)).filter fun k => decide (k < 36) && decide ((portAt s k).state = 3)

/-- The port a packet of an address takes (R426). -/
def portFor (s : State) (peer a : Nat) : Option Nat :=
  let r := routeOf s peer
  if r.isEmpty then none else r[fold9 (a / 128) % r.length]?

/-- Capabilities that crossed a port are counted (R428). -/
def crossed (s : State) (k n : Nat) : State :=
  let p := portAt s k
  { s with fabric := { s.fabric with ports := Tab.put s.fabric.ports k { p with crossed := p.crossed + n } } }

/-- The sender record of a lane (R138). -/
def senderRecord (s : State) (sf : Sheaf) : DWord :=
  BitVec.ofNat 64 (sf.ctx % 256 * 2 ^ 32 + col0 (coloursOf s sf) * 512 + s.fabric.number % 512)

/-- The bytes behind the header of an access that crosses the fabric (R267, R428, R431): the capability it is made through in wire form, the data it carries, and
a capability carried in wire form. Log 36 (DEDUCED). -/
def wireBytes (op : IngressOp) (size : Nat) (coded : Bool) : Nat :=
  (match op with
    | .store => size
    | .storeCap => 16
    | .atom _ => size
    | .cas => 2 * size
    | .csend => 32
    | _ => 0) + (if coded then 64 else 32)

/-- The bytes behind the header of a reply that crosses the fabric, with some bytes of data (R274, R428). Log 36 (DEDUCED). -/
def answerBytes (n : Nat) (ans : PeerAnswer) : Nat := if ans.refused.isSome then 0 else if ans.cap.isSome then n + 32 else n

/-- A packet leaves for a peer through a port (R413, R428): its flits and the capabilities that cross are counted. A tagged capability that is carried crosses in
wire form, an untagged one as data; the new value of a CAS is its second operand. -/
def sendOut (s : State) (m peer : Nat) (op : IngressOp) (c : Cap) (off size : Nat) (data : QWord) (carried : Option Cap) (sender : DWord) : State :=
  let coded := carried.filter (·.tag)
  let data2 := match carried, op with
    | some v, _ => v.bits
    | none, .cas => data >>> 64
    | none, _ => 0
  crossed (countFabric (send s (.peer m peer op (egress s peer c) off size data data2 (coded.map (egress s peer)) sender)) 10
    (flits (wireBytes op size coded.isSome))) m (if coded.isSome then 2 else 1)

/-- An access of a lane to a peer leaves by its port (R274, R426, R431): its lane's earlier stores have performed. Without a route it is
answered void with reason 0x77 (R427). Log 14 (DEDUCED). -/
def sendPeer (s : State) (e : Env) (want : Want) (op : IngressOp) (c : Cap) (a size : Nat) (data : QWord) (carried : Option Cap) (pos : Nat) :
    State × Except Denied Unit :=
  let s1 := drainOwn s e.sh e.ln
  if awaiting s1 e.sh e.ln then (s1, .error (.hold .stall))
  else if !portReady s1 e then (portHolds s1 e, .error (.hold .stall))
  else
    match portFor s1 (devOf a) a with
    | none => (s1, .error (.fault causeGranule 0x77))
    | some m =>
      let s2 := sendOut (packet s1 e (wireBytes op size (carried.any (·.tag)))) m (devOf a) op c ((a + 2 ^ 52 - capBase c) % 2 ^ 52) size data carried (senderRecord s1 e.sf)
      let req : Req := { sh := e.sh, ln := e.ln, want := want, cap := c, addr := a, size := size, data := data, data2 := 0, pos := pos, port := m }
      (updNet s2 fun n => { n with peerReqs := n.peerReqs ++ [req] }, .error (.hold .reply))

/-- A lane's own host-window writes that have not left, and its run's stores, as bytes (R32). -/
def ownHost (s : State) (e : Env) : List (Nat × Nat × QWord) :=
  ownNames s (((s.net.pcieWrites.filter fun p => owns s e.sh e.ln p.who).map fun p => (p.addr, p.size, p.data)) ++ runStores e.th)

/-- A request of a lane to the host: earlier writes of its context leave first (R279, R290). Log 27 (DESIGN CHOICE). -/
def askHost (s : State) (e : Env) (want : Want) (c : Cap) (a n : Nat) (data data2 : QWord) (out : State → Out) : State × LaneRes :=
  let s1 := drainOwn s e.sh e.ln
  if awaiting s1 e.sh e.ln then (s1, .hold .stall)
  else if !portReady s1 e then (portHolds s1 e, .hold .stall)
  else
    let s2 := flushHost (packet s1 e n) e.sf.ctx
    let pos := match want with
      | .sig _ _ => s2.cycle
      | _ => widx e.th
    let req : Req := { sh := e.sh, ln := e.ln, want := want, cap := c, addr := a, size := n, data := data, data2 := data2, pos := pos, port := 0 }
    (updNet (send s2 (out s2)) fun x => { x with pcieReqs := x.pcieReqs ++ [req] }, .hold .reply)

/-- A read request of host memory. -/
def hostReadOut (ctx a n : Nat) (s : State) : Out := .hostRead (ctxAt s ctx).func (localOf a % 2 ^ 41) n

end Sys2Proof.Machine
end

