-- ==== Sys2Proof/Machine/MemOps.lean ====
section
/-! DEFINITION. Loads and stores of global memory (R142 to R144, R274, R292 to R296, R302): LD, ST, LDC, STC, LDW, PREF. -/

namespace Sys2Proof.Machine

/-- The address of an access after the checks of R25, or its fault (R379, R380). -/
def accessAddr (e : Env) (c : Cap) (k : Access) (off : Int) (size align : Nat) : Except FaultInfo Nat :=
  match checkCap e.s.fabric.number (coloursOf e.s e.sf) c k off size align with
  | .ok a => .ok a
  | .error cause => .error (mkFault cause 0 (faultAddr c off size cause))

/-- The capability and the offset of a memory operand. -/
def memCap (e : Env) (o : MF) : Cap := cReg e.th o.cap.toNat

/-- Free bytes, for a value the manual does not state. -/
def freeBytes (s : State) (n : Nat) : List Byte := (List.range n).map fun k => Config.freeByte (s.free + k)

/-- A check of an access that fails late (R27, R431): outside a run the lane faults; in a run it faults at the trailer and its register holds no
value the manual states. -/
def lateFault (s : State) (e : Env) (cause reason : Byte) (addr size : Nat) (fin : List Byte → Bool → Wr) : State × LaneRes :=
  match e.th.run with
  | none => (s, .fault (mkFault cause reason addr))
  | some r =>
    let s1 := updThread s e.sh e.ln fun th =>
      { th with run := th.run.map fun q => { q with late := q.late.or (some { cause := cause, reason := reason, addr := addr, pos := r.pos }) } }
    ({ s1 with free := s1.free + size }, .ok (fin (freeBytes s1 size) false))

/-- What a refused or waiting access does to its lane. -/
def denied (s : State) (e : Env) (d : Denied) (addr size : Nat) (fin : List Byte → Bool → Wr) : State × LaneRes :=
  match d with
  | .fault c r => lateFault s e c r addr size fin
  | .hold h => (s, .hold h)

/-- A load from the host window (R32, R274): own bytes from the lane's own writes, else a read request whose completion the host supplies. -/
def loadHost (s : State) (e : Env) (want : Want) (c : Cap) (a n : Nat) (fin : List Byte → Bool → Wr) : State × LaneRes :=
  let own := (List.range n).map fun k => storedByte (ownHost s e) (ownAddr s.fabric.number a + k)
  if own.all (·.isSome) && !own.isEmpty then (s, .ok (fin (own.map (·.getD 0)) false))
  else askHost s e want c a n 0 0 (hostReadOut e.sf.ctx a n)

/-- A load by a lane at a checked address (R274, R293). A device register gives a value the manual does not state.
Log 16 (DESIGN CHOICE). -/
def loadAny (s : State) (e : Env) (want : Want) (op : IngressOp) (c : Cap) (a n hint : Nat) (fin : List Byte → Bool → Wr) : State × LaneRes :=
  match regionOf s.fabric.number a with
  | .hbm =>
    match loadHbm s e a n (capColour c) hint (capKind c = 4) with
    | (s1, .ok (b, t)) => (s1, .ok (fin b t))
    | (s1, .error d) => denied s1 e d a n fin
  | .host => loadHost s e want c a n fin
  | .windows => (s, .fault (mkFault causePerm 0 a))
  | .regs =>
    let s1 := drainOwn s e.sh e.ln
    if awaiting s1 e.sh e.ln then (s1, .hold .stall)
    else if !portReady s1 e then (portHolds s1 e, .hold .stall)
    else ({ packet s1 e 0 with free := s1.free + n }, .ok (fin (under (runBytes s1 e.th a n) (freeBytes s1 n)) false))
  | .peer =>
    match sendPeer s e want op c a n 0 none (widx e.th) with
    | (s1, .error d) => denied s1 e d a n fin
    | (s1, .ok _) => (s1, .hold .reply)

/-- A capability made of 16 bytes and their tag, filtered during a revoke pass (R144, R334). -/
def capOfBytes (s : State) (b : List Byte) (t : Bool) : Cap := rakeFilter s { bits := BitVec.ofNat 128 (ofBytes b), tag := t }

/-- The granules of a structure as bytes and tags. -/
def granuleBytes (l : List Cap) : List Byte × List Bool := (l.flatMap fun c => toBytes 16 c.bits.toNat, l.map (·.tag))

/-- The granules of structures that a lane's word has read so far. -/
def bufOf (s : State) (e : Env) : List Cap := ((thread? s e.sh e.ln).map fun (th : Thread) => th.buf).getD []

/-- A lane's word is done with what it has read. -/
def dropBuf (s : State) (e : Env) : State := updThread s e.sh e.ln fun th => { th with buf := [] }

/-- One granule of a structure (R246, R321): in local HBM by a load, elsewhere by a request of its own. A tag cannot come from the host. A device register gives
values the manual does not state. Log 16 (DESIGN CHOICE). -/
def readGranule (s : State) (e : Env) (want : Want) (c : Cap) (a : Nat) : State × Except Denied Cap :=
  match regionOf s.fabric.number a with
  | .hbm =>
    match loadHbm s e a 16 (capColour c) 0 false with
    | (s1, .ok (b, t)) => (s1, .ok (rakeFilter s1 { bits := BitVec.ofNat 128 (ofBytes b), tag := t }))
    | (s1, .error d) => (s1, .error d)
  | .peer =>
    match sendPeer s e want .loadCap c a 16 0 none 0 with
    | (s1, .error d) => (s1, .error d)
    | (s1, .ok _) => (s1, .error (.hold .reply))
  | .host =>
    match askHost s e want c a 16 0 0 (hostReadOut e.sf.ctx a 16) with
    | (s1, .hold h) => (s1, .error (.hold h))
    | (s1, _) => (s1, .error (.hold .stall))
  | _ => ({ s with free := s.free + 16 }, .ok { bits := BitVec.ofNat 128 (ofBytes (freeBytes s 16)), tag := false })

/-- Granules of a structure read one after another until its lane has `n` beyond the first `skip`: each is read once. -/
def readGranules (e : Env) (want : Want) (c : Cap) (a skip n : Nat) : Nat → State → State × Except Denied Unit
  | 0, s => (s, .ok ())
  | k + 1, s =>
    let got := (bufOf s e).length
    if skip + n ≤ got then (s, .ok ())
    else
      match readGranule s e want c (a + 16 * (got - skip)) with
      | (s1, .ok v) => readGranules e want c a skip n k (updThread s1 e.sh e.ln fun th => { th with buf := th.buf ++ [v] })
      | (s1, .error d) => (s1, .error d)

/-- A part of what a word reads: `n` granules, after `skip` that it has read before. -/
def readPart (s : State) (e : Env) (want : Want) (c : Cap) (a skip n : Nat) : State × Except Denied (List Cap) :=
  match readGranules e want c a skip n n s with
  | (s1, .ok _) => (s1, .ok (((bufOf s1 e).drop skip).take n))
  | (s1, .error d) => (s1, .error d)

/-- The bytes of a structure of `n` granules and their tags as a lane reads them (R246, R321). -/
def readStruct (s : State) (e : Env) (c : Cap) (a n : Nat) : State × Except Denied (List Byte × List Bool) :=
  match readPart s e .struct c a 0 n with
  | (s1, .ok l) => (dropBuf s1 e, .ok (granuleBytes l))
  | (s1, .error d) => (s1, .error d)

/-- LD (R143). -/
def execLd (h : Guard) (o : MF) (s : State) : Result :=
  .next (runWord (cfg h) (fun e s =>
    let n := szBytes o.sz
    match accessAddr e (memCap e o) accLoad (memOff e o) n n with
    | .error f => (s, .fault f)
    | .ok a => loadAny s e (.load o.d o.sz) .load (memCap e o) a n o.rh.toNat fun b _ => extendLoad o.d o.sz (ofBytes b)) s)

/-- LDC (R144). -/
def execLdc (h : Guard) (o : MF) (s : State) : Result :=
  .next (runWord (cfg h) (fun e s =>
    match accessAddr e (memCap e o) accLoadCap (memOff e o) 16 16 with
    | .error f => (s, .fault f)
    | .ok a => loadAny s e (.loadCap (o.d.toNat % 32)) .loadCap (memCap e o) a 16 o.rh.toNat fun b t => wrCap (o.d.toNat % 32) (capOfBytes s b t)) s)

/-- A store that a thread sends (R127, R273): what it writes and how. -/
structure StoreOp where
  cap : Cap
  addr : Nat
  size : Nat
  data : QWord
  value : Cap
  carries : Bool
  hint : Nat
  rel : Bool
  sys : Bool
  deriving DecidableEq, Repr

/-- A store posted on its way to its home slice, with the logical time of its core (R267, R273). Log 3 (DEDUCED). -/
def postStore (s : State) (e : Env) (x : StoreOp) (kind : StoreKind) : State :=
  let p : PStore := { sh := e.sh, ln := e.ln, who := whoOf e.sf e.th, core := coreOf e.sh, pts := (coreAt s (coreOf e.sh)).pts, addr := x.addr,
                      size := x.size, data := x.data, tagged := x.carries && x.value.tag, cap := x.cap, hint := x.hint, kind := kind, pos := widx e.th,
                      seq := s.nextId }
  updNet (stamp s) fun n => { n with stores := n.stores ++ [p] }

/-- A write to the host window is queued at the PCIe interface (R290). -/
def postHost (s : State) (e : Env) (cap : Cap) (a n : Nat) (data : QWord) : State :=
  let p : PStore := { sh := e.sh, ln := e.ln, who := whoOf e.sf e.th, core := coreOf e.sh, pts := 0, addr := a, size := n, data := data, tagged := false,
                      cap := cap, hint := 0, kind := .plain, pos := 0, seq := s.nextId }
  updNet (stamp s) fun x => { x with pcieWrites := x.pcieWrites ++ [p] }

/-- A store leaves its thread (R274, R293): to its home slice, to the host, to a device register or to a peer; or the lane must wait first.
Log 16 (DESIGN CHOICE). -/
def sendStore (s : State) (e : Env) (x : StoreOp) : State × Except Denied Unit :=
  match regionOf s.fabric.number x.addr with
  | .hbm =>
    if awaiting s e.sh e.ln then (s, .error (.hold .stall))
    else if !portReady s e then (portHolds s e, .error (.hold .stall))
    else (postStore (packet s e x.size) e x (if capKind x.cap = 4 then .stackLine else .plain), .ok ())
  | .windows => (s, .error (.fault causePerm 0))
  | .peer => sendPeer s e .store (if x.carries then .storeCap else .store) x.cap x.addr x.size x.data (if x.carries && x.value.tag then some x.value else none) 0
  | r =>
    let s1 := drainOwn s e.sh e.ln
    if awaiting s1 e.sh e.ln then (s1, .error (.hold .stall))
    else if !portReady s1 e then (portHolds s1 e, .error (.hold .stall))
    else if r = .host then (postHost (packet s1 e x.size) e x.cap x.addr x.size x.data, .ok ())
    else (send (packet s1 e x.size) (.regWrite x.addr (toBytes x.size x.data.toNat)), .ok ())

/-- A stack store that the quadrant's stack cache serves under a valid lease makes no new GranuleCheck (R125, R451). -/
def servedStore (s : State) (e : Env) (cap : Cap) (a : Nat) : Bool :=
  decide (capKind cap = 4) && (stackHit s (quadOf e.sh) (localOf a) (capColour cap)).isSome

/-- GranuleCheck of a store before it leaves its run (R129, R451). -/
def storeCheck (s : State) (e : Env) (x : StoreOp) : State × Except Denied Unit :=
  if regionOf s.fabric.number x.addr = .hbm ∧ !servedStore s e x.cap x.addr then
    match granuleCheck s (localOf x.addr) (capColour x.cap) with
    | .pass => (s, .ok ())
    | .fail => (s, .error (.fault causeGranule 0x75))
    | .transit => (updNet s fun n => { n with held := n.held ++ [.lane e.sh e.ln (localOf x.addr / 2 ^ 21)] }, .error (.hold .transit))
  else (s, .ok ())

/-- Before a lane's access takes effect its watch entries are resolved; a release also makes the FENCE step of its scope (R282, R295).
Log 15 (DEDUCED). -/
def resolveThen (s : State) (e : Env) (rel sys : Bool) (go : State → State × LaneRes) : State × LaneRes :=
  match (if rel then releaseStep s e.sh e.ln sys else resolveWatch s e.sh e.ln) with
  | (s1, .pending) => (s1, .hold .stall)
  | (s1, .struck) => (s1, .repair)
  | (s1, .clear) => go s1

/-- A store word in a lane (R127, R129, R184): buffered in a run; alone it is a run of its own. -/
def storeLane (s : State) (e : Env) (x : StoreOp) (scope : Nat) : State × LaneRes :=
  match e.th.run with
  | some r =>
    let b : RunStore := { scratch := false, addr := x.addr, size := x.size, data := x.data, tagged := x.carries && x.value.tag, colour := capColour x.cap,
                          cap := x.cap, hint := x.hint, rel := x.rel, scope := scope, pos := r.pos, checked := false }
    (updThread s e.sh e.ln fun th => { th with run := th.run.map fun q => { q with stores := q.stores ++ [b] } }, .ok wrNone)
  | none =>
    match storeCheck s e x with
    | (s1, .error d) => denied s1 e d x.addr 0 fun _ _ => wrNone
    | (s1, .ok _) =>
      let go := fun (s : State) => match sendStore s e x with
        | (s2, .ok _) => (s2, LaneRes.ok wrNone)
        | (s2, .error d) => denied s2 e d x.addr 0 fun _ _ => wrNone
      if x.rel then resolveThen s1 e true x.sys go else go s1

/-- The order code of a memory word is a release (R63). -/
def isRelease (o : MF) : Bool := o.ord.getLsbD 1

/-- A store word of global memory; its lanes take effect in any order (R294). -/
def storeWord (h : Guard) (o : MF) (acc : Env → Access) (n : Nat) (data : Env → QWord × Option Cap) (s : State) : Result :=
  .next (bump (runWordIn (freeOrder s) { cfg h with store := true, resolve := isRelease o } (fun e s =>
    match accessAddr e (memCap e o) (acc e) (memOff e o) n n with
    | .error f => (s, .fault f)
    | .ok a =>
      let d := data e
      storeLane s e { cap := memCap e o, addr := a, size := n, data := d.1, value := d.2.getD nullCap, carries := d.2.isSome, hint := o.rh.toNat,
                      rel := isRelease o, sys := o.scope = 3#2 } o.scope.toNat) s))

/-- ST (R143). -/
def execSt (h : Guard) (o : MF) (s : State) : Result :=
  storeWord h o (fun _ => accStore) (szBytes o.sz) (fun e => (dataReg e o.d (szBytes o.sz), none)) s

/-- The capability STC stores. -/
def stcValue (e : Env) (o : MF) : Cap := cReg e.th (o.d.toNat % 32)

/-- STC (R144). -/
def execStc (h : Guard) (o : MF) (s : State) : Result :=
  storeWord h o (fun e => accStoreCap (stcValue e o)) 16 (fun e => ((stcValue e o).bits, some (stcValue e o))) s

/-- The watch entry of a lane on a line. -/
def watchOf (s : State) (sh ln line : Nat) : Option Watch :=
  (coreAt s (coreOf sh)).watch.find? fun e => e.sh = sh ∧ e.ln = ln ∧ e.line = line

/-- A copy whose lease has run out but whose sector and colour serve the access. -/
def staleCopy (s : State) (k l colour : Nat) : Option Copy :=
  match Tab.at? (coreAt s k).dcache (lineOf l) with
  | some cp => if cp.valid.getLsbD (l / 64 % 2) ∧ cp.colour = colour ∧ cp.rts < (coreAt s k).pts then some cp else none
  | none => none

/-- A reply on its way back would not cover a load made now (R280). Log 66 (DEDUCED). -/
def replyShort (s : State) (k line : Nat) : Bool :=
  s.net.replies.any fun r => decide (r.core = k) && decide (r.line = line) && decide (r.rts < (coreAt s k).pts)

/-- A watched load enters a line: its entry, and a Renew if none is outstanding for the line (R276); one that has not reached its home yet covers the
load as well (R280). Log 66 (DEDUCED). -/
def enterWatch (s : State) (e : Env) (l colour hint : Nat) (cp : Copy) : State :=
  let k := coreOf e.sh
  let pts := (coreAt s k).pts
  let w : Watch := { sh := e.sh, ln := e.ln, line := lineOf l, w := cp.wts, pts := pts, struck := false, inRun := e.th.run.isSome }
  let s1 := updCore s k fun c => { c with watch := c.watch ++ [w] }
  if renewOut s k (lineOf l) then
    updNet s1 fun n => { n with renews := n.renews.map fun r => if r.core = k ∧ r.line = lineOf l then { r with pts := max r.pts pts } else r }
  else
    let r : Renew := { core := k, line := lineOf l, pts := pts, w := some cp.wts, colour := colour, hint := hint, sector := l / 64 % 2,
                       seq := s.nextId }
    updNet (packet (stamp s1) e 0) fun n => { n with renews := n.renews ++ [r] }

/-- LDW of local HBM (R276, R296): a stale copy's data at once with an entry, or a plain load. Log 2 (DEDUCED), 66 (DEDUCED). -/
def watchLoad (s : State) (e : Env) (o : MF) (a n : Nat) (fin : List Byte → Bool → Wr) : State × LaneRes :=
  let l := localOf a
  let k := coreOf e.sh
  let col := capColour (memCap e o)
  let plain := fun (s : State) => loadAny s e (.load o.d o.sz) .load (memCap e o) a n o.rh.toNat fin
  if (ownBytes s e a n).all (·.isSome) ∨ o.rh = 3#2 then plain s
  else
    let s1 := drainTeam (drainOwn s e.sh e.ln) k (lineOf l)
    if awaiting s1 e.sh e.ln || clusterBusy s1 k a n then (s1, .hold .stall)
    else
      match staleCopy s1 k l col with
      | none => plain s1
      | some cp =>
        let out := LaneRes.ok (fin (under (runBytes s1 e.th a n) (copyBytes cp.data (l % 128) n)) false)
        if (watchOf s1 e.sh e.ln (lineOf l)).isSome then (s1, out)
        else if 512 ≤ (coreAt s1 k).watch.length ∨ 8 ≤ watchPending s1 e.sh e.ln + watchStruck s1 e.sh e.ln then plain s1
        else if replyShort s1 k (lineOf l) then (s1, .hold .stall)
        else if !renewOut s1 k (lineOf l) && !portReady s1 e then (portHolds s1 e, .hold .stall)
        else
          match granuleCheck s1 l col with
          | .fail => lateFault s1 e causeGranule 0x74 a n fin
          | .transit => (updNet s1 fun x => { x with held := x.held ++ [.lane e.sh e.ln (l / 2 ^ 21)] }, .hold .transit)
          | .pass => (enterWatch s1 e l col o.rh.toNat cp, out)

/-- LDW (R296). -/
def execLdw (h : Guard) (o : MF) (s : State) : Result :=
  .next (runWord (cfg h) (fun e s =>
    let n := szBytes o.sz
    let fin := fun (b : List Byte) (_ : Bool) => extendLoad o.d o.sz (ofBytes b)
    match accessAddr e (memCap e o) accLoad (memOff e o) n n with
    | .error f => (s, .fault f)
    | .ok a =>
      if regionOf s.fabric.number a = .hbm then watchLoad s e o a n fin
      else loadAny s e (.load o.d o.sz) .load (memCap e o) a n o.rh.toNat fin) s)

/-- A line asked for by a PREF (R302), at a checked address of local HBM. -/
def prefAsk (s : State) (e : Env) (l colour hint : Nat) : State :=
  let k := coreOf e.sh
  let w := match Tab.at? (coreAt s k).dcache (lineOf l) with
    | some cp => if cp.valid.getLsbD (l / 64 % 2) then some cp.wts else none
    | none => none
  let r : Renew := { core := k, line := lineOf l, pts := (coreAt s k).pts, w := w, colour := colour, hint := hint, sector := l / 64 % 2, seq := s.nextId }
  if granuleCheck s l colour = .transit then updNet (packet (stamp s) e 0) fun n => { n with held := n.held ++ [.renew r] }
  else updNet (packet (stamp s) e 0) fun n => { n with renews := n.renews ++ [r] }

/-- PREF in a lane (R302): a line asked for; nothing where a check of R25 fails, where the copy serves, or where GranuleCheck fails. One at a granule in transit is
held at the home (R27). -/
def prefLane (s : State) (e : Env) (o : MF) : State × LaneRes :=
  match accessAddr e (memCap e o) accLoad (memOff e o) 1 1 with
  | .error _ => (s, .ok wrNone)
  | .ok a =>
    let l := localOf a
    let k := coreOf e.sh
    let col := capColour (memCap e o)
    let out := s.net.renews.any fun r => decide (r.core = k) && decide (r.line = lineOf l) && decide (r.sector = l / 64 % 2)
    if regionOf s.fabric.number a ≠ .hbm ∨ (o.rh ≠ 3#2 ∧ ((cacheHit s k l col).isSome ∨ out)) then (s, .ok wrNone)
    else if !portReady s e then (portHolds s e, .hold .stall)
    else (if granuleCheck s l col = .fail then packet s e 0 else prefAsk s e l col o.rh.toNat, .ok wrNone)

/-- PREF (R302). -/
def execPref (h : Guard) (o : MF) (s : State) : Result := .next (runWord (cfg h) (fun e s => prefLane s e o) s)

end Sys2Proof.Machine
end

