-- ==== Sys2Proof/Machine/Atom.lean ====
section
/-! DEFINITION. CAS and ATOM (R145 to R147, R285, R293), CASS and ATOMS on scratch (R305, R306), LDS and STS (R303, R304), and BANKCFG (R307). -/

namespace Sys2Proof.Machine

/-- What an atomic does: an operation of R146 by its number with its operand, or a compare and swap. -/
inductive Rmw where
  | op (k : Nat) (v : Nat)
  | cas (old new : Nat)
  deriving DecidableEq, Repr

/-- The new value of an operation of R146 on `n` bytes, with its flags (R53, R146). -/
def atomNew (k n x v : Nat) : Nat × Word :=
  let w := 8 * n
  let t := if n = 8 then 14 else 2
  let sx := signedOf w x
  let sv := signedOf w v
  match k with
  | 0 => ((x + v) % 2 ^ w, 0)
  | 1 => (if sx ≤ sv then x else v, 0)
  | 2 => (if sx ≤ sv then v else x, 0)
  | 3 => (min x v, 0)
  | 4 => (max x v, 0)
  | 5 => (x &&& v, 0)
  | 6 => (x ||| v, 0)
  | 7 => (x ^^^ v, 0)
  | 8 => (v, 0)
  | 9 => addBits t 0 false x v
  | 10 => minMaxBits false t false x v
  | 11 => minMaxBits true t false x v
  | _ => (if v ≤ x then 0 else x + 1, 0)

/-- What is written in place of an old value: nothing where a compare fails (R145). -/
def Rmw.next (r : Rmw) (n x : Nat) : Option Nat :=
  match r with
  | .op k v => some (atomNew k n x v).1
  | .cas old new => if x = old then some new else none

/-- The flags an atomic raises. -/
def Rmw.flags (r : Rmw) (n x : Nat) : Word :=
  match r with
  | .op k v => (atomNew k n x v).2
  | .cas _ _ => 0

/-- What the lane receives: the old value, and flags; nothing with `.N` (R145, R146). -/
def rmwWr (r : Rmw) (n : Nat) (d : BitVec 8) (keep : Bool) (x : Nat) : Wr :=
  if keep then wrNone
  else wrFlags (if n = 8 then wrPair d (BitVec.ofNat 64 x) else wrReg d (BitVec.ofNat 32 x)) (r.flags n x)

/-- An access held at a granule in transit (R27). -/
def heldLane (s : State) (e : Env) (l : Nat) : State := updNet s fun x => { x with held := x.held ++ [.lane e.sh e.ln (l / 2 ^ 21)] }

/-- An atomic at the home slice of its line (R273, R279). Log 14 (DEDUCED). -/
def rmwHome (s0 : State) (e : Env) (c : Cap) (a n hint : Nat) (r : Rmw) : State × Except Denied Nat :=
  let l := localOf a
  let k := coreOf e.sh
  if !portReady s0 e then (portHolds s0 e, .error (.hold .stall))
  else
    let s := request s0 e (lineOf l) n
    match granuleCheck s l (capColour c) with
    | .fail => (s, .error (.fault causeGranule 0x74))
    | .transit => (heldLane s0 e l, .error (.hold .transit))
    | .pass =>
      let x := ofBytes (readMem s.mem l n)
      let s1 := countSlice s (lineOf l) (capColour c)
      match r.next n x with
      | some v =>
        let w := homeWrite s1 (coreAt s k).pts l (toBytes n v) false hint
        (copiesNow w.1 k l w.2 hint, .ok x)
      | none =>
        let t := homeRead s1 (lineOf l) (coreAt s k).pts hint
        (raisePts t.1 k t.2, .ok x)

/-- The value a team-scope atomic finds: the core's copy under the stores of its atomics not yet acknowledged (R285). -/
def teamValue (s : State) (k a n : Nat) (b : List Byte) : Nat :=
  let pending := (s.net.stores.filter fun p => p.core = k ∧ p.kind = .teamAtomic) ++
    (s.net.held.filterMap fun h => match h with
      | .store p => if p.core = k ∧ p.kind = .teamAtomic then some p else none
      | _ => none)
  let l := ownNames s (pending.map fun p => (p.addr, p.size, p.data))
  ofBytes ((List.range n).map fun i => (storedByte l (ownAddr s.fabric.number a + i)).getD (b.getD i 0))

/-- The copy of a core with no CACHE bank that serves a team-scope atomic under a valid lease (R293, R451). -/
def bufferHit (s : State) (k l colour : Nat) : Option Copy :=
  match Tab.at? (coreAt s k).atoms (lineOf l) with
  | some cp => if cp.colour = colour ∧ (coreAt s k).pts ≤ cp.rts then some cp else none
  | none => none

/-- The line a fill of the atomic buffer takes the place of: none where one is free (R293); nothing while the buffer is full of lines with stores on their way. -/
def bufferPlace (s : State) (k line : Nat) : Option (Option Nat) :=
  let c := coreAt s k
  let busy := fun (x : Nat) => s.net.stores.any fun p => decide (p.core = k) && decide (p.kind = .teamAtomic) && decide (lineOf (localOf p.addr) = x)
  if (Tab.at? c.atoms line).isSome ∨ c.atoms.length < 8 then some none
  else (minPos ((c.atoms.filter fun e => !busy e.1).map fun e => (e.1, e.2.used))).map fun x => some x.1

/-- The line filled or renewed in the atomic buffer (R293). -/
def bufferFill (s : State) (k l n colour hint : Nat) (victim : Option Nat) : State × List Byte :=
  let line := lineOf l
  let r := homeRenew (stamp (countSlice s line colour)) line (coreAt s k).pts hint
  let d := lineData r.1 line
  let cp : Copy := { data := d, tags := lineTags r.1 line, wts := r.2.wts, rts := r.2.rts, colour := colour, valid := 3, hint := hint, bank := 0, used := s.nextId }
  (countStrikes s (updCore r.1 k fun c =>
    let c1 := resolveLine { c with pts := max c.pts r.2.wts } line r.2.wts r.2.rts
    { c1 with atoms := Tab.put (match victim with
        | some v => Tab.drop c1.atoms v
        | none => c1.atoms) line cp }) k, copyBytes d (l % 128) n)

/-- The copy on which a team-scope atomic works, under a valid lease (R285, R293, R451). -/
def teamHit (s : State) (k l colour : Nat) : Option Copy :=
  if (cacheBanks (coreAt s k)).isEmpty then bufferHit s k l colour else cacheHit s k l colour

/-- The bytes of a team-scope atomic's line at its core, filled or renewed where no copy serves it; none while the atomic buffer is full. -/
def teamLine (s : State) (k l n colour hint : Nat) : Option (State × List Byte) :=
  if (cacheBanks (coreAt s k)).isEmpty then
    match bufferHit s k l colour with
    | some cp => some (raisePts s k cp.wts, copyBytes cp.data (l % 128) n)
    | none => (bufferPlace s k (lineOf l)).map (bufferFill s k l n colour hint)
  else
    let y := lineLoad s k l n colour hint
    some (y.1, y.2.1)

/-- A team-scope atomic (R285): on the core's copy, its new value sent home as a store. Log 19 (DEDUCED). -/
def rmwTeam (s : State) (e : Env) (c : Cap) (a n hint : Nat) (r : Rmw) : State × Except Denied Nat :=
  let l := localOf a
  let k := coreOf e.sh
  if clusterBusy s k a n then (s, .error (.hold .stall))
  else if !portReady s e then (portHolds s e, .error (.hold .stall))
  else
    let go := fun (s : State) =>
      match teamLine s k l n (capColour c) hint with
      | none => (s, Except.error (Denied.hold .stall))
      | some (s1, b) =>
        let x := teamValue s1 k a n b
        match r.next n x with
        | some v => (postStore (packet s1 e n) e { cap := c, addr := a, size := n, data := BitVec.ofNat 128 v, value := nullCap, carries := false, hint := hint,
                                                   rel := false, sys := false } .teamAtomic, .ok x)
        | none => (s1, .ok x)
    if (teamHit s k l (capColour c)).isSome then go s
    else
      match granuleCheck s l (capColour c) with
      | .fail => (packet s e 0, .error (.fault causeGranule 0x74))
      | .transit => (heldLane s e l, .error (.hold .transit))
      | .pass => go (request s e (lineOf l) 0)

/-- A cluster unit. -/
def clusterAt (s : State) (cl : Nat) : Cluster := Tab.get clusterReset s.clusters cl

/-- The state with a cluster unit changed. -/
def updCluster (s : State) (cl : Nat) (f : Cluster → Cluster) : State := { s with clusters := Tab.put s.clusters cl (f (clusterAt s cl)) }

/-- A cluster unit holds a line for a colour and the place of the core that asks (R32, R285, R293, R451): present under its lease, or filled by a load for
that core; the reason why it cannot otherwise. Log 19 (DEDUCED). -/
def clusterFill (s0 : State) (e : Env) (cl l colour hint : Nat) : State × Except Denied Unit :=
  let line := lineOf l
  let u := clusterAt s0 cl
  let fill := fun (u : Cluster) =>
    if !mayInject s0 (448 + cl) e.sf.ctx then (holdPort s0 (448 + cl) e.sf.ctx, Except.error (Denied.hold .stall))
    else
      let s := inject s0 (448 + cl) e.sf.ctx (flits 0)
      match granuleCheck s l colour with
      | .fail => (s, Except.error (Denied.fault causeGranule 0x74))
      | .transit => (heldLane s0 e l, Except.error (Denied.hold .transit))
      | .pass =>
        let r := homeRenew (stamp (countSlice s line colour)) line (coreAt s (coreOf e.sh)).pts hint
        let x : CaLine := { data := lineData r.1 line, tags := lineTags r.1 line, wts := r.2.wts, rts := r.2.rts, colour := colour, outstanding := false, sent := [],
                            waiting := [], used := s.nextId }
        ({ r.1 with clusters := Tab.put r.1.clusters cl { u with lines := Tab.put u.lines line x } }, Except.ok ())
  match Tab.at? u.lines line with
  | some x => if x.colour = colour ∧ (coreAt s0 (coreOf e.sh)).pts ≤ x.rts then (s0, .ok ()) else if x.outstanding then (s0, .error (.hold .stall)) else fill u
  | none =>
    if u.lines.length < 64 then fill u
    else
      match minPos ((u.lines.filter fun y => !y.2.outstanding).map fun y => (y.1, y.2.used)) with
      | some v => fill { u with lines := Tab.drop u.lines v.1 }
      | none => (s0, .error (.hold .stall))

/-- The updates of a line that wait go out in one conditional write-back, if none is outstanding (R285). -/
def sendWriteBack (s : State) (cl line : Nat) : State :=
  match Tab.at? (clusterAt s cl).lines line with
  | none => s
  | some x =>
    if x.outstanding ∨ x.waiting.isEmpty then s
    else
      let s1 := updCluster s cl fun u => { u with lines := Tab.put u.lines line { x with outstanding := true, sent := x.waiting, waiting := [] } }
      updNet s1 fun n => { n with wbs := n.wbs ++ [{ cluster := cl, line := line, data := x.data, wts := x.wts, colour := x.colour }] }

/-- A cluster-scope atomic (R285): on the cluster unit's value, which is a load by the core. Log 19 (DEDUCED). -/
def rmwCluster (s : State) (e : Env) (c : Cap) (a n hint : Nat) (r : Rmw) : State × Except Denied Nat :=
  let l := localOf a
  let cl := clusterOfCore (coreOf e.sh)
  if !portReady s e then (portHolds s e, .error (.hold .stall))
  else
  match clusterFill (packet s e n) e cl l (capColour c) hint with
  | (s1, .error (.hold h)) => (if h = .transit then s1 else s, .error (.hold h))
  | (s1, .error d) => (s1, .error d)
  | (s1, .ok _) =>
    match Tab.at? (clusterAt s1 cl).lines (lineOf l) with
    | none => (s1, .error (.hold .stall))
    | some x =>
      let v0 := ofBytes (copyBytes x.data (l % 128) n)
      let s2 := raisePts s1 (coreOf e.sh) x.wts
      match r.next n v0 with
      | none => (s2, .ok v0)
      | some v =>
        let upd : Upd := { sh := e.sh, ln := e.ln, who := whoOf e.sf e.th, addr := a, colour := capColour c }
        let x1 := { x with data := patchLine x.data (l % 128) (toBytes n v), waiting := x.waiting ++ [upd], used := s2.nextId }
        (sendWriteBack (updCluster (stamp s2) cl fun u => { u with lines := Tab.put u.lines (lineOf l) x1 }) cl (lineOf l), .ok v0)

/-- The operands of an atomic as a request carries them: the operand or expected value low, the new value of a CAS high. -/
def rmwData (r : Rmw) : QWord :=
  match r with
  | .op _ v => BitVec.ofNat 128 v
  | .cas old new => BitVec.ofNat 128 (old + new * 2 ^ 64)

/-- The request an atomic makes of another unit. -/
def rmwWant (r : Rmw) (n : Nat) (d : BitVec 8) (keep : Bool) : Want :=
  match r with
  | .op k _ => .atom d k (n = 8) keep
  | .cas _ _ => .cas d (n = 8)

/-- The operation a peer or the host is asked for: 13 stands for CAS beside the numbers of R146. -/
def rmwCode (r : Rmw) : Nat :=
  match r with
  | .op k _ => k
  | .cas _ _ => 13

/-- An atomic of a lane at a checked address, by region and scope (R147, R285, R293). -/
def rmwAny (s : State) (e : Env) (c : Cap) (a n hint scope : Nat) (d : BitVec 8) (keep : Bool) (r : Rmw) : State × LaneRes :=
  let s1 := drainOwn s e.sh e.ln
  let fin := fun (b : List Byte) (_ : Bool) => rmwWr r n d keep (ofBytes b)
  if awaiting s1 e.sh e.ln then (s1, .hold .stall)
  else
    match regionOf s.fabric.number a with
    | .hbm =>
      match (if scope = 0 then rmwTeam s1 e c a n hint r else if scope = 1 then rmwCluster s1 e c a n hint r else rmwHome s1 e c a n hint r) with
      | (s2, .ok x) => (s2, .ok (rmwWr r n d keep x))
      | (s2, .error x) => denied s2 e x a n fin
    | .host => askHost s1 e (rmwWant r n d keep) c a n (rmwData r) (rmwData r >>> 64) fun s =>
        .hostAtomic (ctxAt s e.sf.ctx).func (localOf a % 2 ^ 41) n (rmwCode r) (rmwData r) (rmwData r >>> 64)
    | .windows => (s1, .fault (mkFault causePerm 0 a))
    | .regs => (s1, .fault (mkFault causePerm 0 a))
    | .peer =>
      let op := match r with
        | .op k _ => IngressOp.atom (BitVec.ofNat 4 k)
        | .cas _ _ => .cas
      match sendPeer s1 e (rmwWant r n d keep) op c a n (rmwData r) none 0 with
      | (s2, .error x) => denied s2 e x a n fin
      | (s2, .ok _) => (s2, .hold .reply)

/-- The atomics the host window carries as AtomicOps: ADD, XCHG and CAS (R147). -/
def hostTakes (r : Rmw) : Bool :=
  match r with
  | .op k _ => k == 0 || k == 8
  | .cas _ _ => true

/-- The order of the lanes of an atomic word: ascending at team and cluster scope, any order at device and system scope (R294).
Log 12 (DEDUCED). -/
def atomOrder (s : State) (scope : Nat) : List (Nat × Nat) → List (Nat × Nat) := if scope ≤ 1 then id else freeOrder s

/-- An atomic word of global memory (R145, R146, R282). -/
def atomWord (h : Guard) (o : MF) (keep : Bool) (r : Env → Nat → Rmw) (s : State) : Result :=
  .next (bump (runWordIn (atomOrder s o.scope.toNat) { cfgNR h with resolve := true } (fun e s =>
    let n := szBytes o.sz
    let x := r e n
    match accessAddr e (memCap e o) (accAtomic (hostTakes x)) (memOff e o) n n with
    | .error f => (s, .fault f)
    | .ok a => resolveThen s e (isRelease o) (o.scope = 3#2) fun s => rmwAny s e (memCap e o) a n o.rh.toNat o.scope.toNat o.d keep x) s))

/-- The operand of an atomic: a register or a pair (R146). -/
def atomOperand (e : Env) (d : BitVec 8) (n : Nat) : Nat := (dataReg e d n).toNat % 2 ^ (8 * n)

/-- Expected and new value of a compare and swap (R145). -/
def casOperands (e : Env) (d : BitVec 8) (n : Nat) : Rmw :=
  if n = 8 then .cas (codePair e d).toNat (codePair e (d + 2)).toNat else .cas (readCode e d.toNat).toNat (readCode e (d.toNat + 1)).toNat

/-- CAS (R145). -/
def execCas (h : Guard) (o : MF) (s : State) : Result := atomWord h o false (fun e n => casOperands e o.d n) s

/-- An ATOM word by the number of its operation; its hint is the default, for RH carries N (R142). -/
def atomOp (h : Guard) (o : MF) (k : Nat) (s : State) : Result :=
  atomWord h { o with rh := 0 } (o.rh.getLsbD 1) (fun e n => .op k (atomOperand e o.d n)) s

/-- ATOM.ADD (R146). -/
def execAtomAdd (h : Guard) (o : MF) (s : State) : Result := atomOp h o 0 s
/-- ATOM.MIN (R146). -/
def execAtomMin (h : Guard) (o : MF) (s : State) : Result := atomOp h o 1 s
/-- ATOM.MAX (R146). -/
def execAtomMax (h : Guard) (o : MF) (s : State) : Result := atomOp h o 2 s
/-- ATOM.MINU (R146). -/
def execAtomMinu (h : Guard) (o : MF) (s : State) : Result := atomOp h o 3 s
/-- ATOM.MAXU (R146). -/
def execAtomMaxu (h : Guard) (o : MF) (s : State) : Result := atomOp h o 4 s
/-- ATOM.AND (R146). -/
def execAtomAnd (h : Guard) (o : MF) (s : State) : Result := atomOp h o 5 s
/-- ATOM.OR (R146). -/
def execAtomOr (h : Guard) (o : MF) (s : State) : Result := atomOp h o 6 s
/-- ATOM.XOR (R146). -/
def execAtomXor (h : Guard) (o : MF) (s : State) : Result := atomOp h o 7 s
/-- ATOM.XCHG (R146). -/
def execAtomXchg (h : Guard) (o : MF) (s : State) : Result := atomOp h o 8 s
/-- ATOM.FADD (R146). -/
def execAtomFadd (h : Guard) (o : MF) (s : State) : Result := atomOp h o 9 s
/-- ATOM.FMIN (R146). -/
def execAtomFmin (h : Guard) (o : MF) (s : State) : Result := atomOp h o 10 s
/-- ATOM.FMAX (R146). -/
def execAtomFmax (h : Guard) (o : MF) (s : State) : Result := atomOp h o 11 s
/-- ATOM.INC (R146). -/
def execAtomInc (h : Guard) (o : MF) (s : State) : Result := atomOp h o 12 s

/-- A scratch word's configuration: never in a runner launch (R212). -/
def cfgScratch (h : Guard) : WordCfg := { cfg h with noRunner := true }

/-- The team's scratch allocation: where it starts in the core's space, and its length (R258, R303). -/
def scratchOf (s : State) (sf : Sheaf) : Nat × Nat :=
  match sf.team with
  | some t => match Tab.at? s.teams t with
    | some x => (x.sbase, x.slen)
    | none => (0, 0)
  | none => (0, 0)

/-- The place in the core's scratch space of an access, or its fault with the offset (R303). -/
def scratchAddr (e : Env) (o : MF) (n : Nat) : Except FaultInfo Nat :=
  let off := memOff e o
  let f := fun (c : Byte) => { mkFault c 0 (off % (2 ^ 32 : Int)).toNat with scr := true }
  let r := scratchOf e.s e.sf
  if off < 0 ∨ (r.2 : Int) < off + n then .error (f causeBounds)
  else if off.toNat % n ≠ 0 then .error (f causeAlign)
  else .ok (r.1 + off.toNat)

/-- The waits of a scratch access (R284, R315): earlier global stores are acknowledged, and no tile of ENGINE overlaps it. -/
def scratchReady (s : State) (e : Env) (a n : Nat) : State × Bool :=
  let s1 := drainOwn s e.sh e.ln
  (s1, !awaiting s1 e.sh e.ln && !engineTouches s1 (coreOf e.sh) a n)

/-- Bytes written in scratch; the tags of the granules they touch are cleared (R28, R304). -/
def scratchWrite (s : State) (k a n : Nat) (v : Nat) : State :=
  updCore s k fun c => { c with scratch := writeMem c.scratch a (toBytes n v), stags := setTags c.stags a n false }

/-- The buffered scratch stores of a run. -/
def runScratch (th : Thread) : List (Nat × Nat × QWord) :=
  match th.run with
  | some r => (r.stores.filter fun x => x.scratch).map fun x => (x.addr, x.size, x.data)
  | none => []

/-- A scratch word in a lane: its place, its waits, then its effect. -/
def scratchLane (s : State) (e : Env) (o : MF) (n : Nat) (go : State → Nat → State × LaneRes) : State × LaneRes :=
  match scratchAddr e o n with
  | .error f => (s, .fault f)
  | .ok a =>
    match scratchReady s e a n with
    | (s1, true) => go s1 a
    | (s1, false) => (s1, .hold .stall)

/-- LDS (R304). -/
def execLds (h : Guard) (o : MF) (s : State) : Result :=
  .next (runWord (cfgScratch h) (fun e s =>
    scratchLane s e o (szBytes o.sz) fun s a =>
      let b := readMem (coreAt s (coreOf e.sh)).scratch a (szBytes o.sz)
      let v := (List.range (szBytes o.sz)).map fun i => (storedByte (runScratch e.th) (a + i)).getD (b.getD i 0)
      (s, .ok (extendLoad o.d o.sz (ofBytes v)))) s)

/-- STS (R304): buffered in a run. -/
def execSts (h : Guard) (o : MF) (s : State) : Result :=
  .next (runWord { cfgScratch h with store := true, resolve := isRelease o } (fun e s =>
    let n := szBytes o.sz
    match e.th.run with
    | some r =>
      match scratchAddr e o n with
      | .error f => (s, .fault f)
      | .ok a =>
        let b : RunStore := { scratch := true, addr := a, size := n, data := dataReg e o.d n, tagged := false, colour := 0, cap := nullCap, hint := 0,
                              rel := isRelease o, scope := 0, pos := r.pos, checked := true }
        (updThread s e.sh e.ln fun th => { th with run := th.run.map fun q => { q with stores := q.stores ++ [b] } }, .ok wrNone)
    | none =>
      let go := fun (s : State) => scratchLane s e o n fun s a => (scratchWrite s (coreOf e.sh) a n (dataReg e o.d n).toNat, .ok wrNone)
      match scratchAddr e o n with
      | .error f => (s, .fault f)
      | .ok _ => if isRelease o then resolveThen s e true false go else go s) s)

/-- CASS and ATOMS (R305, R306): watch entries are resolved first, whatever the order (R282). -/
def scratchAtom (h : Guard) (o : MF) (keep : Bool) (r : Env → Nat → Rmw) (s : State) : Result :=
  .next (runWord { cfgScratch h with noRun := true, resolve := true } (fun e s =>
    let n := szBytes o.sz
    match scratchAddr e o n with
    | .error f => (s, .fault f)
    | .ok _ =>
      resolveThen s e (isRelease o) false fun s =>
        scratchLane s e o n fun s a =>
          let x := ofBytes (readMem (coreAt s (coreOf e.sh)).scratch a n)
          let q := r e n
          (match q.next n x with
            | some v => scratchWrite s (coreOf e.sh) a n v
            | none => s, .ok (rmwWr q n o.d keep x))) s)

/-- CASS (R305). -/
def execCass (h : Guard) (o : MF) (s : State) : Result := scratchAtom h o false (fun e n => casOperands e o.d n) s

/-- An ATOMS word by the number of its operation (R306). -/
def atomsOp (h : Guard) (o : MF) (k : Nat) (s : State) : Result :=
  scratchAtom h o (o.rh.getLsbD 1) (fun e n => .op k (atomOperand e o.d n)) s

/-- ATOMS.ADD (R306). -/
def execAtomsAdd (h : Guard) (o : MF) (s : State) : Result := atomsOp h o 0 s
/-- ATOMS.MIN (R306). -/
def execAtomsMin (h : Guard) (o : MF) (s : State) : Result := atomsOp h o 1 s
/-- ATOMS.MAX (R306). -/
def execAtomsMax (h : Guard) (o : MF) (s : State) : Result := atomsOp h o 2 s
/-- ATOMS.MINU (R306). -/
def execAtomsMinu (h : Guard) (o : MF) (s : State) : Result := atomsOp h o 3 s
/-- ATOMS.MAXU (R306). -/
def execAtomsMaxu (h : Guard) (o : MF) (s : State) : Result := atomsOp h o 4 s
/-- ATOMS.AND (R306). -/
def execAtomsAnd (h : Guard) (o : MF) (s : State) : Result := atomsOp h o 5 s
/-- ATOMS.OR (R306). -/
def execAtomsOr (h : Guard) (o : MF) (s : State) : Result := atomsOp h o 6 s
/-- ATOMS.XOR (R306). -/
def execAtomsXor (h : Guard) (o : MF) (s : State) : Result := atomsOp h o 7 s
/-- ATOMS.XCHG (R306). -/
def execAtomsXchg (h : Guard) (o : MF) (s : State) : Result := atomsOp h o 8 s
/-- ATOMS.FADD (R306). -/
def execAtomsFadd (h : Guard) (o : MF) (s : State) : Result := atomsOp h o 9 s
/-- ATOMS.FMIN (R306). -/
def execAtomsFmin (h : Guard) (o : MF) (s : State) : Result := atomsOp h o 10 s
/-- ATOMS.FMAX (R306). -/
def execAtomsFmax (h : Guard) (o : MF) (s : State) : Result := atomsOp h o 11 s
/-- ATOMS.INC (R306). -/
def execAtomsInc (h : Guard) (o : MF) (s : State) : Result := atomsOp h o 12 s

/-- A wait of a word that must complete before its context stops (R301, R343). -/
def mustEnd (r : State × LaneRes) : State × LaneRes :=
  match r with
  | (s, .hold .stall) => (s, .hold .again)
  | r => r

/-- FENCE (R300, R301): once issued it completes before its context stops. Log 20 (DEDUCED). -/
def execFence (h : Guard) (o : MF) (s : State) : Result :=
  .next (runWord (cfgNR h) (fun e s => mustEnd (resolveThen s e true (o.scope = 3#2) fun s => (s, .ok wrNone))) s)

/-- CHECK (R298). -/
def execCheck (h : Guard) (_ : MF) (s : State) : Result :=
  .next (runWord { cfgNR h with resolve := true } (fun e s => resolveThen s e false false fun s => (s, .ok wrNone)) s)

/-- WSET (R297): DISP12 counts words. -/
def execWset (h : Guard) (o : MF) (s : State) : Result :=
  .next (runWord (cfgNR h) (fun e s =>
    let base := if o.off = 0xFF#8 then e.th.pc else readCode e o.off.toNat
    let v := (base + o.disp.signExtend 32 * 8) &&& ~~~7#32
    (updThread s e.sh e.ln fun th => { th with spr := { th.spr with wrep := v } }, .ok wrNone)) s)

/-- The mode BANKCFG asks for (R307). -/
def bankMode (m : Nat) : BankMode := if m = 0 then .cache else if m = 1 then .scratch else .fifo

/-- BANKCFG (R307): once for the word. Log 29 (DEDUCED). -/
def execBankcfg (h : Guard) (o : MF) (s : State) : Result :=
  .next (wordScope { cfgNR h with noRunner := true } (fun e s =>
    let k := coreOf e.sh
    let b := o.disp.toNat % 64
    if s.teams.any fun t => decide (t.2.core = k) && decide (t.2.ctx ≠ e.sf.ctx) then (s, fun _ => .ok (wrReg o.d 2))
    else
      match bankSwitch s k b (bankMode (o.disp.toNat / 256 % 4)) false with
      | (s1, .same) => (s1, fun _ => .ok (wrReg o.d 0))
      | (s1, .busy) => (s1, fun _ => .ok (wrReg o.d 1))
      | (s1, .started) => (s1, fun _ => .hold (.bank b o.d))) s)

end Sys2Proof.Machine
end

