-- ==== Sys2Proof/Machine/Sync.lean ====
section
/-! DEFINITION. SYNC (R191 to R195, R238 to R242): rendezvous points, signals and the phase timer. -/

namespace Sys2Proof.Machine

/-- A rendezvous point of a team. -/
def rdvAt (t : Team) (i : Nat) : Rdv := Tab.get rdvReset t.rps i

/-- The team of a sheaf. -/
def teamOf (s : State) (sf : Sheaf) : Option (Nat × Team) :=
  match sf.team with
  | some k => (Tab.at? s.teams k).map fun t => (k, t)
  | none => none

/-- The state with a team changed. -/
def updTeam (s : State) (k : Nat) (f : Team → Team) : State :=
  match Tab.at? s.teams k with
  | some t => { s with teams := Tab.put s.teams k (f t) }
  | none => s

/-- PHASE of a point (R191). -/
def Rdv.phase (p : Rdv) : Bool := decide (p.turns % 2 = 1)

/-- The lanes of a team held at a point, with the completions it had when their waits began. -/
def rdvWaiters (s : State) (team i : Nat) : List (Nat × Nat × Nat) :=
  s.sheaves.flatMap fun e =>
    if e.2.team = some team then
      e.2.lanes.filterMap fun l => match l.2.hold with
        | some (.rdv j n) => if j = i then some (e.1, l.1, n) else none
        | _ => none
    else []

/-- Lanes held at a point go on once it has completed since their waits began (R192). -/
def wakeRdv (s : State) (team i : Nat) : State :=
  match Tab.at? s.teams team with
  | none => s
  | some t => (rdvWaiters s team i).foldl (fun s w => if w.2.2 ≠ (rdvAt t i).turns then resume s w.1 w.2.1 wrNone else s) s

/-- RDV_MISUSE (R192). -/
def rdvMisuse : FaultInfo := mkFault causeRdv 0 0

/-- A rendezvous word in each lane, then the lanes its completions release. Log 15 (DEDUCED). -/
def rdvWord (h : Guard) (o : Tri) (res : Bool) (f : Env → State → Nat → Nat → Team → State × LaneRes) (s : State) : Result :=
  .next (
    let i := o.c.num % 32
    let sheaf := s.focus.map fun g => g.sh
    let s1 := runWord { cfgNRR h with resolve := res } (fun e s =>
      match teamOf s e.sf with
      | some (k, t) => f e s i k t
      | none => (s, .fault rdvMisuse)) s
    match sheaf with
    | some sh => match sheaf? s1 sh with
      | some sf => match sf.team with
        | some k => wakeRdv s1 k i
        | none => s1
      | none => s1
    | none => s1)

/-- An arrival (R192): the parity the lane sees, and the point after it. -/
def arrive (p : Rdv) : Bool × Rdv :=
  if p.arrived + 1 = p.expect then (p.phase, { p with arrived := 0, turns := p.turns + 1 }) else (p.phase, { p with arrived := p.arrived + 1 })

/-- A count RDVINIT takes (R191). -/
def countOk (n : Nat) : Bool := decide (1 ≤ n) && decide (n ≤ 2048)

/-- RDVINIT (R192, R239): no lane sets EXPECT if any lane of the word misuses the point. -/
def execRdvinit (h : Guard) (o : Tri) (s : State) : Result :=
  rdvWord h o false (fun e s i k t =>
    let busy := decide ((rdvAt t i).arrived ≠ 0) || !(rdvWaiters s k i).isEmpty
    let counts := e.parts.filterMap fun x => (envOf e.s e.acts e.parts x).map fun y => (src y o.a 1).toNat
    let mine := (src e o.a 1).toNat
    if busy || !countOk mine then (s, .fault rdvMisuse)
    else if counts.all countOk then (updTeam s k fun t => { t with rps := Tab.put t.rps i { rdvAt t i with expect := mine } }, .ok wrNone)
    else (s, .ok wrNone)) s

/-- An arriving lane: a release at team scope first (R193, R239). -/
def arriveLane (s : State) (e : Env) (i k : Nat) (fin : State → Rdv → Rdv → State × LaneRes) : State × LaneRes :=
  resolveThen s e true false fun s =>
    match Tab.at? s.teams k with
    | none => (s, .fault rdvMisuse)
    | some t =>
      let r := arrive (rdvAt t i)
      fin (updTeam s k fun t => { t with rps := Tab.put t.rps i r.2 }) (rdvAt t i) r.2

/-- RDVARR (R192). -/
def execRdvarr (h : Guard) (o : Tri) (s : State) : Result :=
  rdvWord h o true (fun e s i k t =>
    if (rdvAt t i).expect = 0 then (s, .fault rdvMisuse)
    else arriveLane s e i k fun s p _ => (s, .ok (wrPred o.d.toNat p.phase))) s

/-- RDVWAIT (R192). -/
def execRdvwait (h : Guard) (o : Tri) (s : State) : Result :=
  rdvWord h o false (fun e s i _ t =>
    let par := pReg e.th o.d.toNat
    if (rdvAt t i).expect = 0 then (s, .fault rdvMisuse)
    else (s, if (rdvAt t i).phase = par then .hold (.rdv i (rdvAt t i).turns) else .ok wrNone)) s

/-- RDVAW (R192). -/
def execRdvaw (h : Guard) (o : Tri) (s : State) : Result :=
  rdvWord h o true (fun e s i k t =>
    if (rdvAt t i).expect = 0 then (s, .fault rdvMisuse)
    else arriveLane s e i k fun s p q => (s, if q.turns = p.turns then .hold (.rdv i p.turns) else .ok wrNone)) s

/-- SIGPOST (R240): ATOM.ADD of 64 bits, `.N`, release, system scope, at offset 0. -/
def execSigpost (h : Guard) (o : Tri) (s : State) : Result :=
  .next (bump (runWordIn (freeOrder s) { cfgNR h with resolve := true } (fun e s =>
    let c := capA e o.a
    let r := Rmw.op 0 (src e o.b 1).toNat
    match accessAddr e c (accAtomic true) 0 8 8 with
    | .error f => (s, .fault f)
    | .ok a => resolveThen s e true true fun s => rmwAny s e c a 8 0 3 0xF0#8 true r) s))

/-- A load of a signal word at its home slice, never from a copy (R241). -/
def signalLoad (s : State) (k a colour : Nat) : State × Nat :=
  let l := localOf a
  let r := takeRenew s { core := k, line := lineOf l, pts := (coreAt s k).pts, w := none, colour := colour, hint := 3, sector := 0, seq := s.nextId }
  (takeReply r.1 r.2, ofBytes (readMem r.1.mem l 8))

/-- SIGWAIT's load in a lane (R241): what it answers, or the wait. The first load of a wait is a request of its lane; a later one is the home's, and a wait on a
peer is registered there. -/
def signalTest (s : State) (e : Env) (c : Cap) (a thr : Nat) (ext first : Bool) : State × LaneRes :=
  let s1 := drainOwn s e.sh e.ln
  let wait := LaneRes.hold (.sigwait c thr ext)
  let asked := fun (r : State × LaneRes) => match r.2 with
    | .hold .reply => (r.1, wait)
    | _ => r
  if awaiting s1 e.sh e.ln then (s1, .hold .stall)
  else
    match regionOf s.fabric.number a with
    | .hbm =>
      if first && !portReady s1 e then (portHolds s1 e, .hold .stall)
      else
        let s2 := if first then request s1 e (lineOf (localOf a)) 0 else s1
        match granuleCheck s2 (localOf a) (capColour c) with
        | .fail => (s2, .fault (mkFault causeGranule 0x74 a))
        | .transit => (heldLane s2 e (localOf a), wait)
        | .pass =>
          let r := signalLoad s2 (coreOf e.sh) a (capColour c)
          (r.1, if thr ≤ r.2 then .ok wrNone else wait)
    | .host => asked (askHost s1 e (.sig thr ext) c a 8 0 0 (hostReadOut e.sf.ctx a 8))
    | .windows => (s1, .fault (mkFault causePerm 0 a))
    | .regs => (bump s1, if thr ≤ (Config.freeDWord s1.free).toNat then .ok wrNone else wait)
    | .peer =>
      match sendPeer s1 e (.sig thr ext) .sigwait c a 8 0 none 0 with
      | (s2, .error (.fault x r)) => (s2, .fault (mkFault x r a))
      | (s2, .error (.hold y)) => asked (s2, .hold y)
      | (s2, .ok _) => (s2, wait)

/-- SIGWAIT (R241): the wait byte holds EXT. -/
def execSigwait (h : Guard) (o : Tri) (s : State) : Result :=
  .next (runWord (cfgNR h) (fun e s =>
    let c := capA e o.a
    match accessAddr e c accLoad 0 8 8 with
    | .error f => (s, .fault f)
    | .ok a => signalTest s e c a (srcPair e o.b).toNat (decide (o.c.num % 2 = 1)) true) s)

/-- A lane held in SIGWAIT loads its word again (R241). -/
def reloadSignal (s : State) (sh ln : Nat) : State :=
  match sheaf? s sh, thread? s sh ln with
  | some sf, some th =>
    match th.hold with
    | some (.sigwait c thr ext) =>
      let a := capBase c % 2 ^ 52
      if regionOf s.fabric.number a = .hbm ∨ regionOf s.fabric.number a = .regs then
        let e : Env := { s := s, sh := sh, ln := ln, sf := sf, th := th, acts := [(sh, ln)], parts := [(sh, ln)] }
        match signalTest s e c a thr ext false with
        | (s1, .ok w) => resume s1 sh ln w
        | (s1, .fault f) => resumeFault s1 sh ln f
        | (s1, _) => s1
      else s
    | _ => s
  | _, _ => s

/-- SIGWAIT_RELOAD (R241). -/
def execSigwaitReload (sh ln : Nat) (s : State) : Result := .next (reloadSignal s sh ln)

/-- SIGWAIT_HOST_POLL (R241): the value is what host memory holds. -/
def execSigwaitHostPoll (sh ln : Nat) (value : DWord) (s : State) : Result :=
  .next (match thread? s sh ln with
    | some th => match th.hold with
      | some (.sigwait c thr _) =>
        if regionOf s.fabric.number (capBase c) = .host ∧ thr ≤ value.toNat then resume (dropSig s sh ln) sh ln wrNone else s
      | _ => s
    | none => s)

/-- PHASE (R194, R242): each lane that takes effect in turn. -/
def execPhase (h : Guard) (o : Tri) (s : State) : Result :=
  .next (runWord (cfgNRR h) (fun e s =>
    let n := (src e o.a 1).toNat
    match e.sf.team with
    | some k => (updTeam s k fun t => { t with phaseN := if n = 0 then none else some n, phaseCount := 0 }, .ok wrNone)
    | none => (s, .ok wrNone)) s)

/-- The margin of R194 from `sr.phmargin`. -/
def phaseMargin (m : Word) (n : Nat) : Nat := n * (m.extractLsb' 24 8).toNat / 100 + (m.extractLsb' 0 24).toNat

/-- The count of a team has passed its limit (R195). -/
def overdue (s : State) (t : Team) : Bool :=
  match t.phaseN with
  | some n => decide (n + phaseMargin (ctxAt s t.ctx).phmargin n < t.phaseCount)
  | none => false

/-- PHASE_OVERRUN (R195): the timer stops; the fault waits in the thread R195 names. -/
def execPhaseOverrun (team : Nat) (s : State) : Result :=
  .next (match Tab.at? s.teams team with
    | some t =>
      if overdue s t then
        let s1 := updTeam s team fun t => { t with phaseN := none }
        match teamTarget s1 { ctx := t.ctx, launch := t.launch, stage := t.stage, teamid := t.index, gangid := 0, tid := 0 } with
        | some x => due (updThread s1 x.1 x.2 fun th => { th with overrun := t.phaseN }) (.asyncFault x.1 x.2)
        | none => s1
      else s
    | none => s)

end Sys2Proof.Machine
end

