-- ==== Sys2Proof/Machine/Tiles.lean ====
section
/-! DEFINITION. Tiles (R311 to R316): their geometry and elements in scratch, the waits and tests that naming one makes, and the TILE group
(R344 to R348). -/

namespace Sys2Proof.Machine

/-- The sheaf number under which a core's feed program executes its words: above every sheaf of the package (R323). -/
def feederBase : Nat := 2 ^ 20

/-- The core a word is issued on: a quadrant's sheaf, or the feeder. -/
def issuerCore (sh : Nat) : Nat := if feederBase ≤ sh then sh - feederBase else coreOf sh

/-- The word is the feed program's. -/
def byFeeder (sh : Nat) : Bool := decide (feederBase ≤ sh)

/-- An entry of a core's tile table. -/
def tileAt (s : State) (k i : Nat) : Tile := Tab.get tileReset (coreAt s k).tiles i

/-- The state with an entry of a core's tile table changed. -/
def updTile (s : State) (k i : Nat) (f : Tile → Tile) : State :=
  updCore s k fun c => { c with tiles := Tab.put c.tiles i (f (Tab.get tileReset c.tiles i)) }

/-- The width in bits of an element (R345): packed T codes name one element of their kind. -/
def tileBits (f : Nat) : Nat := if f = 14 then 64 else elemWidth f

/-- Bytes of an element, rounded up to one (R318). -/
def tileAlign (f : Nat) : Nat := (tileBits f + 7) / 8

/-- The scratch offset of a row (R345). -/
def rowBase (t : Tile) (r : Nat) : Nat := t.sbase * 16 + r * (t.pitch * 16)

/-- Naturals of `w` bits from a larger one, lowest first. -/
def splitBits (w : Nat) : Nat → Nat → List Nat
  | 0, _ => []
  | n + 1, v => v % 2 ^ w :: splitBits w n (v / 2 ^ w)

/-- A natural from pieces of `w` bits, lowest first. -/
def joinBits (w : Nat) (l : List Nat) : Nat := l.foldr (fun v acc => acc * 2 ^ w + v % 2 ^ w) 0

/-- The elements of a row of a tile in scratch. -/
def tileRow (m : Memory) (t : Tile) (r : Nat) : List Nat :=
  splitBits (tileBits t.fmt.toNat) t.elems (ofBytes (readMem m (rowBase t r) (rowBytes t)))

/-- A core with bytes of scratch written: the tags of the granules they touch are cleared (R28). -/
def scratchPut (c : CoreSt) (a : Nat) (b : List Byte) : CoreSt :=
  { c with scratch := writeMem c.scratch a b, stags := setTags c.stags a b.length false }

/-- A core with a row of a tile written. -/
def tilePutRow (c : CoreSt) (t : Tile) (r : Nat) (l : List Nat) : CoreSt :=
  scratchPut c (rowBase t r) (toBytes (rowBytes t) (joinBits (tileBits t.fmt.toNat) l))

/-- Two defined tiles overlap in scratch (R314). -/
def tilesOverlap (a b : Tile) : Bool :=
  decide (a.fmt ≠ 0xF#4) && decide (b.fmt ≠ 0xF#4) && (List.range a.rows).any fun r => tileTouches b (rowBase a r) (rowBytes a)

/-- What naming a tile gives: a wait on the scoreboard, a fault, or the entry (R314). -/
inductive TileRes where
  | wait
  | fault (f : FaultInfo)
  | ok (i : Nat) (t : Tile)
  deriving DecidableEq, Repr

/-- TILE_STATE with a reason. -/
def tileFault (reason : Byte) : FaultInfo := mkFault causeTile reason 0

/-- The stored cause of a stopped transfer (R314). -/
def storedFault (k : Nat) (t : Tile) : FaultInfo :=
  { mkFault t.cause 0x60 t.faddr with detail := BitVec.ofNat 16 (k % 256 + t.prog % 256 * 256), drain := decide (t.state = .draining) }

/-- Naming tile `k` of a team (R314): the scoreboard, the tile number, FLT, and a defined format (R313). `fltOk` is true for resume forms and
TFREE, `def_` for TDEF; `fed` for the feeder, which does not wait on a tile it holds. -/
def nameTile (s : State) (t : Team) (k : Nat) (fltOk def_ fed : Bool) : TileRes :=
  let i := t.tbase + k
  let x := tileAt s t.core i
  let busy := fun (y : Nat × Tile) => y.1 != i && y.2.engine && tilesOverlap x y.2
  if t.tcount ≤ k then .fault (tileFault 0x62)
  else if (x.engine && !(fed && x.giv)) || (coreAt s t.core).tiles.any busy then .wait
  else if x.flt && !fltOk then .fault (storedFault k x)
  else if x.fmt = 0xF#4 && !def_ then .fault (tileFault 0x63)
  else .ok i x

/-- The accesses that every lane of a word made earlier have performed (R287): a start event waits for them. -/
def startReady (s : State) (parts : List (Nat × Nat)) : State × Bool :=
  parts.foldl (fun acc x => if byFeeder x.1 then acc else let r := fenceReady acc.1 x.1 x.2 false; (r.1, acc.2 && r.2)) (s, true)

/-- A word of the TILE group, once for the word, on a tile of the issuing team (R342, R344). -/
def tileWord (h : Guard) (k : Nat) (fltOk def_ : Bool) (f : Env → State → Nat × Team → Nat → Tile → State × (Nat → LaneRes)) (s : State) : Result :=
  .next (wordScope (cfgNRR h) (fun e s =>
    match teamOf s e.sf with
    | none => (s, fun _ => .fault (tileFault 0x62))
    | some t =>
      match nameTile s t.2 k fltOk def_ (byFeeder e.sh) with
      | .wait => (s, fun _ => .hold .stall)
      | .fault x => (s, fun _ => .fault x)
      | .ok i x => f e s t i x) s)

/-- A scratch fault of TDEF (R345): it carries the offset. -/
def tdefFault (cause : Byte) (off : Nat) : FaultInfo := { mkFault cause 0 off with scr := true }

/-- TDEF (R345). -/
def execTdef (h : Guard) (o : XF) (s : State) : Result :=
  tileWord h o.x0.toNat false true (fun e s t i x =>
    let off := (readCode e o.x1.toNat).toNat
    let b := readCode e o.x2.toNat
    let rows := (b.extractLsb' 0 8).toNat + 1
    let elems := (b.extractLsb' 8 12).toNat + 1
    let pitch := (readCode e o.x3.toNat).toNat
    let bits := elems * tileBits o.t.toNat
    let bad := fun (c : Byte) => (s, fun (_ : Nat) => LaneRes.fault (tdefFault c off))
    if x.state ≠ .empty ∧ x.state ≠ .ready then (s, fun _ => .fault (tileFault 0x63))
    else if off % 16 ≠ 0 ∨ pitch % 16 ≠ 0 then bad causeAlign
    else if pitch = 0 ∨ 65536 < pitch then bad causeBounds
    else if tileBits o.t.toNat = 4 ∧ elems % 2 = 1 then bad causeBounds
    else if pitch < bits / 8 then bad causeBounds
    else if t.2.slen < off + (rows - 1) * pitch + bits / 8 then bad causeBounds
    else
      (updTile s t.2.core i fun _ =>
        { state := .empty, engine := false, flt := false, cause := 0, faddr := 0, prog := 0, fmt := o.t, team := t.1, rows := rows, pitch := pitch / 16,
          elems := elems, sbase := (t.2.sbase + off) / 16, giv := false }, fun _ => .ok wrNone)) s

/-- A transfer handed to the copy engine (R313, R317, R346): the word waits while the queue is full, and for the accesses before it (R287). -/
def handOver (s : State) (e : Env) (o : XF) (t : Team) (i : Nat) (drain resume : Bool) : State × (Nat → LaneRes) :=
  let r := startReady s e.parts
  if 32 ≤ (coreAt r.1 t.core).copyq.length ∨ !r.2 then (r.1, fun _ => .hold .stall)
  else
    let req := CopyReq.tile t.ctx t.launch i drain (cReg e.th (o.x1.toNat % 32)) (readCode e o.x2.toNat).toNat (readCode e o.x3.toNat).toNat
      (o.flags.toNat / 2 % 4) (byFeeder e.sh)
    let s1 := updTile r.1 t.core i fun x =>
      { x with state := if drain then .draining else .filling, engine := true, flt := false, prog := if resume then x.prog else 0 }
    (updCore s1 t.core fun c => { c with copyq := c.copyq ++ [req] }, fun _ => .ok wrNone)

/-- TFILL or TDRAIN, fresh or resumed (R313, R346). The feeder names only tiles it holds (R323). -/
def transferWord (h : Guard) (o : XF) (drain resume : Bool) (s : State) : Result :=
  tileWord h o.x0.toNat resume false (fun e s t i x =>
    let ok := if resume then x.flt && decide (x.state = if drain then .draining else .filling)
      else decide (x.state = .ready) || (!drain && decide (x.state = .empty))
    if !ok ∨ (byFeeder e.sh ∧ (!x.giv ∨ resume)) then (s, fun _ => .fault (tileFault 0x63))
    else handOver s e o t.2 i drain resume) s

/-- TFILL (R346). -/
def execTfill (h : Guard) (o : XF) (s : State) : Result := transferWord h o false false s

/-- TFILL, the resume form (R346). -/
def execTfillResume (h : Guard) (o : XF) (s : State) : Result := transferWord h o false true s

/-- TDRAIN (R346). -/
def execTdrain (h : Guard) (o : XF) (s : State) : Result := transferWord h o true false s

/-- TDRAIN, the resume form (R346). -/
def execTdrainResume (h : Guard) (o : XF) (s : State) : Result := transferWord h o true true s

/-- TWAIT and TSTAT in each lane (R347). -/
def waitWord (h : Guard) (k : Nat) (f : Tile → Wr) (s : State) : Result :=
  .next (runWord (cfgNRR h) (fun e s =>
    match teamOf s e.sf with
    | none => (s, .fault (tileFault 0x62))
    | some t =>
      match nameTile s t.2 k false false false with
      | .wait => (s, .hold .stall)
      | .fault x => (s, .fault x)
      | .ok _ x => (s, if x.state = .empty ∨ x.state = .ready then .ok (f x) else .fault (tileFault 0x63))) s)

/-- TWAIT (R347). -/
def execTwait (h : Guard) (o : XF) (s : State) : Result := waitWord h o.x0.toNat (fun _ => wrNone) s

/-- The code of a state (R311). -/
def stateCode (t : TileState) : Nat :=
  match t with
  | .empty => 0
  | .filling => 1
  | .ready => 2
  | .draining => 3

/-- The pair TSTAT writes (R347). -/
def tstatPair (t : Tile) : DWord :=
  let lo := (t.rows - 1) * 2 ^ 24 + t.prog % 512 * 2 ^ 8 + t.fmt.toNat * 2 ^ 4 + stateCode t.state
  let hi := t.pitch % 8192 * 2 ^ 16 + (t.elems - 1) % 4096
  BitVec.ofNat 32 hi ++ BitVec.ofNat 32 lo

/-- TSTAT (R347). -/
def execTstat (h : Guard) (o : XF) (s : State) : Result := waitWord h o.x1.toNat (fun t => wrPair o.x0 (tstatPair t)) s

/-- TFREE (R348). -/
def execTfree (h : Guard) (o : XF) (s : State) : Result :=
  tileWord h o.x0.toNat true false (fun _ s t i _ =>
    (updTile s t.2.core i fun x => { x with state := .empty, flt := false, fmt := 0xF#4 }, fun _ => .ok wrNone)) s

/-- TGIVE (R348): the feeder must serve the issuing team. -/
def execTgive (h : Guard) (o : XF) (s : State) : Result :=
  tileWord h o.x0.toNat false false (fun e s t i x =>
    if x.state ≠ .empty ∧ x.state ≠ .ready then (s, fun _ => .fault (tileFault 0x63))
    else if (coreAt s t.2.core).feeder.team ≠ some t.1 then (s, fun _ => .fault (tileFault 0x6B))
    else
      let r := startReady s e.parts
      if r.2 then (updTile r.1 t.2.core i fun x => { x with engine := true, giv := true }, fun _ => .ok wrNone) else (r.1, fun _ => .hold .stall)) s

end Sys2Proof.Machine
end

