-- ==== Sys2Proof/Machine/Copy.lean ====
section
/-! DEFINITION. The copy engine (R316 to R322): rows of tile transfers, pieces of command copies, completion signals; CMDRUN and CMDPOLL
(R355, R356). -/

namespace Sys2Proof.Machine

/-- GranuleCheck of every granule that some bytes of local HBM touch: a failure first, then a wait (R27, R318). -/
def granulesCheck (s : State) (l n colour : Nat) : GCheck :=
  let g := (List.range ((l + n - 1) / 2 ^ 21 - l / 2 ^ 21 + 1)).map fun i => granuleCheck s ((l / 2 ^ 21 + i) * 2 ^ 21) colour
  if n = 0 then .pass else if g.contains .fail then .fail else if g.contains .transit then .transit else .pass

/-- Bytes written to local HBM by an engine of a core, line by line: writes by another party (R273), each after a read of its line by the engine, so that they
follow every access the core made before (R287). The core's logical time reaches the write times. Log 30 (DESIGN CHOICE). -/
def engineStore : Nat → State → Nat → Nat → List Byte → Nat → State
  | 0, s, _, _, _, _ => s
  | fuel + 1, s, k, l, data, hint =>
    if data.isEmpty then s
    else
      let n := min data.length (128 - l % 128)
      let r := homeWrite (homeRead s (lineOf l) (coreAt s k).pts hint).1 0 l (data.take n) false hint
      engineStore fuel (raisePts r.1 k r.2) k (l + n) (data.drop n) hint

/-- Reads by an engine of a core at the homes of some bytes (R273). -/
def engineTouch (s : State) (k l n hint : Nat) : State :=
  if n = 0 then s
  else (List.range ((l + n - 1) / 128 - l / 128 + 1)).foldl (fun s i =>
    let r := homeRead s (l / 128 + i) (coreAt s k).pts hint
    raisePts r.1 k r.2) s

/-- What an engine's read gives: bytes with the tags of their granules, a wait, or a failure of GRANULE that came after its row left (R318). -/
inductive EngineRead where
  | ok (data : List Byte) (tags : List Bool)
  | wait
  | fail
  deriving DecidableEq, Repr

/-- The tags of the granules of `n` bytes. -/
def tagsOf (s : State) (l n : Nat) : List Bool := (List.range ((n + 15) / 16)).map fun i => Tab.get false s.tags (l / 16 + i)

/-- The sender record of a context's own accesses (R138). -/
def ctxRecord (s : State) (ctx : Nat) : DWord := BitVec.ofNat 64 (ctx % 256 * 2 ^ 32 + col0 (ctxAt s ctx).colours * 512 + s.fabric.number % 512)

/-- An engine of a core reads bytes at a checked address; earlier writes of its context to the host leave first (R287, R290). What the host, a device register or
a peer answers is not the device's to state. Log 30 (DESIGN CHOICE). -/
def engineRead (s : State) (k ctx : Nat) (c : Cap) (a n hint : Nat) : State × EngineRead :=
  let free := fun (s : State) (t : Bool) =>
    ({ s with free := s.free + n }, EngineRead.ok (freeBytes s n) ((List.range ((n + 15) / 16)).map fun i => t && Config.freeBool (s.free + i)))
  match regionOf s.fabric.number a with
  | .hbm =>
    let l := localOf a
    match granulesCheck s l n (capColour c) with
    | .fail => (s, .fail)
    | .transit => (s, .wait)
    | .pass => (engineTouch s k l n hint, .ok (readMem s.mem l n) (tagsOf s l n))
  | .host => let s1 := flushHost s ctx; free (send s1 (hostReadOut ctx a n s1)) false
  | .windows => (s, .fail)
  | .regs => free s false
  | .peer =>
    match portFor s (devOf a) a with
    | none => (s, .fail)
    | some m =>
      let s1 := bump (sendOut s m (devOf a) .load c ((a + 2 ^ 52 - capBase c) % 2 ^ 52) n 0 none (ctxRecord s ctx))
      if Config.freeBool s.free then (s1, .fail) else free s1 true

/-- What an engine's write does. -/
inductive EngineWrite where
  | done | wait | fail
  deriving DecidableEq, Repr

/-- The capability a copied granule holds, if its tag is copied. -/
def carriedCap (s : State) (b : List Byte) (t : Bool) : Option Cap :=
  if t then some (rakeFilter s { bits := BitVec.ofNat 128 (ofBytes b), tag := true }) else none

/-- Bytes sent to a peer, a granule's worth at a time; a capability crosses a port only with XDEV (R428). -/
def peerWrite (s : State) (ctx : Nat) (c : Cap) (a : Nat) (data : List Byte) (tags : List Bool) (m : Nat) : State :=
  (List.range ((data.length + 15) / 16)).foldl (fun s i =>
    let b := (data.drop (16 * i)).take 16
    let v := (carriedCap s b (tags.getD i false)).filter fun v => v.tag && capHas v 8
    sendOut s m (devOf a) (if v.isSome then .storeCap else .store) c ((a + 2 ^ 52 - capBase c) % 2 ^ 52 + 16 * i) b.length (BitVec.ofNat 128 (ofBytes b)) v
      (ctxRecord s ctx)) s

/-- Tags set on granules of local HBM after their bytes were written (R322), filtered during a revoke pass (R334). -/
def putTags (s : State) (l : Nat) (data : List Byte) (tags : List Bool) : State :=
  { s with tags := (List.range tags.length).foldl (fun t i =>
      if (carriedCap s ((data.drop (16 * i)).take 16) (tags.getD i false)).any (·.tag) && decide (16 * i + 16 ≤ data.length)
      then Tab.set false t (l / 16 + i) true else t) s.tags }

/-- An engine of a core writes bytes at a checked address, with tags (none for a tile: R319).
Log 30 (DESIGN CHOICE). -/
def engineWrite (s : State) (k ctx : Nat) (c : Cap) (a : Nat) (data : List Byte) (tags : List Bool) (hint : Nat) : State × EngineWrite :=
  match regionOf s.fabric.number a with
  | .hbm =>
    let l := localOf a
    match granulesCheck s l data.length (capColour c) with
    | .fail => (s, .fail)
    | .transit => (s, .wait)
    | .pass => (putTags (engineStore (data.length + 1) s k l data hint) l data tags, .done)
  | .host => (send (flushHost s ctx) (.hostWrite (ctxAt s ctx).func (localOf a % 2 ^ 41) data), .done)
  | .windows => (s, .fail)
  | .regs => (send s (.regWrite a data), .done)
  | .peer =>
    match portFor s (devOf a) a with
    | none => (s, .fail)
    | some m => if Config.freeBool s.free then (bump s, .fail) else (bump (peerWrite s ctx c a data tags m), .done)

/-- The pieces of `n` bytes at an address that lie in one granule of 16 bytes each: where each begins, and its bytes. -/
def granuleParts (a n : Nat) : List (Nat × Nat) :=
  if n = 0 then []
  else (List.range ((a + n - 1) / 16 - a / 16 + 1)).map fun i =>
    let lo := max a ((a / 16 + i) * 16)
    (lo - a, min (a + n) ((a / 16 + i + 1) * 16) - lo)

/-- Each granule of a row that failed after it left holds its old value or the transfer's (R318): the granules of local HBM whose own check passes
are written or not. Log 19 (DEDUCED). -/
def spoilRow (s : State) (k : Nat) (c : Cap) (a : Nat) (data : List Byte) : State :=
  if regionOf s.fabric.number a ≠ .hbm then s
  else
    let parts := granuleParts (localOf a) data.length
    let s1 := (parts.zip (List.range parts.length)).foldl (fun s1 x =>
      let b := (data.drop x.1.1).take x.1.2
      if Config.freeBool (s.free + x.2) ∧ granulesCheck s (localOf a + x.1.1) b.length (capColour c) = .pass then engineStore 3 s1 k (localOf a + x.1.1) b 0 else s1) s
    { s1 with free := s.free + parts.length }

/-- As `spoilRow`, for a fill: granules of scratch whose source check passes may have been written. Log 19 (DEDUCED). -/
def spoilFill (s : State) (k : Nat) (c : Cap) (a base n : Nat) : State :=
  if regionOf s.fabric.number a ≠ .hbm then s
  else
    let parts := granuleParts base n
    let s1 := (parts.zip (List.range parts.length)).foldl (fun s1 x =>
      if Config.freeBool (s.free + x.2) ∧ granulesCheck s (localOf a + x.1.1) x.1.2 (capColour c) = .pass
      then updCore s1 k fun y => scratchPut y (base + x.1.1) (readMem s.mem (localOf a + x.1.1) x.1.2) else s1) s
    { s1 with free := s.free + parts.length }

/-- The access of a row (R21, R318). -/
def rowAccess (drain : Bool) : Access := if drain then accCopyTo else accCopyFrom

/-- A row or a piece of a context may leave a core's injection port (R269). -/
def engineMay (s : State) (k ctx : Nat) : Bool := mayInject s k ctx

/-- The packets of a row or a piece of `n` bytes, read or written, start (R269). -/
def engineInject (s : State) (k ctx a n : Nat) (write : Bool) : State :=
  let lines := if n = 0 then 0 else (a + n - 1) / 128 - a / 128 + 1
  inject s k ctx (lines + if write then (n + 31) / 32 else 0)

/-- The request at the head of a core's copy engine leaves the queue. -/
def popCopy (s : State) (k : Nat) : State := updCore s k fun c => { c with copyq := c.copyq.drop 1, copyPermit := 0 }

/-- A transfer stops at a row that fails a check (R313): the tile keeps its state, its owner is THREAD unless the feeder holds it, and then the feeder
stops (R325). -/
def stopTransfer (s : State) (k i : Nat) (cause : Byte) (a : Nat) : State :=
  let giv := (tileAt s k i).giv
  let s1 := updTile (popCopy s k) k i fun x => { x with engine := giv, flt := true, cause := cause, faddr := a }
  if giv then updCore s1 k fun c => { c with feeder := { c.feeder with faulted := some (cause, c.feeder.pc) } } else s1

/-- Bytes a request moves: above 524,288 it needs a permit (R336). -/
def copyBurst (s : State) (k : Nat) (r : CopyReq) : Bool :=
  match r with
  | .tile _ _ i _ _ _ _ _ _ => decide (524288 < (tileAt s k i).rows * rowBytes (tileAt s k i))
  | .command _ _ _ _ _ _ _ len _ _ _ _ => decide (524288 < len)

/-- The context of a request. -/
def copyCtx (r : CopyReq) : Nat :=
  match r with
  | .tile ctx _ _ _ _ _ _ _ _ => ctx
  | .command ctx _ _ _ _ _ _ _ _ _ _ _ => ctx

/-- The launch of a request. -/
def copyLaunch (r : CopyReq) : Nat :=
  match r with
  | .tile _ l _ _ _ _ _ _ _ => l
  | .command _ l _ _ _ _ _ _ _ _ _ _ => l

/-- A request that the feeder made. -/
def copyFed (r : CopyReq) : Bool :=
  match r with
  | .tile _ _ _ _ _ _ _ _ fed => fed
  | .command _ _ _ _ _ _ _ _ _ _ _ _ => false

/-- A context's requests go on while it runs (R316), and while it is being stopped as far as an FSTOP waits for the feeder's transfers among them (R343, R353). -/
def copyRuns (s : State) (k : Nat) (r : CopyReq) : Bool :=
  match (ctxAt s (copyCtx r)).state with
  | .running => true
  | .stopping => (coreAt s k).feeder.ending && decide ((coreAt s k).feeder.ctx = copyCtx r) && (coreAt s k).copyq.any copyFed
  | _ => false

/-- The engine of a core may go on with its head request, which needs a permit for a long burst (R336). -/
def copyMay (s : State) (k : Nat) (r : CopyReq) : Bool :=
  copyRuns s k r && (!copyBurst s k r || decide (0 < (coreAt s k).copyPermit))

/-- The next row of a tile transfer (R318). Log 30 (DESIGN CHOICE). -/
def tileRowStep (s : State) (k ctx i : Nat) (drain : Bool) (c : Cap) (off stride hint : Nat) : State :=
  let t := tileAt s k i
  let n := rowBytes t
  let o : Int := off + t.prog * stride
  if t.rows ≤ t.prog then s
  else
    match checkCap s.fabric.number (ctxAt s ctx).colours c (rowAccess drain) o n (tileAlign t.fmt.toNat) with
    | .error cause => stopTransfer s k i cause (faultAddr c o n cause)
    | .ok a =>
      let next := fun (s : State) => updTile (engineInject s k ctx a n drain) k i fun x => { x with prog := x.prog + 1 }
      let row := readMem (coreAt s k).scratch (rowBase t t.prog) n
      if drain then
        match engineWrite s k ctx c a row [] hint with
        | (s1, .done) => next s1
        | (s1, .wait) => s1
        | (s1, .fail) => stopTransfer (spoilRow s1 k c a row) k i causeGranule a
      else
        match engineRead s k ctx c a n hint with
        | (s1, .ok b _) => next (updCore s1 k fun x => scratchPut x (rowBase t t.prog) b)
        | (s1, .wait) => s1
        | (s1, .fail) => stopTransfer (spoilFill s1 k c a (rowBase t t.prog) n) k i causeGranule a

/-- The state with the head request of a core replaced. -/
def setHead (s : State) (k : Nat) (r : CopyReq) : State := updCore s k fun c => { c with copyq := r :: c.copyq.drop 1 }

/-- The bytes of the next piece of a command copy (R321): 128, but for a first piece that ends where the destination's next granule begins, so that a copy that
stops leaves whole granules. Log 30 (DESIGN CHOICE). -/
def pieceBytes (da left : Nat) : Nat := min left (if da % 16 = 0 then 128 else 16 - da % 16)

/-- The next piece of a command copy (R321, R322): tags go with it where its source and destination granules coincide. Log 30 (DESIGN CHOICE). -/
def commandStep (s : State) (k ctx launch : Nat) (src dst sig : Cap) (soff doff len done : Nat) (tags : Bool) (hint : Nat) : State :=
  let sa := (capBase src + soff + done) % 2 ^ 52
  let da := (capBase dst + doff + done) % 2 ^ 52
  let n := pieceBytes da (len - done)
  let carry := tags && decide (soff % 16 = 0) && decide (doff % 16 = 0) && decide (sa % 16 = 0) && decide (da % 16 = 0) && capHas src 3 && capHas dst 4
  let again := fun (s : State) (d : Nat) (f : Bool) => setHead s k (.command ctx launch src dst sig soff doff len d tags hint f)
  if len ≤ done then s
  else
    match engineRead s k ctx src sa n 0 with
    | (s1, .wait) => s1
    | (s1, .fail) => again s1 done true
    | (s1, .ok b t) =>
      match engineWrite s1 k ctx dst da b (if carry then t else []) hint with
      | (s2, .done) => again (engineInject (engineInject s2 k ctx sa n false) k ctx da n true) (done + n) false
      | (s2, .wait) => s2
      | (s2, .fail) => again (spoilRow s2 k dst da b) done true

/-- The cycles of activity of a request's next row or piece (R310, R336). -/
def rowCycles (s : State) (k : Nat) (r : CopyReq) : Nat :=
  match r with
  | .tile _ _ i _ _ _ _ _ _ => (rowBytes (tileAt s k i) + 127) / 128
  | .command _ _ _ _ _ _ _ _ _ _ _ _ => 1

/-- COPY_ROW (R318): the next row or piece of the head request. -/
def execCopyRow (core : Nat) (s : State) : Result :=
  .next (match (coreAt s core).copyq with
    | [] => s
    | r :: _ =>
      if core < Config.cores ∧ copyMay s core r then
        if !engineMay s core (copyCtx r) then holdPort s core (copyCtx r)
        else
          let s1 := updCore s core fun c => { c with copyPermit := c.copyPermit - rowCycles s core r }
          match r with
          | .tile ctx _ i drain c off stride hint _ => tileRowStep s1 core ctx i drain c off stride hint
          | .command ctx l src dst sig soff doff len done tags hint failed =>
            if failed then s else commandStep s1 core ctx l src dst sig soff doff len done tags hint
      else s)

/-- TILE_TRANSFER_DONE (R313): the last row is written or acknowledged. Log 5 (DEDUCED). -/
def execTileTransferDone (core : Nat) (s : State) : Result :=
  .next (match (coreAt s core).copyq with
    | .tile _ _ i _ _ _ _ _ _ :: _ =>
      let t := tileAt s core i
      if core < Config.cores ∧ t.rows ≤ t.prog then updTile (popCopy s core) core i fun x => { x with state := .ready, engine := x.giv } else s
    | _ => s)

/-- A 64-bit ATOM.ADD by the device at offset 0 of a signal capability, with release order (R203, R321): not yet, where its granule is in transit; lost
and counted where GranuleCheck fails. `t` is the logical time of what it follows. -/
def signalAdd (s : State) (ctx : Nat) (c : Cap) (inc t : Nat) : Option State :=
  let a := capBase c % 2 ^ 52
  match regionOf s.fabric.number a with
  | .hbm =>
    let l := localOf a
    match granuleCheck s l (capColour c) with
    | .pass => some (homeWrite s t l (toBytes 8 ((ofBytes (readMem s.mem l 8) + inc) % 2 ^ 64)) false 0).1
    | .transit => none
    | .fail => some (countLoss s ctx)
  | .host => some (send (flushHost s ctx) (.hostAtomic (ctxAt s ctx).func (localOf a % 2 ^ 41) 8 0 (BitVec.ofNat 128 inc) 0))
  | .peer =>
    match portFor s (devOf a) a with
    | some m => some (sendOut s m (devOf a) (.atom 0) c 0 8 (BitVec.ofNat 128 inc) none (ctxRecord s ctx))
    | none => some (countLoss s ctx)
  | _ => some s

/-- COMMAND_COPY_DONE (R321): the signal rises by 1, or by 2^32 where a GRANULE failure stopped the copy. -/
def execCommandCopyDone (core : Nat) (s : State) : Result :=
  .next (match (coreAt s core).copyq with
    | .command ctx l src dst sig soff doff len done tags hint failed :: _ =>
      if core < Config.cores ∧ (len ≤ done ∨ failed) ∧ copyRuns s core (.command ctx l src dst sig soff doff len done tags hint failed) then
        match signalAdd s ctx sig (if failed then 2 ^ 32 else 1) (coreAt s core).pts with
        | some s1 => popCopy s1 core
        | none => s
      else s
    | _ => s)

/-- A command block (R320). -/
structure Command where
  src : Cap
  dst : Cap
  soff : Nat
  doff : Nat
  len : Nat
  flags : Nat
  sig : Cap
  deriving DecidableEq, Repr

/-- A little-endian field of bytes. -/
def field (b : List Byte) (off n : Nat) : Nat := ofBytes ((b.drop off).take n)

/-- A capability field with its tag. -/
def capField16 (b : List Byte) (tags : List Bool) (off : Nat) : Cap := { bits := BitVec.ofNat 128 (field b off 16), tag := tags.getD (off / 16) false }

/-- The block in 64 bytes with the tags of its granules (R320). -/
def parseCommand (b : List Byte) (t : List Bool) : Command :=
  { src := capField16 b t 0, dst := capField16 b t 16, soff := field b 32 4, doff := field b 36 4, len := field b 40 4, flags := field b 44 4,
    sig := capField16 b t 48 }

/-- Step 2 of R321: FLAGS, then SRC, DST and SIG in that order. -/
def commandFault (s : State) (colours : DWord) (a : Nat) (m : Command) : Option FaultInfo :=
  let chk := fun (c : Cap) (k : Access) (off n al : Nat) (r : Byte) => match checkCap s.fabric.number colours c k off n al with
    | .ok _ => none
    | .error x => some (mkFault x r (faultAddr c off n x))
  if 8 ≤ m.flags then some (mkFault causePerm 0x65 a)
  else (chk m.src accCopyFrom m.soff m.len 1 0x65).or ((chk m.dst accCopyTo m.doff m.len 1 0x66).or (chk m.sig (accAtomic true) 0 8 8 0x67))

/-- CMDRUN (R321, R343, R355): each lane in turn reads and checks its block and queues its copy; while its block is being read its context does not stop. -/
def execCmdrun (h : Guard) (o : XF) (s : State) : Result :=
  .next (runWord (cfgNR h) (fun e s =>
    let c := cReg e.th (o.x1.toNat % 32)
    let k := coreOf e.sh
    match accessAddr e c accCommand 0 64 16 with
    | .error f => (s, .fault f)
    | .ok a =>
      match readStruct s e c a 4 with
      | (s1, .error d) => mustEnd (denied s1 e d a 0 fun _ _ => wrNone)
      | (s1, .ok (b, t)) =>
        let m := parseCommand b t
        match commandFault s1 (coloursOf s1 e.sf) a m with
        | some f => (s1, .fault f)
        | none =>
          let r := startReady s1 [(e.sh, e.ln)]
          if 32 ≤ (coreAt r.1 k).copyq.length ∨ !r.2 then (r.1, .hold .stall)
          else
            let req := CopyReq.command e.sf.ctx e.sf.launch m.src m.dst m.sig m.soff m.doff m.len 0 (m.flags % 2 == 1) (m.flags / 2 % 4) false
            (updCore r.1 k fun x => { x with copyq := x.copyq ++ [req] }, .ok wrNone)) s)

/-- CMDPOLL (R356). -/
def execCmdpoll (h : Guard) (o : XF) (s : State) : Result :=
  .next (runWord (cfgNR h) (fun e s =>
    let c := cReg e.th (o.x1.toNat % 32)
    let thr := (codePair e o.x2).toNat
    match accessAddr e c accLoad 0 8 8 with
    | .error f => (s, .fault f)
    | .ok a => loadAny s e (.poll o.x0.toNat thr) .load c a 8 0 fun b _ => wrPred o.x0.toNat (decide (thr ≤ ofBytes b))) s)

end Sys2Proof.Machine
end

