-- ==== Sys2Proof/Machine/Reduce.lean ====
section
/-! DEFINITION. Multicast-reduce (R337 to R339, R433): STMR and MRWAIT (R360, R361), the sums, their delivery, and what firmware does to a group. -/

namespace Sys2Proof.Machine

/-- A group firmware has not set. -/
def groupNone : MrGroup :=
  { desc := { type := 3, dies := [], peers := [], lines := 0, dest := [] }, valid := false, gens := [], contrib := [], atSwitch := [], delivered := [], owners := [], time := 0 }

/-- A group. -/
def groupAt (s : State) (g : Nat) : MrGroup := Tab.get groupNone s.groups g

/-- The state with a group changed. -/
def updGroup (s : State) (g : Nat) (f : MrGroup → MrGroup) : State := { s with groups := Tab.put s.groups g (f (groupAt s g)) }

/-- The T code of a descriptor's TYPE (R337, R360): 0 F32, 1 BF16, 2 I32. -/
def groupT (t : BitVec 2) : Option Nat := if t = 0#2 then some 2 else if t = 1#2 then some 4 else if t = 2#2 then some 0 else none

/-- The member a core contributes as (R360): its die, or the device (8) in a group that names peers. -/
def memberOf (d : GroupDesc) (core : Nat) : Nat := if d.peers.isEmpty then dieOfCore core else 8

/-- The members of this package (R337). -/
def members (d : GroupDesc) : List Nat := if d.peers.isEmpty then d.dies else [8]

/-- The group tests of R360, after those of R25: the group, the byte within its window. -/
def groupTest (s : State) (a : Nat) (t : Option Nat) : Option (Nat × Nat) :=
  let l := localOf a
  let g := l / 2 ^ 30 % 1024
  let x := groupAt s g
  let off := l % 2 ^ 30
  if regionOf s.fabric.number a ≠ .windows ∨ !x.valid ∨ 128 * x.desc.lines ≤ off ∨ t.any (fun v => groupT x.desc.type ≠ some v) then none
  else some (g, off)

/-- A word of the ENGINE group on a group window (R360, R361). -/
def groupWord (h : Guard) (o : XF) (t : Option Nat) (f : Env → State → Nat → Nat → State × LaneRes) (s : State) : Result :=
  .next (runWord (cfgNR h) (fun e s =>
    match accessAddr e (cReg e.th (o.x1.toNat % 32)) accMr (readCode e o.x2.toNat).toNat 4 4 with
    | .error x => (s, .fault x)
    | .ok a =>
      match groupTest s a t with
      | none => (s, .fault (mkFault causePerm 0x6C a))
      | some (g, off) => f e s g off) s)

/-- STMR (R360): it leaves once every earlier write of its thread is acknowledged. -/
def execStmr (h : Guard) (o : XF) (s : State) : Result :=
  groupWord h o (some o.t.toNat) (fun e s g off =>
    let r := fenceReady s e.sh e.ln false
    if !r.2 then (r.1, .hold .stall)
    else if !portReady r.1 e then (portHolds r.1 e, .hold .stall)
    else
      let m := memberOf (groupAt r.1 g).desc (coreOf e.sh)
      (updGroup (packet r.1 e 4) g fun x =>
        let t := Tab.get [] x.contrib m
        let own := Tab.get [] x.owners (off / 128)
        { x with contrib := Tab.put x.contrib m (Tab.put t (off / 4) (Tab.get [] t (off / 4) ++ [readCode e o.x0.toNat])),
                 owners := if own.contains e.sf.ctx then x.owners else Tab.put x.owners (off / 128) (own ++ [e.sf.ctx]) }, .ok wrNone)) s

/-- A generation count has reached the one waited for (R361). -/
def genReached (count : Nat) (target : Word) : Bool := decide ((BitVec.ofNat 32 count - target).toNat < 2 ^ 31)

/-- A lane leaves MRWAIT (R339, R361): the deliveries counted come before what its core does next. -/
def acquireSum (s : State) (g core : Nat) : State := raisePts s core (groupAt s g).time

/-- MRWAIT (R361). -/
def execMrwait (h : Guard) (o : XF) (s : State) : Result :=
  groupWord h o none (fun e s g _ =>
    let m := memberOf (groupAt s g).desc (coreOf e.sh)
    let t := readCode e o.x0.toNat
    if genReached (Tab.get 0 (groupAt s g).gens m) t then (acquireSum s g (coreOf e.sh), .ok wrNone) else (s, .hold (.mr g m t))) s

/-- Lanes held in MRWAIT on a group, each with what becomes of it. -/
def groupWaiters (s : State) (g : Nat) (f : Nat → Word → Thread → Option LaneRes) : List ((Nat × Nat) × LaneRes) :=
  s.sheaves.flatMap fun e => e.2.lanes.filterMap fun l => match l.2.hold with
    | some (.mr x m t) => if x = g then (f m t l.2).map fun r => ((e.1, l.1), r) else none
    | _ => none

/-- Lanes held in MRWAIT go on with their results. -/
def resumeMr (s : State) (g : Nat) (l : List ((Nat × Nat) × LaneRes)) : State := resumeAll (l.foldl (fun s x => acquireSum s g (coreOf x.1.1)) s) l

/-- What becomes of a lane held in MRWAIT (R361, R433): it goes on once its generation is counted, and faults if its group is no longer valid. -/
def mrResult (s : State) (g m : Nat) (t : Word) (th : Thread) : Option LaneRes :=
  if genReached (Tab.get 0 (groupAt s g).gens m) t then some (.ok wrNone)
  else if !(groupAt s g).valid then some (.fault (mkFault causePerm 0x6C th.pc.toNat))
  else none

/-- Values added two at a time in an order nothing specifies (R338), by the model's counter. Log 12 (DEDUCED). -/
def sumTree (add : Nat → Nat → Nat) : Nat → Nat → List Nat → Nat
  | 0, _, l => l.headD 0
  | n + 1, seed, l =>
    let k := Config.freeNat seed % max 1 l.length
    match l.drop k ++ l.take k with
    | a :: b :: rest => sumTree add n (seed + 1) (add a b :: rest)
    | l => l.headD 0

/-- The values a contributed word holds in its group's type: BF16 widened to F32 (R338, R360). -/
def contribVals (t : Nat) (w : Word) : List Nat :=
  if t = 4 then [w.toNat % 2 ^ 16 * 2 ^ 16, w.toNat / 2 ^ 16 * 2 ^ 16] else [w.toNat]

/-- Addition in a group's type (R338). -/
def sumAdd (t : Nat) (a b : Nat) : Nat := if t = 0 then (a + b) % 2 ^ 32 else (addBits 2 0 false a b).1

/-- The front words of a line of one member. Log 12 (DEDUCED). -/
def lineWords (x : MrGroup) (m line : Nat) : List Word :=
  (List.range 32).filterMap fun w => (Tab.get [] (Tab.get [] x.contrib m) (line * 32 + w)).head?

/-- A line that a member has contributed (R360). -/
def lineReady (x : MrGroup) (m line : Nat) : Bool := decide ((lineWords x m line).length = 32)

/-- The sum of a line over the members of the package (R338). -/
def packageSum (s : State) (x : MrGroup) (t line : Nat) : List Word :=
  let ms := sortBy (Config.laneKey s.free) (members x.desc)
  let rows := ms.map fun m => (lineWords x m line).flatMap (contribVals t)
  (List.range (if t = 4 then 64 else 32)).map fun i => BitVec.ofNat 32 (sumTree (sumAdd t) ms.length (s.free + 8 * i) (rows.map fun r => r.getD i 0))

/-- The front words of a line taken from every member. -/
def takeLine (x : MrGroup) (line : Nat) : MrGroup :=
  { x with contrib := x.contrib.map fun m => if (members x.desc).contains m.1
      then (m.1, (List.range 32).foldl (fun t w => Tab.put t (line * 32 + w) ((Tab.get [] t (line * 32 + w)).drop 1)) m.2) else m }

/-- A sum in the form it is delivered in: BF16 rounded once (R338). -/
def sumBytes (t : Nat) (l : List Word) : List Byte :=
  if t = 4 then l.flatMap fun w => toBytes 2 (deliverFV 4 0 false (decodeFloat 2 false w.toNat)).1 else l.flatMap fun w => toBytes 4 w.toNat

/-- The granules of every DEST of a line (R27). Log 34 (DEDUCED). -/
def destCheck (s : State) (x : MrGroup) (line : Nat) : List (Nat × GCheck) :=
  x.desc.dest.filterMap fun d =>
    let a := (capBase d.2 + 128 * line) % 2 ^ 52
    if d.1 < 8 ∧ regionOf s.fabric.number a = .hbm ∧ 128 * (line + 1) ≤ capLen d.2 then some (localOf a, granuleCheck s (localOf a) (capColour d.2)) else none

/-- Nothing contributed to a line is on its way any more. -/
def lineEmpty (x : MrGroup) (line : Nat) : Bool :=
  (Tab.get [] x.atSwitch line).isEmpty && (members x.desc).all fun m => (List.range 32).all fun w => (Tab.get [] (Tab.get [] x.contrib m) (line * 32 + w)).isEmpty

/-- A multicast-reduce of a context is in flight (R339): every member has contributed a line that it has contributed to, or the line's sum is at the switch.
Log 34 (DEDUCED). -/
def sumsInFlight (s : State) (ctx : Nat) : Bool :=
  s.groups.any fun g => g.2.owners.any fun l => l.2.contains ctx &&
    (!(Tab.get [] g.2.atSwitch l.1).isEmpty || (members g.2.desc).all fun m => lineReady g.2 m l.1)

/-- A sum delivered to the dies' DEST as writes by another party (R338); a generation is counted once all its lines are delivered (R339), and lanes in
MRWAIT go on. Log 34 (DEDUCED). -/
def deliverSum (s : State) (g line t : Nat) (sum : List Word) : State :=
  let s0 := (destCheck s (groupAt s g) line).foldl (fun s d => if d.2 = .pass then otherWrite 3 s d.1 (sumBytes t sum) false 0 else s) s
  let time := (destCheck s (groupAt s g) line).foldl (fun m d => max m (homeTimes s0 (lineOf d.1)).1) (groupAt s g).time
  let s1 := updGroup s0 g fun x =>
    { x with time := time, owners := if lineEmpty x line then Tab.drop x.owners line else x.owners }
  let s2 := updGroup s1 g fun x =>
    let d := Tab.put x.delivered line (Tab.get 0 x.delivered line + 1)
    if (List.range x.desc.lines).all fun i => decide (1 ≤ Tab.get 0 d i) then
      { x with delivered := (List.range x.desc.lines).foldl (fun d i => Tab.set 0 d i (Tab.get 0 d i - 1)) d,
               gens := (members x.desc).foldl (fun t m => Tab.put t m (Tab.get 0 t m + 1)) x.gens }
    else { x with delivered := d }
  resumeMr s2 g (groupWaiters s2 g (mrResult s2 g))

/-- MR_DELIVERY (R338, R433): every member of the package has contributed the line: its sum is delivered, or goes to the switch. -/
def execMrDelivery (group line : Nat) (s : State) : Result :=
  .next (
    let x := groupAt s group
    match groupT x.desc.type with
    | none => s
    | some t =>
      if group < 1024 ∧ x.valid ∧ line < x.desc.lines ∧ members x.desc ≠ [] ∧ (members x.desc).all (fun m => lineReady x m line) ∧
          !((destCheck s x line).any fun d => d.2 = .transit) then
        let sum := packageSum s x t line
        let s1 := { (updGroup s group fun x => takeLine x line) with free := s.free + 8 * 64 }
        if x.desc.peers.isEmpty then deliverSum s1 group line t sum
        else
          let s2 := updGroup s1 group fun x => { x with atSwitch := Tab.put x.atSwitch line (Tab.get [] x.atSwitch line ++ [sum]) }
          send s2 (.peerSum (x.desc.peers.headD 0) group line sum)
      else s)

/-- MR_SWITCH_SUM (R433): the switch returns the sum over the devices. -/
def execMrSwitchSum (group line : Nat) (sum : List Word) (s : State) : Result :=
  .next (
    let x := groupAt s group
    match groupT x.desc.type with
    | none => s
    | some t =>
      if group < 1024 ∧ x.valid ∧ line < x.desc.lines ∧ Tab.get [] x.atSwitch line ≠ [] ∧ sum.length = (if t = 4 then 64 else 32) then
        deliverSum (updGroup s group fun x => { x with atSwitch := Tab.put x.atSwitch line ((Tab.get [] x.atSwitch line).drop 1) }) group line t sum
      else s)

/-- MR_GROUP_INVALIDATE (R433): held lanes raise CAP_PERM with reason 0x6C; contributions not yet summed are discarded; the counts stand. -/
def execMrGroupInvalidate (group : Nat) (s : State) : Result :=
  .next (if group < 1024 then
      let s1 := updGroup s group fun x => { x with valid := false, contrib := [], atSwitch := [], delivered := [], owners := [] }
      resumeMr s1 group (groupWaiters s1 group (mrResult s1 group))
    else s)

/-- GROUP_DESCRIPTOR_SET (R337). -/
def execGroupDescriptorSet (group : Nat) (desc : GroupDesc) (s : State) : Result :=
  .next (if group < 1024 then updGroup s group fun x => { x with desc := desc, valid := (groupT desc.type).isSome && decide (1 ≤ desc.lines), contrib := [],
                                                                 atSwitch := [], delivered := [], owners := [] }
    else s)

end Sys2Proof.Machine
end

