-- ==== Sys2Proof/Machine/Rake.lean ====
section
/-! DEFINITION. The rake (R331 to R335): marking ranges, starting, sweeping and completing passes, for this device and for peers; RKMARK, RKPASS,
RKWAIT and RKSTAT (R357 to R359). -/

namespace Sys2Proof.Machine

/-- The state with the rake changed. -/
def updRake (s : State) (f : Rake → Rake) : State := { s with rake := f s.rake }

/-- The checks of a rake authority (R331): tag, sealing, KIND 6 and colour. -/
def authCheck (colours : DWord) (c : Cap) : Option Byte :=
  if !c.tag then some causeTag
  else if capSealed c then some causeSealed
  else if capKind c ≠ 6 then some causeKind
  else if !(validColours colours).contains (capColour c) then some causeColour
  else none

/-- The first pass of a kind that waits (R357). -/
def waitingPass (r : Rake) (relocate : Bool) : Option Nat :=
  (r.waiting.find? fun p => p.relocate == relocate && p.origin.isNone).map (·.number)

/-- RKMARK in a lane (R357). -/
def rkmarkWord (h : Guard) (o : XF) (relocate : Bool) (s : State) : Result :=
  .next (runWord (cfgNR h) (fun e s =>
    let c := cReg e.th (o.x1.toNat % 32)
    let off := (codePair e o.x2).toNat
    let q := if relocate then (codeQuad e o.x3).toNat else (codePair e o.x3).toNat
    let l := q % 2 ^ 64
    let base := (capBase c + off) % 2 ^ 52
    match authCheck (coloursOf s e.sf) c with
    | some x => (s, .fault (mkFault x 0 base))
    | none =>
      if l = 0 ∨ capLen c < off + l then (s, .fault (mkFault causeBounds 0 base))
      else if 256 ≤ s.rake.entries.length then (s, .ok (wrPred o.x0.toNat false))
      else
        let x : RakeEntry := { base := base, len := l, relocate := relocate, delta := BitVec.ofNat 52 (q / 2 ^ 64), colour := BitVec.ofNat 12 (capColour c),
                               pass := waitingPass s.rake relocate, unloads := none }
        (updRake s fun r => { r with entries := r.entries ++ [x] }, .ok (wrPred o.x0.toNat true))) s)

/-- RKMARK (R357). -/
def execRkmark (h : Guard) (o : XF) (s : State) : Result := rkmarkWord h o false s

/-- RKMARK, the relocate form (R357). -/
def execRkmarkRelocate (h : Guard) (o : XF) (s : State) : Result := rkmarkWord h o true s

/-- The bits of a mask of peers, bit 511 ignored (R334). -/
def maskPeers (m : Nat) : List Nat := (List.range 511).filter fun k => m / 2 ^ k % 2 = 1

/-- The peers of a mask that are kept: not this device, and reached by a trained port (R358). -/
def keptPeers (s : State) (l : List Nat) : List Nat := l.filter fun p => decide (p ≠ s.fabric.number) && !(routeOf s p).isEmpty

/-- The number after the last one allocated (R358). -/
def nextPass (last : Nat) : Nat := if (last + 1) % 2 ^ 32 = 0 then 1 else (last + 1) % 2 ^ 32

/-- A pass queued with its peers: its number, or none where five are outstanding (R332, R358). -/
def queuePass (s : State) (relocate : Bool) (peers : List Nat) (ctx : Option Nat) : State × Option Nat :=
  let r := s.rake
  let own := (r.running.toList ++ r.waiting).filter fun p => p.origin.isNone
  if 5 ≤ own.length then (s, none)
  else
    let n := nextPass r.last
    let p : Pass :=
      { number := n, relocate := relocate, ranges := [], peers := peers, swept := false, cursor := 0, leases := 0, origin := none, ctx := ctx }
    (updRake s fun r => { r with last := n, waiting := r.waiting ++ [p],
                                 entries := r.entries.map fun x => if x.relocate = relocate ∧ x.pass = none then { x with pass := some n } else x }, some n)

/-- What RKPASS writes (R358): the number of the pass queued and of the mask bits dropped, or 0 and 0. -/
def passAnswer (s : State) (o : XF) (relocate : Bool) (ctx : Nat) (l : List Nat) : State × (Nat → LaneRes) :=
  let kept := keptPeers s l
  match queuePass s relocate kept (some ctx) with
  | (s1, some n) => (s1, fun _ => .ok (wrPair o.x0 (BitVec.ofNat 32 (l.length - kept.length) ++ BitVec.ofNat 32 n)))
  | (s1, none) => (s1, fun _ => .ok (wrPair o.x0 0))

/-- RKPASS (R358): the authority, the mask from a pair or from memory, then the pass. -/
def rkpassWord (h : Guard) (o : XF) (relocate : Bool) (s : State) : Result :=
  .next (wordScope (cfgNR h) (fun e s =>
    let c := cReg e.th (o.x1.toNat % 32)
    match authCheck (coloursOf s e.sf) c with
    | some x => (s, fun _ => .fault (mkFault x 0 (capBase c)))
    | none =>
      if o.flags.getLsbD 1 then
        let w := cReg e.th (o.x3.toNat % 32)
        match accessAddr e w accLoad 0 64 16 with
        | .error f => (s, fun _ => .fault f)
        | .ok a =>
          match readStruct s e w a 4 with
          | (s1, .ok (b, _)) => passAnswer s1 o relocate e.sf.ctx (maskPeers (ofBytes b))
          | (s1, .error (.fault x r)) => (s1, fun _ => .fault (mkFault x r a))
          | (s1, .error (.hold y)) => (s1, fun _ => .hold y)
      else passAnswer s o relocate e.sf.ctx (maskPeers (codePair e o.x2).toNat)) s)

/-- RKPASS (R358). -/
def execRkpass (h : Guard) (o : XF) (s : State) : Result := rkpassWord h o false s

/-- RKPASS, the relocate form (R358). -/
def execRkpassRelocate (h : Guard) (o : XF) (s : State) : Result := rkpassWord h o true s

/-- A pass number's state (R359): 1 running, 2 waiting, 0 not outstanding. -/
def passState (r : Rake) (n : Nat) : Nat :=
  if n = 0 ∨ 5 ≤ (r.last + 2 ^ 32 - n) % 2 ^ 32 then 0
  else if r.running.any fun p => p.origin.isNone && decide (p.number = n) then 1
  else if r.waiting.any fun p => p.origin.isNone && decide (p.number = n) then 2
  else 0

/-- RKWAIT (R359). -/
def execRkwait (h : Guard) (o : XF) (s : State) : Result :=
  .next (runWord (cfgNR h) (fun e s =>
    (s, if passState s.rake (readCode e o.x0.toNat).toNat = 0 then .ok wrNone else .hold .stall)) s)

/-- RKSTAT (R359). -/
def execRkstat (h : Guard) (o : XF) (s : State) : Result :=
  .next (runWord (cfgNR h) (fun e s =>
    (s, .ok (wrPair o.x0 (BitVec.ofNat 32 (256 - s.rake.entries.length) ++ BitVec.ofNat 32 (passState s.rake (readCode e o.x1.toNat).toNat))))) s)

/-- What a pass does to a capability (R332, R333): the tag cleared, or the BASE moved. -/
def passCap (p : Pass) (c : Cap) : Cap :=
  if !c.tag then c
  else
    match p.ranges.find? fun r => decide (r.base ≤ capBase c) && decide (capBase c < r.base + r.len) && (!p.relocate || decide (r.colour.toNat = capColour c)) with
    | none => c
    | some r => if p.relocate then capField c 76 52 ((capBase c + r.delta.toNat) % 2 ^ 52) else { c with tag := false }

/-- A pass on the capability registers of a thread, and on the granules it has read of a structure. -/
def passThread (p : Pass) (th : Thread) : Thread := { th with c := th.c.map fun x => (x.1, passCap p x.2), buf := th.buf.map (passCap p) }

/-- A thread in a run holds something the pass acts on: it is checked at its next run boundary (R332).
Log 33 (DESIGN CHOICE). -/
def passWaits (p : Pass) (th : Thread) : Bool :=
  decide (th.status = .live) && (match th.run with
    | none => false
    | some r => th.c.any (fun x => passCap p x.2 != x.2) || r.stores.any fun x => x.tagged && passCap p { bits := x.data, tag := true } != { bits := x.data, tag := true })

/-- A pass on a sheaf: its lanes between runs. -/
def passSheaf (p : Pass) (sf : Sheaf) : Sheaf :=
  { sf with lanes := sf.lanes.map fun l => (l.1, if passWaits p l.2 then l.2 else passThread p l.2) }

/-- A pass on a travel packet (R224). -/
def passPacket (p : Pass) (x : Packet) : Packet := { x with c := x.c.map fun y => (y.1, passCap p y.2) }

/-- A pass on a posted store. -/
def passStore (p : Pass) (x : PStore) : PStore :=
  let c := passCap p { bits := x.data, tag := x.tagged }
  { x with data := if x.tagged then c.bits else x.data, tagged := c.tag }

/-- A pass on a mailbox operation on its way. -/
def passMail (p : Pass) (m : Mail) : Mail := { m with carried := passCap p m.carried, cap := passCap p m.cap }

/-- A revoke pass on a peer's access that waits here: the capability it carries arrives untagged (R334). -/
def passIngress (p : Pass) (r : IngressReq) : IngressReq :=
  { r with carried := r.carried.map fun w => { w with codeOk := w.codeOk && (p.relocate || (passCap p { bits := w.bits, tag := true }).tag) } }

/-- A pass on an access held at a granule in transit. -/
def passHeld (p : Pass) (h : Held) : Held :=
  match h with
  | .store x => .store (passStore p x)
  | .mail recv m => .mail recv (passMail p m)
  | .ingress r => .ingress (passIngress p r)
  | .lane a b c => .lane a b c
  | .renew r => .renew r
  | .back w => .back w
  | .window g fn win off size data => .window g fn win off size data

/-- A pass on a saved request of a copy engine (R332, R396). -/
def passCopy (p : Pass) (r : CopyReq) : CopyReq :=
  match r with
  | .tile ctx l i drain c off stride hint fed => .tile ctx l i drain (passCap p c) off stride hint fed
  | .command ctx l src dst sig soff doff len done tags hint failed =>
    .command ctx l (passCap p src) (passCap p dst) (passCap p sig) soff doff len done tags hint failed

/-- A pass on the granules of a scratch memory with its tags. -/
def passTagged (p : Pass) (m : Memory × Tab Bool) : Memory × Tab Bool :=
  m.2.foldl (fun m t =>
    let v : Cap := { bits := BitVec.ofNat 128 (ofBytes (readMem m.1 (16 * t.1) 16)), tag := t.2 }
    let d := passCap p v
    if d = v then m else (writeMem m.1 (16 * t.1) (toBytes 16 d.bits.toNat), Tab.set false m.2 t.1 d.tag)) m

/-- A pass on a core's scratch. -/
def passScratch (p : Pass) (c : CoreSt) : CoreSt :=
  let r := passTagged p (c.scratch, c.stags)
  { c with scratch := r.1, stags := r.2 }

/-- A pass on the save area of a context. -/
def passImage (p : Pass) (x : SaveImage) : SaveImage :=
  { x with sheaves := x.sheaves.map fun e => (e.1, passSheaf p e.2), feeders := x.feeders.map fun e => (e.1, { e.2 with c := e.2.c.map fun y => (y.1, passCap p y.2) }),
           scratch := x.scratch.map fun e => (e.1, passTagged p e.2), copies := x.copies.map fun e => (e.1, e.2.map (passCopy p)) }

/-- A pass on a launch: what its threads are to start with (R288), and its arrival FIFOs. -/
def passLaunch (p : Pass) (l : Launch) : Launch :=
  { l with args := passCap p l.args, stack := passCap p l.stack, runner := l.runner.map fun r => { r with fifos := r.fifos.map fun f => (f.1, f.2.map (passPacket p)) } }

/-- A pass on what a host queue holds of a command in progress. -/
def passQueue (p : Pass) (q : QueueSt) : QueueSt :=
  { q with
    raw := q.raw.map fun x =>
      let m := passTagged p ((List.range x.1.length).zip x.1, (List.range 8).map fun k => (k, x.2.getLsbD k))
      (m.1.map (·.2), BitVec.ofNat 8 ((List.range 8).foldl (fun acc k => acc + (if Tab.get false m.2 k then 2 ^ k else 0)) 0)),
    waiting := q.waiting.map fun x => (passCap p x.1, x.2), buf := q.buf.map (passCap p) }

/-- The places of R332 outside memory: c-registers of resident and saved threads and feed programs, FIFOs, what launches and host queues keep for threads to
come, and what is on its way; the queue of a live copy engine is no such place (R449). Log 33 (DESIGN CHOICE). -/
def passRegisters (s : State) (p : Pass) : State :=
  { s with
    sheaves := s.sheaves.map fun e => (e.1, passSheaf p e.2),
    cores := s.cores.map fun e => (e.1, { e.2 with feeder := { e.2.feeder with c := e.2.feeder.c.map fun y => (y.1, passCap p y.2) } }),
    launches := s.launches.map fun e => (e.1, passLaunch p e.2),
    ctxs := s.ctxs.map fun e => (e.1, { e.2 with image := e.2.image.map (passImage p) }),
    host := { s.host with queues := s.host.queues.map fun e => (e.1, passQueue p e.2) },
    net := { s.net with packets := s.net.packets.map (passPacket p), stores := s.net.stores.map (passStore p),
                        csends := s.net.csends.map (passMail p), held := s.net.held.map (passHeld p) } }

/-- A lane in a run still holds something the pass acts on. Log 33 (DESIGN CHOICE). -/
def passBlocked (s : State) (p : Pass) : Bool := s.sheaves.any fun e => e.2.lanes.any fun l => passWaits p l.2

/-- A pass on one granule of memory (R332, R333): a write by another party where it changes something; the line's lease end is kept. -/
def passGranule (acc : State × Nat) (p : Pass) (g : Nat) : State × Nat :=
  let s := acc.1
  let c : Cap := { bits := BitVec.ofNat 128 (ofBytes (readMem s.mem (16 * g) 16)), tag := true }
  let d := passCap p c
  if d = c then acc
  else
    let lease := (homeTimes s (g / 8)).2
    ((homeWrite s 0 (16 * g) (toBytes 16 d.bits.toNat) d.tag 0).1, max acc.2 (lease + 1))

/-- A pass on every core's scratch. -/
def passBanks (s : State) (p : Pass) : State := { s with cores := s.cores.map fun e => (e.1, passScratch p e.2) }

/-- The tagged granules of a 4 KiB batch: the first that holds one at or after a granule (R310, R332).
Log 33 (DESIGN CHOICE). -/
def batchAt (s : State) (from_ : Nat) : List Nat × Nat :=
  match s.tags.find? fun t => decide (from_ ≤ t.1) && t.2 with
  | none => ([], 0)
  | some t => ((s.tags.filter fun x => decide (x.1 / 256 = t.1 / 256) && decide (from_ ≤ x.1) && x.2).map (·.1), (t.1 / 256 + 1) * 256)

/-- The running pass replaced. -/
def setPass (s : State) (p : Pass) : State := updRake s fun r => { r with running := some p }

/-- RAKE_PASS_START (R332): the pass takes its ranges, the peers of its mask are told, and packets in flight are marked (R224). -/
def execRakePassStart (s : State) : Result :=
  .next (match s.rake.running, s.rake.waiting with
    | none, p :: rest =>
      let own := (s.rake.entries.filter fun x => decide (x.pass = some p.number)).map fun x =>
        ({ base := x.base, len := x.len, relocate := x.relocate, delta := x.delta, colour := x.colour } : SweepRange)
      let p1 := if p.origin.isSome then p else { p with ranges := own }
      let s1 := updRake s fun r => { r with running := some p1, waiting := rest }
      let clear := fun (l : List Packet) (b : Bool) => l.map fun x => { x with old := b }
      let s2 := { s1 with launches := s1.launches.map fun e =>
        (e.1, { e.2 with runner := e.2.runner.map fun r => { r with fifos := r.fifos.map fun f => (f.1, clear f.2 false) } }) }
      p1.peers.foldl (fun s k => send s (.peerPass k p1.number p1.ranges)) (updNet s2 fun n => { n with packets := clear n.packets true })
    | _, _ => s)

/-- The context whose pass runs has been stopped and not restored yet (R335). A migration's own pass waits for every pass before it (R434).
Log 33 (DESIGN CHOICE). -/
def rakeStopped (s : State) (p : Pass) : Bool :=
  match p.ctx with
  | none => false
  | some k => !s.host.migration.any (fun m => decide (m.ctx = k)) && (match (ctxAt s k).state with
      | .stopping => true
      | .stopped => true
      | .saving => true
      | .saved => true
      | .restoring => true
      | _ => false)

/-- RAKE_BATCH (R332, R333, R335): registers and packets first, until no lane in a run is left out; then memory, 4 KiB at a time. A relocate pass acts on the
registers once, so that every capability moves once. A stop of the pass's context stops it between batches. Log 33 (DESIGN CHOICE). -/
def execRakeBatch (s : State) : Result :=
  .next (match s.rake.running with
    | none => s
    | some p =>
      if p.swept || rakeStopped s p then s
      else if p.cursor = 0 then
        (if p.relocate && passBlocked s p then s
         else
          let s2 := passBanks (passRegisters s p) p
          if passBlocked s p then s2 else setPass s2 { p with cursor := 1 })
      else
        match batchAt s (p.cursor - 1) with
        | ([], _) => setPass s { p with swept := true }
        | (l, next) =>
          let r := l.foldl (fun acc g => passGranule acc p g) (s, p.leases)
          setPass r.1 { p with cursor := next + 1, leases := r.2 })

/-- RAKE_PEER_REPORT (R334): a peer has swept for the running pass. -/
def execRakePeerReport (peer : Nat) (s : State) : Result :=
  .next (match s.rake.running with
    | some p => if p.origin.isNone then setPass s { p with peers := p.peers.erase peer } else s
    | none => s)

/-- Packets that were in flight when the pass began are neither placed nor in a ring (R224). -/
def oldPackets (s : State) : Bool :=
  s.net.packets.any (fun x => x.old) || s.launches.any fun (e : Nat × Launch) => match e.2.runner with
    | some r => r.fifos.any fun (f : Nat × List Packet) => f.2.any fun x => x.old
    | none => false

/-- The running pass may complete (R334). -/
def passMayEnd (s : State) (p : Pass) : Bool :=
  p.swept && p.peers.isEmpty && (decide (p.leases = 0) || (List.range Config.cores).all fun k => decide (p.leases ≤ (coreAt s k).pts)) && !oldPackets s

/-- RAKE_PASS_COMPLETE (R334): its entries are freed; a peer's pass is reported to it. -/
def execRakePassComplete (s : State) : Result :=
  .next (match s.rake.running with
    | none => s
    | some p =>
      if !passMayEnd s p then s
      else
        match p.origin with
        | some k => send (updRake s fun r => { r with running := none }) (.sweepDone k p.number)
        | none => updRake s fun r => { r with running := none, entries := r.entries.filter fun x => decide (x.pass ≠ some p.number) })

/-- PEER_SWEEP (R334): a peer asks for a sweep under its own pass number. -/
def execPeerSweep (peer pass : Nat) (ranges : List SweepRange) (s : State) : Result :=
  .next (if peer < 511 then
      let p : Pass := { number := pass, relocate := ranges.any (·.relocate), ranges := ranges, peers := [], swept := false, cursor := 0, leases := 0, origin := some peer, ctx := none }
      updRake s fun r => { r with waiting := r.waiting ++ [p] }
    else s)

end Sys2Proof.Machine
end

