-- ==== Sys2Proof/Machine/Pred.lean ====
section
/-! DEFINITION. PRED (R98 to R102): comparisons, classes, predicate logic and moves between predicates and registers. -/

namespace Sys2Proof.Machine

/-- COMB (R98): set, AND or OR with the old predicate. -/
def combine (c : Nat) (old new : Bool) : Bool :=
  match c / 8 % 4 with
  | 0 => new
  | 1 => old && new
  | _ => old || new

/-- The ICMP conditions (R99). -/
def intCond (c : Nat) (a b : Int) : Bool :=
  match c % 8 with
  | 0 => a = b
  | 1 => a ≠ b
  | 2 => a < b
  | 3 => a ≤ b
  | 4 => b < a
  | _ => b ≤ a

/-- ICMP (R98, R99). -/
def execIcmp (h : Guard) (o : Tri) (s : State) : Result :=
  .next (computeOk h (fun e =>
    let t := o.t.toNat
    let r := intCond (ctlByte o) (intOf t (src e o.a t).toNat) (intOf t (src e o.b t).toNat)
    wrPred o.d.toNat (combine (ctlByte o) (pReg e.th o.d.toNat) r)) s)

/-- FCMP (R98, R99). -/
def execFcmp (h : Guard) (o : Tri) (s : State) : Result :=
  .next (computeOk h (fun e =>
    let t := o.t.toNat
    let r := compareBits t (ctlByte o % 8) (frmFTZ e.th.spr.frm) (srcT e o.a t).toNat (srcT e o.b t).toNat
    wrFlags (wrPred o.d.toNat (combine (ctlByte o) (pReg e.th o.d.toNat) r.1)) r.2) s)

/-- FCLASS (R100). -/
def execFclass (h : Guard) (o : Tri) (s : State) : Result :=
  .next (computeOk h (fun e =>
    wrPred o.d.toNat ((ctlByte o).testBit (classOf o.t.toNat (srcT e o.a o.t.toNat).toNat))) s)

/-- PLOP3 (R101). -/
def execPlop3 (h : Guard) (o : Tri) (s : State) : Result :=
  .next (computeOk h (fun e =>
    let b := fun (n : Nat) => if pReg e.th n then 1 else 0
    wrPred o.d.toNat ((ctlByte o).testBit (4 * b o.a.reg.toNat + 2 * b o.b.reg.toNat + b o.d.toNat))) s)

/-- The predicates of a group that lie in the kernel's allocation (R102): position in the word and number. -/
def predGroup (e : Env) (g : Nat) : List (Nat × Nat) :=
  ((List.range (if g = 0 then 32 else 16)).map fun k => (k, 32 * g + k)).filter fun x => x.2 < e.sf.allocPreds

/-- P2G (R102). -/
def execP2g (h : Guard) (o : Tri) (s : State) : Result :=
  .next (computeOk h (fun e =>
    wrReg o.d (maskOf (((predGroup e (ctlByte o % 2)).filter fun x => pReg e.th x.2).map (·.1)))) s)

/-- G2P (R102). -/
def execG2p (h : Guard) (o : Tri) (s : State) : Result :=
  .next (computeOk h (fun e =>
    let a := src e o.a 0
    let b := src e o.b 0
    { wrNone with preds := ((predGroup e (ctlByte o % 2)).filter fun x => b.getLsbD x.1).map fun x => (x.2, a.getLsbD x.1) }) s)

end Sys2Proof.Machine
end

