-- ==== Sys2Proof/Machine/Feed.lean ====
section
/-! DEFINITION. The feeder (R323 to R325): binding and stopping it, its queues, the words of its feed program; the FEED group (R349 to R353). -/

namespace Sys2Proof.Machine

/-- The state with a core's feeder changed. -/
def updFeeder (s : State) (k : Nat) (f : Feeder → Feeder) : State := updCore s k fun c => { c with feeder := f c.feeder }

/-- A feed queue. -/
def feedQueue (f : Feeder) (q : Nat) : List QWord := Tab.get [] f.queues q

/-- ILLEGAL_INSTRUCTION with reason 0x0C (R349). -/
def feedIllegal (pc : Word) : FaultInfo := mkFault causeIllegal 0x0C pc.toNat

/-- The feeder's bank: the highest-numbered CACHE bank that is not switching (R323). -/
def feederBank (s : State) (k : Nat) : Option Nat := (cacheBanks (coreAt s k)).getLast?

/-- The feeder bound to a team at an entry of a lane's code capability (R323): its bank switches to FIFO mode and is reserved. -/
def bindFeeder (s : State) (k : Nat) (t : Nat × Team) (th : Thread) (entry b : Nat) : State :=
  let s1 := (bankSwitch s k b .fifo true).1
  updCore s1 k fun c =>
    { c with banks := Tab.put c.banks b { bankAt c b with reserved := true },
             feeder := { team := some t.1, ctx := t.2.ctx, bank := b, code := th.code, pc := BitVec.ofNat 32 entry, g := [], p := [],
                         c := th.c.filter fun x => x.1 < 8, frm := 0, closed := false, ending := false, faulted := none, queues := [] } }

/-- FSTART (R350). -/
def execFstart (h : Guard) (o : XF) (s : State) : Result :=
  .next (wordScope (cfgNRR h) (fun e s =>
    let k := coreOf e.sh
    let n := o.x1.toNat
    let off := entryOffset s e.th.code n
    let done := fun (v : Word) => (s, fun (_ : Nat) => LaneRes.ok (wrReg o.x0 v))
    if byFeeder e.sh then (s, fun _ => .fault (feedIllegal e.th.pc))
    else if (coreAt s k).feeder.team.isSome then done 1
    else
      match feederBank s k, teamOf s e.sf with
      | some b, some t =>
        if entryCount s e.th.code ≤ n ∨ capLen e.th.code < off + 8 then done 3
        else
          let r := startReady s e.parts
          if r.2 then (bindFeeder r.1 k t e.th off b, fun _ => .hold (.bank b o.x0)) else (r.1, fun _ => .hold .again)
      | _, _ => done 2) s)

/-- FPUSH of the feed program (R314, R351): it waits for room, then for the tile that it releases, which is tested after that. -/
def feedPush (s : State) (e : Env) (o : XF) : State × LaneRes :=
  let k := issuerCore e.sh
  let f := (coreAt s k).feeder
  let push := fun (s : State) => (updFeeder s k fun f => { f with queues := Tab.put f.queues (o.x0.toNat % 8) (feedQueue f (o.x0.toNat % 8) ++ [codeQuad e o.x1]) }, LaneRes.ok wrNone)
  if 64 ≤ (feedQueue f (o.x0.toNat % 8)).length then (s, .hold .stall)
  else if o.x2 = 0xFF#8 then push s
  else
    match teamOf s e.sf with
    | none => (s, .fault (tileFault 0x62))
    | some t =>
      match nameTile s t.2 o.x2.toNat false false true with
      | .wait => (s, .hold .stall)
      | .fault f => (s, .fault f)
      | .ok i x =>
        if x.state = .filling ∨ x.state = .draining then (s, .hold .stall)
        else if !x.giv then (s, .fault (tileFault 0x63))
        else push (updTile s k i fun x => { x with engine := false, giv := false })

/-- FPUSH (R351); issued by a thread it is illegal (R349). -/
def execFpush (h : Guard) (o : XF) (s : State) : Result :=
  .next (runWord (cfgNRR h) (fun e s => if byFeeder e.sh then feedPush s e o else (s, .fault (feedIllegal e.th.pc))) s)

/-- What a lane of FPOP or FWAIT sees: the queue and whether it is closed, or the feeder's cause (R325, R352). -/
def feedView (s : State) (e : Env) (q : Nat) : Except FaultInfo (List QWord × Bool) :=
  let f := (coreAt s (coreOf e.sh)).feeder
  if f.team.isNone ∨ f.team ≠ e.sf.team then .ok ([], true)
  else
    match f.faulted, feedQueue f q with
    | some (c, pc), [] => .error (mkFault c 0x61 pc.toNat)
    | _, l => .ok (l, f.closed)

/-- FPOP (R352). -/
def execFpop (h : Guard) (o : XF) (s : State) : Result :=
  .next (runWord (cfgNRR h) (fun e s =>
    let q := o.x1.toNat % 8
    let pred := fun (b : Bool) => if o.x2 = 0xFF#8 then wrNone else wrPred o.x2.toNat b
    if byFeeder e.sh then (s, .fault (feedIllegal e.th.pc))
    else
      match feedView s e q with
      | .error f => (s, .fault f)
      | .ok (x :: rest, _) => (updFeeder s (coreOf e.sh) fun f => { f with queues := Tab.put f.queues q rest }, .ok (wrBoth (wrQuad o.x0 x) (pred true)))
      | .ok ([], true) => (s, .ok (wrBoth (wrQuad o.x0 0) (pred false)))
      | .ok ([], false) => (s, .hold .stall)) s)

/-- FWAIT (R352). -/
def execFwait (h : Guard) (o : XF) (s : State) : Result :=
  .next (runWord (cfgNRR h) (fun e s =>
    if byFeeder e.sh then (s, .fault (feedIllegal e.th.pc))
    else
      match feedView s e (o.x1.toNat % 8) with
      | .error f => (s, .fault f)
      | .ok (l, closed) =>
        (s, if o.x2.toNat ≤ l.length then .ok (wrPred o.x0.toNat true) else if closed then .ok (wrPred o.x0.toNat false) else .hold .stall)) s)

/-- The feeder's transfers have left a core's copy queue. -/
def feedQuiet (s : State) (k : Nat) : Bool := !(coreAt s k).copyq.any copyFed

/-- The feeder of a core stops (R324): its GIV tiles return to THREAD, its queues are discarded, its bank goes back to CACHE mode.
Log 31 (DEDUCED). -/
def stopFeeder (s : State) (k : Nat) : State :=
  let b := (coreAt s k).feeder.bank
  let s1 := updCore s k fun c =>
    { c with feeder := feederReset, tiles := c.tiles.map fun x => (x.1, if x.2.giv then { x.2 with engine := false, giv := false } else x.2),
             banks := Tab.put c.banks b { bankAt c b with reserved := false } }
  (bankSwitch s1 k b .cache true).1

/-- FSTOP (R353): once it waits it completes before its lanes are saved (R343). -/
def execFstop (h : Guard) (_ : XF) (s : State) : Result :=
  .next (wordScope (cfgNRR h) (fun e s =>
    let k := coreOf e.sh
    let f := (coreAt s k).feeder
    if byFeeder e.sh then (s, fun _ => .fault (feedIllegal e.th.pc))
    else if f.team.isNone ∨ f.team ≠ e.sf.team then (s, fun _ => .ok wrNone)
    else if feedQuiet s k then (stopFeeder s k, fun _ => .ok wrNone)
    else (updFeeder s k fun f => { f with ending := true }, fun _ => .hold .again)) s)

/-- The words of a feed program (R323): IALU, IIMM, LIH and PRED; BRA, BRX, LOOP, NOP and EXIT; TFILL, TDRAIN and FPUSH.
Log 31 (DEDUCED). -/
def feedExec (i : Instr) (s : State) : Option Result :=
  match i with
  | .add h o => some (execAdd h o s)
  | .sub h o => some (execSub h o s)
  | .mul h o => some (execMul h o s)
  | .mulh h o => some (execMulh h o s)
  | .mulhu h o => some (execMulhu h o s)
  | .mad h o => some (execMad h o s)
  | .and h o => some (execAnd h o s)
  | .or h o => some (execOr h o s)
  | .xor h o => some (execXor h o s)
  | .andn h o => some (execAndn h o s)
  | .orn h o => some (execOrn h o s)
  | .shl h o => some (execShl h o s)
  | .shr h o => some (execShr h o s)
  | .sar h o => some (execSar h o s)
  | .rot h o => some (execRot h o s)
  | .sel h o => some (execSel h o s)
  | .addi h o => some (execAddi h o s)
  | .andi h o => some (execAndi h o s)
  | .ori h o => some (execOri h o s)
  | .xori h o => some (execXori h o s)
  | .shli h o => some (execShli h o s)
  | .shri h o => some (execShri h o s)
  | .sari h o => some (execSari h o s)
  | .muli h o => some (execMuli h o s)
  | .lih h o => some (execLih h o s)
  | .icmp h o => some (execIcmp h o s)
  | .fcmp h o => some (execFcmp h o s)
  | .fclass h o => some (execFclass h o s)
  | .plop3 h o => some (execPlop3 h o s)
  | .p2g h o => some (execP2g h o s)
  | .g2p h o => some (execG2p h o s)
  | .bra h o => some (execBra h o s)
  | .brx h o => some (execBrx h o s)
  | .loop h o => some (execLoop h o s)
  | .nop h o => some (execNop h o s)
  | .exit h o => some (execExit h o s)
  | .tfill h o => some (execTfill h o s)
  | .tfillResume h o => some (execTfillResume h o s)
  | .tdrain h o => some (execTdrain h o s)
  | .tdrainResume h o => some (execTdrainResume h o s)
  | .fpush h o => some (execFpush h o s)
  | _ => none

/-- A register code of a feed program: g0 to g31, or a constant. -/
def feedCode (r : BitVec 8) (w : Wd) : Bool := if r.toNat < 0xC0 then decide (r.toNat + w.span ≤ 32) else decide (0xF0 ≤ r.toNat)

/-- A register field of a feed program names a register it has (R323). Log 31 (DEDUCED). -/
def feedUse (u : Use) : Bool :=
  match u with
  | .src x w => feedCode x.reg w
  | .code r w => feedCode r w
  | .dst r w => feedCode r w
  | .both r w => feedCode r w
  | .dst11 x => feedCode x.reg .pair
  | .gOnly r => feedCode r .one
  | .slot r => feedCode r .one
  | .pred n => decide (n < 16)
  | .creg n => decide (n < 8)

/-- A word names only what a feed program has. -/
def feedRegs (i : Instr) : Bool :=
  (wordChk i).uses.all feedUse && (match Instr.guard i with
    | some g => g.pg = 63#6 || decide (g.pg.toNat < 16)
    | none => true)

/-- The feed program's thread as its words see it. -/
def feedThread (s : State) (f : Feeder) (t : Team) : Thread :=
  { threadStart with g := f.g, p := f.p, c := f.c, code := f.code, pc := f.pc, spr := { sprStart with frm := f.frm }, teamid := t.index, stage := t.stage,
                     lane := Config.freeNat s.free, tid := Config.freeNat (s.free + 1), gangid := Config.freeNat (s.free + 2) }

/-- The feed program stands in the place of a sheaf for its word. -/
def enterFeed (s : State) (k tid : Nat) (t : Team) : State :=
  let f := (coreAt s k).feeder
  let sf : Sheaf := { sheafEmpty with ctx := f.ctx, launch := t.launch, team := some tid, lanes := [(0, feedThread s f t)] }
  { s with sheaves := Tab.put s.sheaves (feederBase + k) sf, focus := some { sh := feederBase + k, mask := 1, pairMask := 0, rest := 0, word := none }, free := s.free + 3 }

/-- After its word the feed program's registers and PC return to the feeder; EXIT closes its queues (R324), a fault stops it (R325). -/
def leaveFeed (s : State) (k : Nat) : State :=
  let s1 := match thread? s (feederBase + k) 0 with
    | some th => updFeeder s k fun f =>
      { f with g := th.g, p := th.p, pc := th.pc, closed := f.closed || decide (th.status ≠ LaneStatus.live),
               faulted := f.faulted.or (if th.park.isSome then some (th.spr.cause.setWidth 8, th.spr.fpc) else none) }
    | none => s
  { s1 with sheaves := Tab.drop s1.sheaves (feederBase + k), focus := none }

/-- The feeder stops at a fault (R325). -/
def faultFeed (s : State) (k : Nat) (cause : Byte) : State := updFeeder s k fun f => { f with faulted := some (cause, f.pc) }

/-- LOOP and branch words, where a stop request stops the feeder (R325). -/
def feedBranch (i : Instr) : Bool :=
  match i with
  | .bra _ _ => true
  | .brx _ _ => true
  | .loop _ _ => true
  | _ => false

/-- One word of a core's feed program (R310, R323). Log 31 (DEDUCED). -/
def feedStep (s : State) (k : Nat) : State :=
  let f := (coreAt s k).feeder
  match f.team with
  | none => s
  | some tid =>
    match Tab.at? s.teams tid with
    | none => s
    | some t =>
      let st := (ctxAt s f.ctx).state
      if f.closed ∨ f.faulted.isSome ∨ (bankAt (coreAt s k) f.bank).switching.isSome ∨ (st ≠ .running ∧ st ≠ .stopping) then s
      else
        match checkCap s.fabric.number (ctxAt s f.ctx).colours f.code accFetch f.pc.toNat 8 1 with
        | .error c => faultFeed s k c
        | .ok _ =>
          match decode 192 48 (wordAt s f.code f.pc.toNat) with
          | .error r => faultFeed s k (if r.pair then causePair else causeIllegal)
          | .ok i =>
            if st = .stopping ∧ feedBranch i then s
            else if !feedRegs i then faultFeed s k causeIllegal
            else
              match feedExec i (enterFeed s k tid t) with
              | some (.next s1) => leaveFeed s1 k
              | _ => faultFeed s k causeIllegal

end Sys2Proof.Machine
end

