-- ==== Sys2Proof/Machine/Cap.lean ====
section
/-! DEFINITION. CAP (R131 to R141): field readers, derivations, sealing, and mailboxes. -/

namespace Sys2Proof.Machine

/-- A capability register named by the low five bits of a D field. -/
def capD (o : Tri) : Nat := o.d.toNat % 32

/-- CGETB (R132). -/
def execCgetb (h : Guard) (o : Tri) (s : State) : Result :=
  .next (computeOk h (fun e => wrPair o.d (BitVec.ofNat 64 (capBase (capA e o.a)))) s)
/-- CGETL (R132). -/
def execCgetl (h : Guard) (o : Tri) (s : State) : Result :=
  .next (computeOk h (fun e => wrPair o.d (BitVec.ofNat 64 (capLen (capA e o.a)))) s)
/-- CGETP (R132). -/
def execCgetp (h : Guard) (o : Tri) (s : State) : Result :=
  .next (computeOk h (fun e => wrReg o.d ((capPerm (capA e o.a)).setWidth 32)) s)
/-- CGETC (R132). -/
def execCgetc (h : Guard) (o : Tri) (s : State) : Result :=
  .next (computeOk h (fun e => wrReg o.d (BitVec.ofNat 32 (capColour (capA e o.a)))) s)
/-- CGETK (R132). -/
def execCgetk (h : Guard) (o : Tri) (s : State) : Result :=
  .next (computeOk h (fun e =>
    let c := capA e o.a
    wrReg o.d (BitVec.ofNat 32 (capKind c + (if capSealed c then 8 else 0) + (capOtype c).toNat * 256 + (capUser c).toNat * 65536))) s)
/-- CGETT (R132). -/
def execCgett (h : Guard) (o : Tri) (s : State) : Result :=
  .next (computeOk h (fun e => wrReg o.d (bit32 (capA e o.a).tag)) s)

/-- A fault of a derivation: no access, so no address (R380). -/
def deriveFault (c : Byte) : FaultInfo := mkFault c 0 0

/-- The tests of a derivation's source (R131): tagged, and unsealed. -/
def sourceTest (c : Cap) : Option Byte := if !c.tag then some causeTag else if capSealed c then some causeSealed else none

/-- A word that derives a capability, or faults. -/
def deriveWord (h : Guard) (o : Tri) (f : Env → Except Byte Cap) (s : State) : Result :=
  .next (compute (cfg h) (fun e =>
    match f e with
    | .ok c => .ok (wrCap (capD o) c)
    | .error x => .error (deriveFault x)) s)

/-- CNARROW (R133). -/
def execCnarrow (h : Guard) (o : Tri) (s : State) : Result :=
  deriveWord h o (fun e =>
    let c := capA e o.a
    let off := (codePair e o.b.reg).toNat
    let n := (codePair e o.c.reg).toNat
    match sourceTest c with
    | some x => .error x
    | none =>
      if capLen c < off + n then .error causeBounds
      else
        match capNarrow c off n with
        | some r => .ok r
        | none => .error causeBounds) s

/-- CANDP (R134). -/
def execCandp (h : Guard) (o : Tri) (s : State) : Result :=
  deriveWord h o (fun e =>
    let c := capA e o.a
    match sourceTest c with
    | some x => .error x
    | none => .ok (capField c 30 10 (capPerm c &&& (src e o.b 1).setWidth 10).toNat)) s

/-- CMOV (R134). -/
def execCmov (h : Guard) (o : Tri) (s : State) : Result := deriveWord h o (fun e => .ok (capA e o.a)) s
/-- CCLRT (R134). -/
def execCclrt (h : Guard) (o : Tri) (s : State) : Result := deriveWord h o (fun e => .ok { capA e o.a with tag := false }) s
/-- CSETU (R134). -/
def execCsetu (h : Guard) (o : Tri) (s : State) : Result :=
  deriveWord h o (fun e => .ok (capField (capA e o.a) 0 6 ((src e o.b 1).toNat % 64))) s

/-- CTEST (R135). -/
def execCtest (h : Guard) (o : Tri) (s : State) : Result :=
  .next (computeOk h (fun e =>
    let a := capA e o.a
    let b := capA e o.b
    wrPred o.d.toNat (a.tag && b.tag && !capSealed a && !capSealed b && decide (capKind a = capKind b) && decide (capColour a = capColour b) &&
      decide (capPerm a &&& ~~~(capPerm b) = 0) && capWithin a b)) s)

/-- The tests of a sealing authority in the order of R25 (R136, R137). -/
def authorityTest (e : Env) (c : Cap) (bit : Nat) : Option Byte :=
  if !c.tag then some causeTag
  else if capSealed c then some causeSealed
  else if capKind c ≠ 5 then some causeKind
  else if !capHas c bit then some causePerm
  else if !(validColours (coloursOf e.s e.sf)).contains (capColour c) then some causeColour
  else none

/-- A type lies in an authority's range. -/
def typeIn (c : Cap) (ot : Nat) : Bool := decide (capBase c ≤ ot) && decide (ot < capBase c + capLen c)

/-- CSEAL (R136). -/
def execCseal (h : Guard) (o : Tri) (s : State) : Result :=
  deriveWord h o (fun e =>
    let a := capA e o.a
    let b := capA e o.b
    let g := (src e o.c 1).toNat
    let ot := g % 256
    let ks := g / 256 % 8
    match sourceTest a, authorityTest e b 6 with
    | some x, _ => .error x
    | none, some x => .error x
    | none, none =>
      if ot = 0xFF then .error causePerm
      else if !typeIn b ot then .error causeBounds
      else if ks = 0 then .ok (capSeal a ot)
      else if ks = 2 then
        if capKind a ≠ 0 then .error causeKind
        else if !capHas a 0 then .error causePerm
        else if capLen a ≠ 64 ∨ capBase a % 16 ≠ 0 then .error causeBounds
        else .ok (capField (capSeal a ot) 15 3 2)
      else .error causeKind) s

/-- CUNSEAL (R137). -/
def execCunseal (h : Guard) (o : Tri) (s : State) : Result :=
  deriveWord h o (fun e =>
    let a := capA e o.a
    let b := capA e o.b
    if !a.tag then .error causeTag
    else if !capSealed a then .error causeSealed
    else if capKind a = 2 then .error causeKind
    else if capOtype a = 0xFF#8 then .error causePerm
    else
      match authorityTest e b 7 with
      | some x => .error x
      | none => if typeIn b (capOtype a).toNat then .ok (capOpen a) else .error causeBounds) s

/-- The header of a mailbox (R138): HEAD, TAIL and SIZE. -/
def mailHeader (s : State) (l : Nat) : Nat × Nat × Nat :=
  (ofBytes (readMem s.mem l 4), ofBytes (readMem s.mem (l + 4) 4), ofBytes (readMem s.mem (l + 8) 4))

/-- SIZE is a power of two from 2 to 2^20 (R138). -/
def mailSizeOk (n : Nat) : Bool := (List.range 20).any fun k => decide (n = 2 ^ (k + 1))

/-- Entries in the ring; none where the header's state counts as both full and empty (R138). -/
def mailCount (h : Nat × Nat × Nat) : Option Nat :=
  let n := (h.2.1 + 2 ^ 32 - h.1) % 2 ^ 32
  if mailSizeOk h.2.2 ∧ n ≤ h.2.2 then some n else none

/-- The test of SIZE against the capability's length (R138). -/
def shortFor (h : Nat × Nat × Nat) (c : Cap) : Bool := mailSizeOk h.2.2 && decide (capLen c < 64 + 32 * h.2.2)

/-- The test of R138 made at the home when the header is read. -/
def mailShort (s : State) (c : Cap) : Bool := shortFor (mailHeader s (localOf (capBase c))) c

/-- Bytes written at their homes for a writer at a logical time, line by line; the largest write time (R273). -/
def writeLines : Nat → State → Nat → Nat → List Byte → Bool → Nat → State × Nat
  | 0, s, pc, _, _, _, _ => (s, pc)
  | fuel + 1, s, pc, l, data, tag, hint =>
    if data.isEmpty then (s, pc)
    else
      let n := min data.length (128 - l % 128)
      let r := homeWrite s pc l (data.take n) tag hint
      writeLines fuel r.1 (max pc r.2) (l + n) (data.drop n) tag hint

/-- CSEND at the mailbox's home (R139): whether the entry was written, and the time. -/
def mailSend (s : State) (pc : Nat) (c carried : Cap) (word record : DWord) : State × Nat × Bool :=
  let l := localOf (capBase c)
  let h := mailHeader s l
  match mailCount h with
  | none => let r := homeRead s (lineOf l) pc 0; (r.1, r.2, false)
  | some n =>
    if n = h.2.2 then let r := homeRead s (lineOf l) pc 0; (r.1, r.2, false)
    else
      let a := l + 64 + 32 * (h.2.1 % h.2.2)
      let r1 := writeLines 2 s pc a (toBytes 16 carried.bits.toNat) carried.tag 0
      let r2 := writeLines 2 r1.1 r1.2 (a + 16) (toBytes 8 word.toNat ++ toBytes 8 record.toNat) false 0
      let r3 := writeLines 2 r2.1 r2.2 (l + 4) (toBytes 4 ((h.2.1 + 1) % 2 ^ 32)) false 0
      (r3.1, r3.2, true)

/-- CRECV at the mailbox's home (R140): the capability, the word and the sender record, and the time. -/
def mailRecv (s : State) (pc : Nat) (c : Cap) : State × Nat × Cap × DWord × DWord :=
  let l := localOf (capBase c)
  let h := mailHeader s l
  let none_ := fun (_ : Unit) => let r := homeRead s (lineOf l) pc 0; (r.1, r.2, nullCap, (0 : DWord), (0xFFFFFFFFFFFFFFFF#64 : DWord))
  match mailCount h with
  | none => none_ ()
  | some n =>
    if n = 0 then none_ ()
    else
      let a := l + 64 + 32 * (h.1 % h.2.2)
      let v := rakeFilter s { bits := BitVec.ofNat 128 (ofBytes (readMem s.mem a 16)), tag := Tab.get false s.tags (a / 16) }
      let r := writeLines 2 s pc l (toBytes 4 ((h.1 + 1) % 2 ^ 32)) false 0
      (r.1, r.2, v, BitVec.ofNat 64 (ofBytes (readMem s.mem (a + 16) 8)), BitVec.ofNat 64 (ofBytes (readMem s.mem (a + 24) 8)))

/-- The writes of a CRECV. Log 15 (DEDUCED). -/
def recvWr (d : Nat) (w r : BitVec 8) (x : Cap × DWord × DWord) : Wr := wrBoth (wrCap d x.1) (wrBoth (wrPair w x.2.1) (wrPair r x.2.2))

/-- The outcomes of a mailbox operation at its home. -/
inductive MailRes where
  | done (w : Wr)
  | fault (f : FaultInfo)
  | wait
  deriving DecidableEq, Repr

/-- A CSEND or CRECV of a lane at a mailbox in local HBM (R27, R138 to R140). -/
def mailAtHome (s0 : State) (core : Nat) (c : Cap) (op : State → Nat → State × Nat × Wr) : State × MailRes :=
  let a := capBase c
  match granuleCheck s0 (localOf a) (capColour c) with
  | .transit => (s0, .wait)
  | .fail => (s0, .fault (mkFault causeGranule 0x74 a))
  | .pass =>
    let s := countSlice s0 (lineOf (localOf a)) (capColour c)
    if mailShort s c then (s, .fault (mkFault causeBounds 0 a))
    else
      let r := op s (coreAt s core).pts
      (raisePts r.1 core r.2.1, .done r.2.2)

/-- CSEND's step at the home. -/
def sendStep (c carried : Cap) (word record : DWord) (p : Nat) (s : State) (pc : Nat) : State × Nat × Wr :=
  let r := mailSend s pc c carried word record
  (r.1, r.2.1, wrPred p r.2.2)

/-- CRECV's step at the home. -/
def recvStep (c : Cap) (d : Nat) (w r : BitVec 8) (s : State) (pc : Nat) : State × Nat × Wr :=
  let x := mailRecv s pc c
  (x.1, x.2.1, recvWr d w r x.2.2)

/-- What a home's answer does to the lane; a mail at a granule in transit is held there (R27). Log 14 (DEDUCED). -/
def mailLane (r : State × MailRes) (recv : Bool) (m : Mail) : State × LaneRes :=
  match r with
  | (s1, .done w) => (s1, .ok w)
  | (s1, .fault f) => (s1, .fault f)
  | (s1, .wait) => (updNet s1 fun n => { n with held := n.held ++ [.mail recv m] }, .hold .mail)

/-- The request is a step of a CSEND or CRECV at a mailbox in the host window. -/
def mailWant (w : Want) : Bool :=
  match w with
  | .sendHost _ => true
  | .recvHost _ _ _ => true
  | .entryHost _ _ _ => true
  | .recordHost _ _ _ => true
  | _ => false

/-- A mailbox in the host window is taken: an operation on it is under way, or writes of another context to it have not left (R139, R140: one indivisible
step). -/
def mailBusy (s : State) (ctx : Nat) (c : Cap) : Bool :=
  s.net.pcieReqs.any (fun r => mailWant r.want && decide (capBase r.cap = capBase c)) ||
    s.net.pcieWrites.any fun p => decide (p.who.ctx ≠ ctx) && decide (capBase c ≤ p.addr) && decide (p.addr < capBase c + capLen c)

/-- A mailbox operation in the host window begins with a read of the header (R28, R138). Log 27 (DESIGN CHOICE). -/
def mailHost (s : State) (e : Env) (want : Want) (c : Cap) (data data2 : QWord) : State × LaneRes :=
  if mailBusy s e.sf.ctx c then (s, .hold .stall) else askHost s e want c (capBase c) 16 data data2 (hostReadOut e.sf.ctx (capBase c) 16)

/-- CSEND (R139): a release at system scope; its lanes take effect in any order (R141). A device register holds no mailbox. Log 16 (DESIGN CHOICE). -/
def execCsend (h : Guard) (o : Tri) (s : State) : Result :=
  .next (bump (runWordIn (freeOrder s) { cfgNR h with resolve := true } (fun e s =>
    let c := capA e o.a
    let v := capA e o.b
    let word := codePair e o.c.reg
    match accessAddr e c (accSend v) 0 64 16 with
    | .error f => (s, .fault f)
    | .ok a => resolveThen s e true true fun s =>
      let s1 := drainOwn s e.sh e.ln
      if awaiting s1 e.sh e.ln then (s1, .hold .stall)
      else
        match regionOf s.fabric.number a with
        | .hbm =>
          let m : Mail := { sh := e.sh, ln := e.ln, cap := c, carried := v, word := word, pred := o.d.toNat, cd := 0, wreg := 0, sreg := 0 }
          if !portReady s1 e then (portHolds s1 e, .hold .stall)
          else mailLane (mailAtHome (request s1 e (lineOf (localOf a)) 32) (coreOf e.sh) c (sendStep c v word (senderRecord s1 e.sf) o.d.toNat)) false m
        | .peer =>
          match sendPeer s1 e (.csend o.d.toNat) .csend c a 64 (word.setWidth 128) (some v) 0 with
          | (s2, .error d) => denied s2 e d a 0 fun _ _ => wrNone
          | (s2, .ok _) => (s2, .hold .reply)
        | .host => mailHost s1 e (.sendHost o.d.toNat) c v.bits (senderRecord s1 e.sf ++ word)
        | _ => (bump s1, .ok (wrPred o.d.toNat (Config.freeBool s1.free)))) s))

/-- CRECV (R140): an acquire at system scope. Log 16 (DESIGN CHOICE). -/
def execCrecv (h : Guard) (o : Tri) (s : State) : Result :=
  .next (bump (runWordIn (freeOrder s) (cfgNR h) (fun e s =>
    let c := capA e o.a
    match accessAddr e c accRecv 0 64 16 with
    | .error f => (s, .fault f)
    | .ok a =>
      let s1 := drainOwn s e.sh e.ln
      if awaiting s1 e.sh e.ln then (s1, .hold .stall)
      else
        match regionOf s.fabric.number a with
        | .hbm =>
          let m : Mail := { sh := e.sh, ln := e.ln, cap := c, carried := nullCap, word := 0, pred := 0, cd := capD o, wreg := o.b.reg.toNat, sreg := o.c.reg.toNat }
          if !portReady s1 e then (portHolds s1 e, .hold .stall)
          else mailLane (mailAtHome (request s1 e (lineOf (localOf a)) 0) (coreOf e.sh) c (recvStep c (capD o) o.b.reg o.c.reg)) true m
        | .peer =>
          match sendPeer s1 e (.crecv (capD o) o.b.reg.toNat o.c.reg.toNat) .crecv c a 64 0 none 0 with
          | (s2, .error d) => denied s2 e d a 0 fun _ _ => wrNone
          | (s2, .ok _) => (s2, .hold .reply)
        | .host => mailHost s1 e (.recvHost (capD o) o.b.reg.toNat o.c.reg.toNat) c 0 0
        | _ =>
          let v : Cap := { bits := Config.freeDWord s1.free ++ Config.freeDWord (s1.free + 1), tag := false }
          ({ s1 with free := s1.free + 4 }, .ok (recvWr (capD o) o.b.reg o.c.reg (v, Config.freeDWord (s1.free + 2), Config.freeDWord (s1.free + 3))))) s))

/-- A mail that was held is taken at the home (R27): the lane goes on, or the mail is held again. -/
def mailTaken (s : State) (recv : Bool) (m : Mail) (r : State × MailRes) : State :=
  match r with
  | (s1, .done w) => resume s1 m.sh m.ln w
  | (s1, .fault f) => resumeFault s1 m.sh m.ln f
  | (_, .wait) => updNet s fun n => { n with held := n.held ++ [.mail recv m] }

/-- CSEND_AT_HOME (R139): a CSEND that was held at its mailbox's home. -/
def execCsendAtHome (i : Nat) (s : State) : Result :=
  .next (match s.net.csends[i]? with
    | none => s
    | some m =>
      match sheaf? s m.sh with
      | none => s
      | some sf =>
        let s1 := updNet s fun n => { n with csends := n.csends.eraseIdx i }
        mailTaken s1 false m (mailAtHome s1 (coreOf m.sh) m.cap (sendStep m.cap m.carried m.word (senderRecord s1 sf) m.pred)))

/-- CRECV_AT_HOME (R140): a CRECV that was held at its mailbox's home. -/
def execCrecvAtHome (i : Nat) (s : State) : Result :=
  .next (match s.net.crecvs[i]? with
    | none => s
    | some m =>
      let s1 := updNet s fun n => { n with crecvs := n.crecvs.eraseIdx i }
      mailTaken s1 true m (mailAtHome s1 (coreOf m.sh) m.cap (recvStep m.cap m.cd (BitVec.ofNat 8 m.wreg) (BitVec.ofNat 8 m.sreg))))

end Sys2Proof.Machine
end

