-- ==== Sys2Proof/Machine/Run.lean ====
section
/-! DEFINITION. The trailer of a run (R126 to R129): late checks, strikes, and the commit with its stores. -/

namespace Sys2Proof.Machine

/-- A buffered store as it leaves. -/
def runStoreOp (x : RunStore) : StoreOp :=
  { cap := x.cap, addr := x.addr, size := x.size, data := x.data, value := { bits := x.data, tag := x.tagged }, carries := x.tagged, hint := x.hint,
    rel := x.rel, sys := x.scope = 3 }

/-- A late failure of a run recorded: the first in program order stands (R129). -/
def addLate (th : Thread) (l : Late) : Thread :=
  { th with run := th.run.map fun r => match r.late with
      | some x => if x.pos ≤ l.pos then r else { r with late := some l }
      | none => { r with late := some l } }

/-- The state of a lane's run changed. -/
def updRun (s : State) (sh ln : Nat) (f : Run → Run) : State := updThread s sh ln fun th => { th with run := th.run.map f }

/-- A run of one lane, as its trailer sees it. -/
def runOf (s : State) (sh ln : Nat) : Option (Thread × Run) :=
  match thread? s sh ln with
  | some th => th.run.map fun r => (th, r)
  | none => none

/-- A buffered store has passed its check for good (R27, R129). -/
def storePassed (s : State) (sh ln pos addr : Nat) : State :=
  updRun s sh ln fun r => { r with stores := r.stores.map fun y => if y.pos = pos ∧ y.addr = addr then { y with checked := true } else y }

/-- The checks of one buffered store before anything commits (R129): passed or failed for good, or still awaited. -/
def checkStore (s : State) (e : Env) (x : RunStore) : State × Bool :=
  if x.scratch then (s, true)
  else
    match regionOf s.fabric.number x.addr with
    | .hbm =>
      if x.checked ∨ servedStore s e x.cap x.addr then (storePassed s e.sh e.ln x.pos x.addr, true)
      else
        match granuleCheck s (localOf x.addr) x.colour with
        | .pass => (storePassed s e.sh e.ln x.pos x.addr, true)
        | .transit => (s, false)
        | .fail => (updThread s e.sh e.ln fun th => addLate th { cause := causeGranule, reason := 0x75, addr := x.addr, pos := x.pos }, true)
    | .peer =>
      if x.checked then (s, true)
      else
        match sendPeer s e (.storeCheck x.pos) .storeCheck x.cap x.addr x.size x.data (if x.tagged then some { bits := x.data, tag := true } else none) x.pos with
        | (s1, .error (.fault c r)) => (updThread s1 e.sh e.ln fun th => addLate th { cause := c, reason := r, addr := x.addr, pos := x.pos }, true)
        | (s1, _) => (s1, false)
    | _ => (s, true)

/-- A lane alone, as its trailer sees it. -/
def ownEnv (s : State) (x : Nat × Nat) : Option Env := envOf s [x] [x] x

/-- Every access of a lane's run has its late checks (R27, R129). -/
def checksDone (s : State) (x : Nat × Nat) : State × Bool :=
  match runOf s x.1 x.2 with
  | none => (s, true)
  | some (_, r) =>
    if r.going then (s, true)
    else r.stores.foldl (fun acc st =>
      match ownEnv acc.1 x with
      | some e => let y := checkStore acc.1 e st; (y.1, acc.2 && y.2)
      | none => acc) (s, true)

/-- What a lane's run comes to before any store of the group performs (R129): the first late failure, or the end of the last segment (R211). -/
def trailerFault (s : State) (x : Nat × Nat) : Option FaultInfo :=
  match runOf s x.1 x.2, ownEnv s x with
  | some (_, r), some e =>
    match r.late with
    | some l => some { mkFault l.cause l.reason l.addr with pos := some l.pos }
    | none => edgeFault e
  | _, _ => none

/-- A lane's run holds a store with release order, and has not begun to perform (R129, R282). -/
def mustResolve (s : State) (x : Nat × Nat) : Bool :=
  match runOf s x.1 x.2 with
  | some (_, r) => !r.going && r.stores.any (·.rel)
  | none => false

/-- The first buffered store of a run is done. -/
def popStore (s : State) (sh ln : Nat) : State := updRun s sh ln fun r => { r with stores := r.stores.drop 1 }

/-- One buffered store performs, with the waits of R129: done, or not yet. One that is refused after its check is a lost write (R389). -/
def performRunStore (s : State) (e : Env) (x : RunStore) : State × Bool :=
  let f := if x.rel then fenceReady s e.sh e.ln (x.scope = 3) else (s, true)
  if !f.2 then (f.1, false)
  else if x.scratch then
    match scratchReady f.1 e x.addr x.size with
    | (s1, true) => (popStore (scratchWrite s1 (coreOf e.sh) x.addr x.size x.data.toNat) e.sh e.ln, true)
    | (s1, false) => (s1, false)
  else
    match sendStore f.1 e (runStoreOp x) with
    | (s1, .ok _) => (popStore s1 e.sh e.ln, true)
    | (s1, .error (.hold .reply)) => (popStore s1 e.sh e.ln, false)
    | (s1, .error (.hold _)) => (s1, false)
    | (s1, .error (.fault _ _)) => (addLoss (popStore s1 e.sh e.ln) (whoOf e.sf e.th) x.addr x.colour, true)

/-- The buffered stores of a lane perform in program order, as far as they can (R129). -/
def performRun : Nat → State → Nat × Nat → State × Bool
  | 0, s, x => (s, !awaiting s x.1 x.2)
  | n + 1, s, x =>
    match runOf s x.1 x.2, ownEnv s x with
    | some (_, r), some e =>
      match r.stores with
      | [] => (s, !s.net.peerReqs.any fun q => decide (q.sh = x.1) && decide (q.ln = x.2))
      | st :: _ =>
        match performRunStore s e st with
        | (s1, true) => performRun n s1 x
        | (s1, false) => (s1, false)
    | _, _ => (s, true)

/-- The loads a run made after a buffered store take their places after it (R284): their leases cover the time of the store. Log 63 (DESIGN CHOICE). -/
def placeLoads (s : State) (x : Nat × Nat) : State :=
  match runOf s x.1 x.2 with
  | some (_, r) =>
    if r.after.isEmpty then s
    else
      let s1 := drainOwn s x.1 x.2
      let s2 := r.after.foldl (fun s y => (homeRenew s (lineOf (localOf y.1)) (coreAt s (coreOf x.1)).pts 0).1) s1
      updRun s2 x.1 x.2 fun q => { q with after := [] }
  | none => s

/-- A lane's stores perform, and then its later loads have their places. -/
def performLane (s : State) (x : Nat × Nat) : State × Bool :=
  match performRun 10 (updRun s x.1 x.2 fun q => { q with going := true }) x with
  | (s1, true) => (placeLoads s1 x, true)
  | r => r

/-- A run that loads after its own store, all of its stores in local HBM or scratch, performs them in one step (R284). -/
def wholeRun (s : State) (x : Nat × Nat) : Bool :=
  match runOf s x.1 x.2 with
  | some (_, r) => !r.going && !r.after.isEmpty && r.stores.all fun y => y.scratch || decide (regionOf s.fabric.number y.addr = .hbm)
  | none => false

/-- A line that a run loaded after its own store has been written since (R284). -/
def overtaken (s : State) (x : Nat × Nat) : Bool :=
  match runOf s x.1 x.2 with
  | some (_, r) => !r.going && r.after.any fun y => decide ((homeTimes s (lineOf (localOf y.1))).1 ≠ y.2.2)
  | none => false

/-- The bytes a lane's run stores in HBM. -/
def storedRanges (s : State) (x : Nat × Nat) : List (Nat × Nat) :=
  match runOf s x.1 x.2 with
  | some (_, r) => (r.stores.filter fun y => !y.scratch).map fun y => (ownAddr s.fabric.number y.addr, y.size)
  | none => []

/-- A lane of the group before this one stores bytes that this one has loaded after its own store (R284). -/
def crossedBy (s : State) (before : List (Nat × Nat)) (x : Nat × Nat) : Bool :=
  match runOf s x.1 x.2 with
  | some (_, r) => !r.going && r.after.any fun y => (before.flatMap (storedRanges s)).any fun z =>
      let a := ownAddr s.fabric.number y.1
      decide (z.1 < a + y.2.1) && decide (a < z.1 + z.2)
  | none => false

/-- The lanes that a lane before them crosses, in order. -/
def crossedLanes (s : State) : List (Nat × Nat) → List (Nat × Nat) → List (Nat × Nat)
  | _, [] => []
  | kept, x :: t => if crossedBy s kept x then x :: crossedLanes s kept t else crossedLanes s (kept ++ [x]) t

/-- A lane's run begins again at its RUNB (R284): nothing of it is done, and its core reads the lines afresh. Log 63 (DESIGN CHOICE). -/
def beginAgain (s : State) (x : Nat × Nat) : State :=
  let s1 := match runOf s x.1 x.2 with
    | some (_, r) => r.after.foldl (fun s y => raisePts s (coreOf x.1) (homeTimes s (lineOf (localOf y.1))).1) s
    | none => s
  updThread (watchFreeRun s1 x.1 x.2) x.1 x.2 discardRun

/-- A lane whose stores have performed leaves its run (R126, R129). A travel from a trailer is one of its run's (R299). -/
def leaveRun (s : State) (x : Nat × Nat) : State × LaneRes :=
  match runOf s x.1 x.2, ownEnv s x with
  | some (th, r), some e =>
    let s1 := updCore s (coreOf x.1) fun c => { c with watch := c.watch.map fun w => if w.sh = x.1 ∧ w.ln = x.2 then { w with inRun := false } else w }
    let th' := { th with run := none, t := [] }
    match moveTo s e.sf th' (th.pc + 8) false with
    | .ok { hold := some (.travel target _), .. } => (updThread s1 x.1 x.2 fun _ => th', .hold (.travel target r.start))
    | _ => (s1, .enter th' (th.pc + 8))
  | _, _ => (s, .ok wrNone)

/-- Lanes wait at their trailer. -/
def waitTrailer (s : State) (lanes : List (Nat × Nat)) : State := finishWord s (lanes.map fun x => (x, LaneRes.hold .trailer))

/-- The lanes of a group that commit (R129): their stores perform lane by lane, and all go on together once all have. -/
def performGroup (s : State) (lanes : List (Nat × Nat)) : State :=
  let r := lanes.foldl (fun (acc : State × List (Nat × Nat)) x =>
    let y := performLane acc.1 x
    (y.1, if y.2 then acc.2 else acc.2 ++ [x])) (s, [])
  if r.2.isEmpty then
    let d := lanes.foldl (fun (acc : State × List ((Nat × Nat) × LaneRes)) x =>
      let y := leaveRun acc.1 x
      (y.1, acc.2 ++ [(x, y.2)])) (r.1, [])
    finishWord d.1 d.2
  else if r.2.any (wholeRun s) then waitTrailer s lanes
  else waitTrailer r.1 lanes

/-- The lanes of a group that neither faulted nor were struck (R129, R284): where a line loaded after a store was written since, the run begins again. -/
def commitLanes (s : State) (lanes : List (Nat × Nat)) : State :=
  if lanes.any (overtaken s) then lanes.foldl beginAgain s
  else
    let again := crossedLanes s [] lanes
    performGroup (again.foldl beginAgain s) (lanes.filter fun x => !again.contains x)

/-- The watch entries of lanes resolved, none of them pending: the lanes that are struck. -/
def struckLanes (s : State) (lanes : List (Nat × Nat)) : State × List (Nat × Nat) :=
  lanes.foldl (fun (acc : State × List (Nat × Nat)) x =>
    match resolveWatch acc.1 x.1 x.2 with
    | (s1, .struck) => (s1, acc.2 ++ [x])
    | (s1, _) => (s1, acc.2)) (s, [])

/-- Where a struck lane goes from its trailer (R299, R378): with no repair target it faults at the release that sends it. Log 15 (DEDUCED). -/
def struckRes (s : State) (x : Nat × Nat) : LaneRes :=
  match runOf s x.1 x.2 with
  | some (th, r) =>
    match repairTarget th, r.stores.find? (·.rel) with
    | .error f, some y => .fault { f with addr := (r.start + 8 * BitVec.ofNat 32 y.pos).toNat, pos := some y.pos }
    | _, _ => .repair
  | none => .repair

/-- The lanes of a group at their trailer (R129): all wait until every check is back; those that failed fault; then all resolve their watch entries, and those
that are struck go to their repair targets; then the rest commit. -/
def commitGroup (s : State) (lanes : List (Nat × Nat)) : State :=
  let c := lanes.foldl (fun (acc : State × Bool) x => let y := checksDone acc.1 x; (y.1, acc.2 && y.2)) (s, true)
  if !c.2 then waitTrailer c.1 lanes
  else
    let bad := lanes.filterMap fun x => (trailerFault c.1 x).map fun f => (x, LaneRes.fault f)
    let s1 := finishWord c.1 bad
    let live := lanes.filter fun x => !bad.any fun y => decide (y.1 = x)
    let rel := live.filter (mustResolve s1)
    if rel.any fun x => decide (watchPending s1 x.1 x.2 ≠ 0) then waitTrailer s1 live
    else
      let r := struckLanes s1 rel
      commitLanes (finishWord r.1 (r.2.map fun x => (x, struckRes r.1 x))) (live.filter fun x => !r.2.contains x)

/-- RUNE (R126, R128, R129): outside a run it is a violation. Log 15 (DEDUCED). -/
def execRune (_ : Guard) (_ : BF) (s : State) : Result :=
  .next (
    let acts := presentLanes s
    let inRun := fun (x : Nat × Nat) => (runOf s x.1 x.2).isSome
    let outside := acts.filter fun x => !inRun x
    let s1 := { s with focus := none }
    let s2 := finishWord s1 (outside.filterMap fun x => (thread? s1 x.1 x.2).map fun th => (x, LaneRes.fault (mkFault causeRun 0x35 th.pc.toNat)))
    commitGroup s2 (acts.filter inRun))

/-- RUN_COMMIT (R129): the lanes of a sheaf that wait at one trailer try again. -/
def execRunCommit (sh ln : Nat) (s : State) : Result :=
  .next (match sheaf? s sh, thread? s sh ln with
    | some sf, some th =>
      if th.hold = some .trailer then
        let lanes := (sf.lanes.filter fun l => decide (l.2.hold = some .trailer) && decide (l.2.pc = th.pc) && decide (l.2.code = th.code)).map fun l => (sh, l.1)
        commitGroup (lanes.foldl (fun s x => updThread s x.1 x.2 fun t => { t with hold := none }) s) lanes
      else s
    | _, _ => s)

end Sys2Proof.Machine
end

