-- ==== Sys2Proof/Machine/Home.lean ====
section
/-! DEFINITION. What homes, cores, cluster units, peers and the host answer (R125, R266, R271 to R274, R285, R290, R389, R451), one event at a time. -/

namespace Sys2Proof.Machine

/-- HOME_RENEW (R272): behind what its core has sent before it to the same slice (R423). Log 5 (DEDUCED). -/
def execHomeRenew (i : Nat) (s : State) : Result :=
  .next (match s.net.renews[i]? with
    | none => s
    | some r =>
      if (s.net.renews.take i).any (sentTo r.core r.line) then s
      else
        let s1 := updNet s fun n => { n with renews := n.renews.eraseIdx i }
        renewAtHome (drainSome s1 fun p => decide (p.core = r.core) && decide (homeOf (lineOf (localOf p.addr)) = homeOf r.line) && decide (p.seq < r.seq)) r)

/-- The bytes a load of a lane takes from an answer, under the bytes its own run has buffered (R32). -/
def underRun (s : State) (th : Thread) (a n : Nat) (v : QWord) : Nat := ofBytes (under (runBytes s th a n) (toBytes n v.toNat))

/-- What a lane receives when its access to a peer or to the host is answered; none for a wait that goes on. -/
def answerWr (s : State) (th : Thread) (r : Req) (data : QWord) (cap : Option Cap) : Option Wr :=
  match r.want with
  | .load d sz => some (extendLoad d sz (underRun s th r.addr r.size data))
  | .loadCap c => some (wrCap c (cap.getD { bits := data, tag := false }))
  | .atom d k wide keep => some (rmwWr (.op k (r.data.toNat % 2 ^ 64)) (if wide then 8 else 4) d keep (data.toNat % (if wide then 2 ^ 64 else 2 ^ 32)))
  | .cas d wide => some (rmwWr (.cas 0 0) (if wide then 8 else 4) d false (data.toNat % (if wide then 2 ^ 64 else 2 ^ 32)))
  | .store => some wrNone
  | .storeCheck _ => some wrNone
  | .csend p => some (wrPred p (data.getLsbD 0))
  | .crecv c w x => some (recvWr c (BitVec.ofNat 8 w) (BitVec.ofNat 8 x) (rakeFilter s (cap.getD nullCap), data.extractLsb' 0 64, data.extractLsb' 64 64))
  | .poll p thr => some (wrPred p (decide (thr ≤ data.toNat % 2 ^ 64)))
  | _ => none

/-- A store that a run has buffered was passed by its peer (R129). -/
def markChecked (s : State) (r : Req) (pos : Nat) : State := storePassed s r.sh r.ln pos r.addr

/-- A peer has answered the command of a host queue (R408). -/
def queueAnswered (s : State) (q : Nat) (ok : Bool) : State :=
  { s with host := { s.host with queues := s.host.queues.map fun x => if x.1 = q then (x.1, { x.2 with answered := some ok }) else x } }

/-- The lanes of a word that wait with a lane for one read: the lane itself, and the lanes of the word that have no access of their own out. -/
def replyWith (s : State) (sh ln : Nat) : List (Nat × Nat) :=
  match sheaf? s sh, thread? s sh ln with
  | some sf, some th =>
    let out := fun (k : Nat) => s.net.peerReqs.any (fun r => decide (r.sh = sh) && decide (r.ln = k)) || s.net.pcieReqs.any fun r => decide (r.sh = sh) && decide (r.ln = k)
    (sf.lanes.filter fun l => decide (l.1 = ln) || (th.word.isSome && decide (l.2.word = th.word) && decide (l.2.hold = some .reply) && !out l.1)).map fun l => (sh, l.1)
  | _, _ => []

/-- A granule of a structure is read: each lane that waits for it goes on (R246, R321). -/
def granuleRead (s : State) (r : Req) (v : Cap) : State :=
  (replyWith s r.sh r.ln).foldl (fun s x => retry s x.1 x.2) (updThread s r.sh r.ln fun th => { th with buf := th.buf ++ [v] })

/-- A granule of a queue's segment map is read; one that a peer refused holds nothing, and the launch is refused (R248). -/
def queueRead (s : State) (q : Nat) (v : Cap) : State :=
  { s with host := { s.host with queues := s.host.queues.map fun x => if x.1 = q then (x.1, { x.2 with buf := x.2.buf ++ [v] }) else x } }

/-- A refused access (R427, R431): outside a run the lane faults at its word; in a run it faults at the trailer, and a store that was passed before and is performing
is lost (R129, R389). -/
def refuse (s : State) (r : Req) (cause reason : Byte) : State :=
  match r.want with
  | .queueWait q _ => due (queueAnswered s q false) (.queueWait q)
  | .queuePost q => due (queueAnswered s q false) (.queuePost q)
  | .queueMap q => due (queueRead s q nullCap) (.queueLaunch q)
  | .map => granuleRead s r nullCap
  | _ =>
    match thread? s r.sh r.ln with
    | none => s
    | some th =>
      let late : Late := { cause := cause, reason := reason, addr := r.addr, pos := r.pos }
      match th.run, r.want with
      | some _, .storeCheck pos => updThread (markChecked s r pos) r.sh r.ln fun th => addLate th late
      | some _, .store => match ownerAt s r.sh r.ln with
        | some w => addLoss s w r.addr (capColour r.cap)
        | none => s
      | some _, _ =>
        let s1 := updThread s r.sh r.ln fun th => addLate th late
        match answerWr s1 th r (Config.freeDWord s.free ++ Config.freeDWord (s.free + 1)) none with
        | some w => resume { s1 with free := s1.free + 2 } r.sh r.ln w
        | none => s1
      | none, .struct => resumeAll s ((replyWith s r.sh r.ln).map fun x => (x, .fault (mkFault cause reason r.addr)))
      | none, _ => resumeFault s r.sh r.ln (mkFault cause reason r.addr)

/-- The header of a mailbox as 16 bytes of it read (R138). -/
def headerOf (v : QWord) : Nat × Nat × Nat := ((v.extractLsb' 0 32).toNat, (v.extractLsb' 32 32).toNat, (v.extractLsb' 64 32).toNat)

/-- The address of a mailbox's entry by its count (R138). -/
def entryAt (c : Cap) (h : Nat × Nat × Nat) (i : Nat) : Nat := capBase c + 64 + 32 * (i % h.2.2)

/-- The next read of a mailbox in the host window. -/
def mailRead (s : State) (r : Req) (ctx : Nat) (want : Want) (a : Nat) (data data2 : QWord) : State :=
  let s1 := flushHost s ctx
  updNet (send s1 (hostReadOut ctx a 16 s1)) fun n => { n with pcieReqs := n.pcieReqs ++ [{ r with want := want, addr := a, size := 16, data := data, data2 := data2 }] }

/-- A step of a CSEND or CRECV at a mailbox in the host window (R28, R138 to R140): what is written there leaves as host writes, and no tag rests there. -/
def mailStep (s : State) (r : Req) (e : Env) (v : QWord) : State :=
  let c := r.cap
  let fails := fun (_ : Unit) => resumeFault s r.sh r.ln (mkFault causeBounds 0 (capBase c))
  match r.want with
  | .sendHost p =>
    let h := headerOf v
    if shortFor h c then fails ()
    else
      match mailCount h with
      | none => resume s r.sh r.ln (wrPred p false)
      | some n =>
        if n = h.2.2 then resume s r.sh r.ln (wrPred p false)
        else
          let a := entryAt c h h.2.1
          let s1 := postHost (postHost s e c a 16 r.data) e c (a + 16) 16 r.data2
          resume (postHost s1 e c (capBase c + 4) 4 (BitVec.ofNat 128 ((h.2.1 + 1) % 2 ^ 32))) r.sh r.ln (wrPred p true)
  | .recvHost d w x =>
    let h := headerOf v
    if shortFor h c then fails ()
    else
      let empty := fun (_ : Unit) => resume s r.sh r.ln (recvWr d (BitVec.ofNat 8 w) (BitVec.ofNat 8 x) (nullCap, 0, 0xFFFFFFFFFFFFFFFF#64))
      match mailCount h with
      | none => empty ()
      | some n => if n = 0 then empty () else mailRead s r e.sf.ctx (.entryHost d w x) (entryAt c h h.1) v 0
  | .entryHost d w x => mailRead s r e.sf.ctx (.recordHost d w x) (r.addr + 16) r.data v
  | .recordHost d w x =>
    let h := headerOf r.data
    let s1 := postHost s e c (capBase c) 4 (BitVec.ofNat 128 ((h.1 + 1) % 2 ^ 32))
    resume s1 r.sh r.ln (recvWr d (BitVec.ofNat 8 w) (BitVec.ofNat 8 x) ({ bits := r.data2, tag := false }, v.extractLsb' 0 64, v.extractLsb' 64 64))
  | _ => s

/-- The answer to an access that left the device: the lane goes on, or its wait stands (R241). -/
def answer (s : State) (r : Req) (data : QWord) (cap : Option Cap) (again : State → State) : State :=
  match r.want with
  | .queueWait q thr => if thr ≤ data.toNat % 2 ^ 64 then due (queueAnswered s q true) (.queueWait q) else again s
  | .queuePost q => due (queueAnswered s q true) (.queuePost q)
  | .queueMap q => due (queueRead s q (cap.getD { bits := data, tag := false })) (.queueLaunch q)
  | _ =>
    match thread? s r.sh r.ln, ownEnv s (r.sh, r.ln) with
    | some th, some e =>
      match r.want with
      | .storeCheck pos => markChecked s r pos
      | .store => if th.hold = some .reply then resume s r.sh r.ln wrNone else s
      | .sig thr _ => if thr ≤ data.toNat % 2 ^ 64 then resume s r.sh r.ln wrNone else again s
      | .struct => granuleRead s r (cap.getD { bits := data, tag := false })
      | .map => granuleRead s r (cap.getD { bits := data, tag := false })
      | w =>
        if mailWant w then mailStep s r e data
        else
          match answerWr s th r data cap with
          | some w => resume s r.sh r.ln w
          | none => s
    | _, _ => s

/-- Which event answers a request to a peer: those that return a value that is loaded, or the others. -/
def wantLoads (w : Want) : Bool :=
  match w with
  | .load _ _ => true
  | .loadCap _ => true
  | .crecv _ _ _ => true
  | .sig _ _ => true
  | .poll _ _ => true
  | .struct => true
  | .map => true
  | .queueMap _ => true
  | .queueWait _ _ => true
  | _ => false

/-- The bytes of data that the answer to a request of some size holds beside a capability. -/
def wantBytes (w : Want) (size : Nat) : Nat :=
  match w with
  | .load _ _ => size
  | .atom _ _ _ _ => size
  | .cas _ _ => size
  | .crecv _ _ _ => 16
  | .csend _ => 1
  | .sig _ _ => size
  | .poll _ _ => size
  | .queueWait _ _ => size
  | .queuePost _ => size
  | _ => 0

/-- A peer's answer to the request at a place of the list (R274, R430, R431). -/
def peerAnswer (s : State) (j : Nat) (loads : Bool) (ans : PeerAnswer) : State :=
  match s.net.peerReqs[j]? with
  | none => s
  | some r =>
    if wantLoads r.want ≠ loads then s
    else
      let s1 := countFabric (updNet s fun n => { n with peerReqs := n.peerReqs.eraseIdx j }) 11 (flits (answerBytes (wantBytes r.want r.size) ans))
      match ans.refused with
      | some (c, x) => refuse s1 r c x
      | none =>
        let s2 := match r.want with
          | .queueWait _ _ => s1
          | .queuePost _ => s1
          | .queueMap _ => s1
          | _ => raisePts s1 (coreOf r.sh) ans.time.toNat
        let done := match r.want with
          | .sig thr _ => decide (thr ≤ ans.data.toNat % 2 ^ 64)
          | .queueWait _ thr => decide (thr ≤ ans.data.toNat % 2 ^ 64)
          | _ => false
        let s3 := if done then send s2 (.peerEnd r.port (devOf r.addr) r.addr) else s2
        answer s3 r ans.data (ans.cap.map (arriving s3 (devOf r.addr))) fun s => updNet s fun n => { n with peerReqs := n.peerReqs ++ [r] }

/-- LOAD_REPLY (R272, R274): the replies of home slices come first in the numbering, then those of peers.
Log 50 (DEDUCED). -/
def execLoadReply (i : Nat) (ans : PeerAnswer) (s : State) : Result :=
  .next (match s.net.replies[i]? with
    | some r => takeReply (updNet s fun n => { n with replies := n.replies.eraseIdx i }) r
    | none => peerAnswer s (i - s.net.replies.length) true ans)

/-- A posted store may perform: nothing that comes before it is on its way, held, or still to be acknowledged (R273, R279, R423). -/
def storeFirst (s : State) (i : Nat) (p : PStore) : Bool :=
  !((s.net.stores.take i).any fun q => precedes q p) && !storeBlocked s p && !(s.net.acks.any fun a => decide (a.who = p.who))

/-- A store that performs at its home and its acknowledgement. -/
def ackedStore (s0 : State) (p : PStore) : State :=
  let s := renewsFirst s0 p
  let l := localOf p.addr
  let ack : Ack := { sh := p.sh, ln := p.ln, who := p.who, core := p.core, addr := p.addr, size := p.size, data := p.data, tagged := p.tagged,
                     colour := capColour p.cap, wts := 0, line := 0, tags := 0, hint := p.hint, lost := false }
  match granuleCheck s l (capColour p.cap) with
  | .transit => updNet s fun n => { n with held := n.held ++ [.store p] }
  | .fail => updNet s fun n => { n with acks := n.acks ++ [{ ack with lost := true }] }
  | .pass =>
    let r := homeWrite (countSlice s (lineOf l) (capColour p.cap)) p.pts l (toBytes p.size p.data.toNat) p.tagged p.hint
    updNet r.1 fun n => { n with acks := n.acks ++ [{ ack with wts := r.2, line := lineData r.1 (lineOf l), tags := lineTags r.1 (lineOf l) }] }

/-- HOME_WRITE (R273, R389): the store performs and is acknowledged, or is answered as lost. A team-scope atomic's store and its acknowledgement are one step.
Log 3 (DEDUCED). -/
def execHomeWrite (i : Nat) (s : State) : Result :=
  .next (match s.net.stores[i]? with
    | none => s
    | some p =>
      if !storeFirst s i p then s
      else
        let s1 := updNet s fun n => { n with stores := n.stores.eraseIdx i }
        if p.kind = .teamAtomic then performStore s1 p else ackedStore s1 p)

/-- HOME_READ (R273): a read at the home that writes nothing. -/
def execHomeRead (core addr : Nat) (s : State) : Result :=
  .next (if core < Config.cores ∧ regionOf s.fabric.number addr = .hbm then
      let r := homeRead s (lineOf (localOf addr)) (coreAt s core).pts 0
      raisePts r.1 core r.2
    else s)

/-- STORE_ACK (R273, R274): acknowledgements of home slices come first in the numbering, then answers of peers. -/
def execStoreAck (i : Nat) (ans : PeerAnswer) (s : State) : Result :=
  .next (match s.net.acks[i]? with
    | some a =>
      if a.lost then s else takeAck (updNet s fun n => { n with acks := n.acks.eraseIdx i }) a
    | none => peerAnswer s (i - s.net.acks.length) false ans)

/-- WRITE_LOST_ANSWER (R389). -/
def execWriteLostAnswer (i : Nat) (s : State) : Result :=
  .next (match s.net.acks[i]? with
    | some a => if a.lost then takeAck (updNet s fun n => { n with acks := n.acks.eraseIdx i }) a else s
    | none => s)

/-- OTHER_PARTY_WRITE (R273): bytes of local HBM written by the host or an engine; tags are cleared. -/
def execOtherPartyWrite (addr : Nat) (data : List Byte) (s : State) : Result :=
  .next (if addr + data.length ≤ 2 ^ 42 then otherWrite (data.length + 1) s addr data false 0 else s)

/-- The largest logical time among the cores whose threads made some updates. -/
def updPts (s : State) (l : List Upd) : Nat := l.foldl (fun m u => max m (coreAt s (coreOf u.sh)).pts) 0

/-- A cluster unit's line at its home: the write-back is accepted and its updates clear the tags they touch (R145, R273, R285). -/
def acceptBack (s : State) (w : WriteBack) : State × Nat :=
  let sent := match Tab.at? (clusterAt s w.cluster).lines w.line with
    | some x => x.sent
    | none => []
  let pc := updPts s sent
  let r := homeUpdate s w.line 0 true fun x => { x with wts := max pc (x.rts + 1), rts := max pc (x.rts + 1), dirty := true }
  let tags := sent.foldl (fun t (u : Upd) => Tab.set false t (localOf u.addr / 16) false) r.1.tags
  (wakeSignals { r.1 with mem := writeMem r.1.mem (w.line * 128) (toBytes 128 w.data.toNat), tags := tags } w.line, r.2.wts)

/-- A conditional write-back at its home (R27, R285): held at a granule in transit, refused, or accepted if the line has not been written since. -/
def backAtHome (s0 : State) (w : WriteBack) : State :=
  let reply := fun (s : State) (ok : Bool) (wts : Nat) (g : Bool) =>
    updNet s fun n => { n with wbReplies := n.wbReplies ++
      [{ cluster := w.cluster, line := w.line, accepted := ok, wts := wts, data := lineData s w.line, tags := lineTags s w.line, granule := g }] }
  match granuleCheck s0 (w.line * 128) w.colour with
  | .transit => updNet s0 fun n => { n with held := n.held ++ [.back w] }
  | .fail => reply s0 false 0 true
  | .pass =>
    let s := countSlice s0 w.line w.colour
    if (homeTimes s w.line).1 = w.wts then
      let r := acceptBack s w
      reply r.1 true r.2 false
    else reply s false (homeTimes s w.line).1 false

/-- CONDITIONAL_WRITEBACK (R285). -/
def execConditionalWriteback (i : Nat) (s : State) : Result :=
  .next (match s.net.wbs[i]? with
    | none => s
    | some w => backAtHome (updNet s fun n => { n with wbs := n.wbs.eraseIdx i }) w)

/-- WRITEBACK_REPLY (R285). -/
def execWritebackReply (i : Nat) (s : State) : Result :=
  .next (match s.net.wbReplies[i]? with
    | none => s
    | some r =>
      let s1 := updNet s fun n => { n with wbReplies := n.wbReplies.eraseIdx i }
      match Tab.at? (clusterAt s1 r.cluster).lines r.line with
      | none => s1
      | some x =>
        let put := fun (s : State) (y : CaLine) => updCluster s r.cluster fun u => { u with lines := Tab.put u.lines r.line y }
        let told := fun (s : State) => (x.sent.map fun (u : Upd) => coreOf u.sh).eraseDups.foldl (fun s k => raisePts s k r.wts) s
        if r.accepted then sendWriteBack (told (put s1 { x with wts := r.wts, rts := r.wts, outstanding := false, sent := [] })) r.cluster r.line
        else if r.granule then
          let lost := x.sent ++ x.waiting
          let s2 := updCluster s1 r.cluster fun u => { u with lines := Tab.drop u.lines r.line }
          lost.foldl (fun s (u : Upd) => addLoss s u.who u.addr u.colour) s2
        else put s1 { x with data := r.data, tags := r.tags, wts := r.wts, rts := r.wts, outstanding := false, sent := [], waiting := [] })

/-- The lanes held in SIGWAIT on a granule's lines load again, and peers that wait there are answered afresh (R241). -/
def wakeGranule (s0 : State) (g : Nat) : State :=
  let s := ((s0.net.sigs.filter fun x => decide (x.1 / 2 ^ 21 = g)).map fun x => lineOf x.1).eraseDups.foldl (fun s n => due s (.peerSignal n)) s0
  s.sheaves.foldl (fun s e =>
    e.2.lanes.foldl (fun s l =>
      match l.2.hold with
      | some (.sigwait c _ _) => if regionOf s.fabric.number (capBase c) = .hbm ∧ localOf (capBase c) / 2 ^ 21 = g then due s (.sigwaitReload e.1 l.1) else s
      | _ => s) s) s

/-- The granule of a held access. -/
def heldGranule (h : Held) : Nat :=
  match h with
  | .lane _ _ g => g
  | .store p => localOf p.addr / 2 ^ 21
  | .mail _ m => localOf (capBase m.cap) / 2 ^ 21
  | .renew r => r.line / 16384
  | .back w => w.line / 16384
  | .ingress r => localOf (capBase { bits := r.cap.bits, tag := true } + r.off) / 2 ^ 21
  | .window g _ _ _ _ _ => g

/-- The accesses held at a granule are due to be checked again at once, in the order in which they were held (R27). -/
def recheckGranule (s : State) (g : Nat) : State :=
  let mine := (List.range s.net.held.length).filter fun i => (s.net.held[i]?.map heldGranule) == some g
  { s with agenda := (List.range mine.length).map (fun j => Due.heldRecheck (mine.getD j 0 - j)) ++ s.agenda }

/-- A granule entry written: a change of STATE or OWNER counts as a write to each of its lines (R266, R451). -/
def setGranule (s : State) (g : Nat) (entry : BitVec 16) : State :=
  let v := entry &&& 0xCFFF#16
  if granuleOf s (g * 2 ^ 21) = v then s
  else
    let s1 := wakeGranule (granuleTouch { s with granules := Tab.set 0 s.granules g v } g) g
    if v.extractLsb' 14 2 = 2#2 then s1 else recheckGranule s1 g

/-- GRANULE_ENTRY_WRITE (R266). -/
def execGranuleEntryWrite (die granule : Nat) (entry : BitVec 16) (s : State) : Result :=
  .next (if die < 8 ∧ granule < 262144 then setGranule s (die * 262144 + granule) entry else s)

/-- The lanes that go on with a lane that was held at a granule: itself, and the lanes of its word that wait for the same access. -/
def heldWith (s : State) (sf : Sheaf) (sh ln : Nat) (th : Thread) : List Nat :=
  let waits := fun (k : Nat) => s.net.held.any fun h => match h with
    | .lane a b _ => decide (a = sh) && decide (b = k)
    | _ => false
  (sf.lanes.filter fun l => decide (l.1 = ln) || (th.word.isSome && decide (l.2.word = th.word) && decide (l.2.hold = some .transit) && !waits l.1)).map (·.1)

/-- A lane held at a granule makes its access again, in its next step. -/
def issueHeld (s : State) (sh ln : Nat) : State :=
  match sheaf? s sh, thread? s sh ln with
  | some sf, some th =>
    match th.hold with
    | some .transit =>
      let l := heldWith s sf sh ln th
      let s1 := l.foldl (fun s k => updThread s sh k fun th => { th with hold := none }) s
      { s1 with issue := { sh := sh, mask := maskOf l, pairMask := 0, rest := 0, word := none } :: s1.issue }
    | some (.sigwait _ _ _) => reloadSignal s sh ln
    | _ => s
  | _, _ => s

/-- HELD_ACCESS_RECHECK (R27): held accesses of a granule are checked again in the order in which they were held. -/
def execHeldAccessRecheck (i : Nat) (s : State) : Result :=
  .next (match s.net.held[i]? with
    | none => s
    | some h =>
      if (granuleOf s (heldGranule h * 2 ^ 21)).extractLsb' 14 2 = 2#2 ∨ (s.net.held.take i).any (fun x => heldGranule x = heldGranule h) then s
      else
        let s1 := updNet s fun n => { n with held := n.held.eraseIdx i }
        match h with
        | .store p => performStore s1 p
        | .lane sh ln _ => issueHeld s1 sh ln
        | .mail false m => { updNet s1 fun n => { n with csends := m :: n.csends } with agenda := .csendAtHome :: s1.agenda }
        | .mail true m => { updNet s1 fun n => { n with crecvs := m :: n.crecvs } with agenda := .crecvAtHome :: s1.agenda }
        | .renew r => renewAtHome s1 r
        | .back w => backAtHome s1 w
        | .ingress r => { s1 with agenda := .ingress r :: s1.agenda }
        | .window _ fn win off size data => { s1 with agenda := .window fn win off size data :: s1.agenda })

/-- LTIME_TICK (R271). -/
def execLtimeTick (core : Nat) (s : State) : Result :=
  .next (if core < Config.cores then updCore s core fun c => { c with pts := c.pts + 1 } else s)

/-- The lanes of a quadrant with posted stack stores to a line. -/
def stackWriters (s : State) (q line : Nat) : List (Nat × Nat) :=
  ((s.net.stores.filter fun p => decide (p.kind = .stackLine) && decide (quadOf p.sh = q) && decide (lineOf (localOf p.addr) = line)).map fun p => (p.sh, p.ln)).eraseDups

/-- A line filled into a quadrant's stack cache for the colour that owns its granule (R125, R451): 256 lines at most. -/
def stackFill (s : State) (core q line : Nat) : State :=
  let e := granuleOf s (line * 128)
  if e.extractLsb' 14 2 ≠ 1#2 then s
  else
    let r := homeRenew (stamp s) line (coreAt s core).pts 0
    let cp : Copy := { data := lineData r.1 line, tags := lineTags r.1 line, wts := r.2.wts, rts := r.2.rts, colour := (e.extractLsb' 0 12).toNat, valid := 3,
                       hint := 0, bank := 0, used := s.nextId }
    updQuad r.1 q fun x =>
      let t := if (Tab.at? x.stack line).isSome ∨ x.stack.length < 256 then x.stack
        else match minPos (x.stack.map fun y => (y.1, y.2.used)) with
          | some v => Tab.drop x.stack v.1
          | none => x.stack
      { x with stack := Tab.put t line cp }

/-- STACK_CACHE_SPILL (R125): a spill of a line's stores towards its home, or a fill. -/
def execStackCacheSpill (core quad line : Nat) (fill : Bool) (s : State) : Result :=
  .next (if core < Config.cores ∧ quad < 4 ∧ line < 2 ^ 35 then
      (if fill then stackFill s core (core * 4 + quad) line
       else (stackWriters s (core * 4 + quad) line).foldl (fun s x => drainOwn s x.1 x.2) s)
    else s)

/-- A SIGWAIT on the host window rests between its loads (R241). -/
def restSig (r : Req) : Req :=
  match r.want with
  | .sig thr ext => { r with want := .sigRest thr ext }
  | _ => r

/-- PCIE_COMPLETION (R147, R436): a read's bytes, or an AtomicOp's old value; all ones where the host refused an AtomicOp.
Log 27 (DESIGN CHOICE). -/
def execPcieCompletion (i : Nat) (ans : PcieAnswer) (s : State) : Result :=
  .next (match s.net.pcieReqs[i]? with
    | none => s
    | some r =>
      match r.want with
      | .sigRest _ _ => s
      | _ =>
        let s1 := updNet s fun n => { n with pcieReqs := n.pcieReqs.eraseIdx i }
        let data := if ans.ok ∨ wantLoads r.want ∨ mailWant r.want then ans.data else BitVec.allOnes 128
        answer s1 r data none fun s => updNet s fun n => { n with pcieReqs := n.pcieReqs ++ [restSig r] })

/-- The SIGWAITs on the host window whose 1,024 cycles have passed load again (R241). -/
def pollHost (s : State) : State :=
  s.net.pcieReqs.foldl (fun s r => match r.want with
    | .sigRest thr ext =>
      if r.pos + 1024 ≤ s.cycle then
        match sheaf? s r.sh with
        | some sf =>
          let s1 := flushHost s sf.ctx
          updNet (send s1 (hostReadOut sf.ctx r.addr 8 s1)) fun n =>
            { n with pcieReqs := n.pcieReqs.map fun x => if x = r then { r with want := .sig thr ext, pos := s.cycle } else x }
        | none => s
      else s
    | _ => s) s

/-- PCIE_WRITE_DEPARTURE (R290, R291): writes of one context through one slice leave in order. -/
def execPcieWriteDeparture (i : Nat) (s : State) : Result :=
  .next (match s.net.pcieWrites[i]? with
    | none => s
    | some p =>
      let slot := fun (q : PStore) => homeOf (lineOf (localOf q.addr)) % 64
      if (s.net.pcieWrites.take i).any fun q => slot q = slot p ∧ q.who.ctx = p.who.ctx then s
      else departWrite (updNet s fun n => { n with pcieWrites := n.pcieWrites.eraseIdx i }) p)

end Sys2Proof.Machine
end

