-- ==== Sys2Proof/Machine/Place.lean ====
section
/-! DEFINITION. Room on cores for teams (R196, R198, R199, R258, R261), and the threads a team starts with (R12, R176, R247). -/

namespace Sys2Proof.Machine

/-- The use of a core: slots and registers per quadrant, scratch ranges, tile ranges. -/
structure CoreUse where
  core : Nat
  quads : List (Nat × Nat)
  ranges : List (Nat × Nat)
  tiles : List (Nat × Nat)
  deriving DecidableEq, Repr

/-- What one team asks of a core: its sheaves (or pairs), registers per thread, scratch bytes, tiles. -/
structure Need where
  units : Nat
  pair : Bool
  regs : Nat
  scratch : Nat
  tiles : Nat
  deriving DecidableEq, Repr

/-- Where a team goes: quadrants of its sheaves, its scratch range and its tile range. -/
structure Spot where
  core : Nat
  quads : List Nat
  sbase : Nat
  tbase : Nat
  deriving DecidableEq, Repr

/-- Sheaves of a team of `g` gangs of width `w` (R176): pairs for a width of 64. -/
def sheafUnits (g w : Nat) : Nat := if w = 64 then g else (g + 32 / w - 1) / (32 / w)

/-- What a launch's teams ask of a core. -/
def needOf (l : Launch) : Need := { units := sheafUnits l.g l.w, pair := l.w = 64, regs := l.regs, scratch := l.scratch, tiles := l.tiles }

/-- A core with nothing on it. -/
def emptyUse (k : Nat) : CoreUse := { core := k, quads := List.replicate 4 (0, 0), ranges := [], tiles := [] }

/-- The use of a core now. -/
def useOf (s : State) (k : Nat) : CoreUse :=
  { core := k,
    quads := (List.range 4).map fun q =>
      let l := s.sheaves.filter fun e => quadOf e.1 = k * 4 + q
      (l.length, l.foldl (fun acc e => acc + e.2.regs) 0),
    ranges := scratchRanges s k,
    tiles := s.teams.filterMap fun t => if t.2.core = k ∧ t.2.tcount ≠ 0 then some (t.2.tbase, t.2.tcount) else none }

/-- Free sheaf slots of a core. -/
def freeSlots (u : CoreUse) : Nat := u.quads.foldl (fun acc q => acc + (16 - q.1)) 0

/-- The quadrant with the most free slots, the lower number on a tie (R199). -/
def firstQuad (u : CoreUse) : Nat := ((minPos ((List.range 4).map fun q => (q, (u.quads.getD q (0, 0)).1))).map (·.1)).getD 0

/-- One sheaf or pair placed in rotation from a quadrant (R199), within 16 slots and 2,048 registers per quadrant (R198). -/
def placeUnit (quads : List (Nat × Nat)) (q0 j cost regs : Nat) : Option (Nat × List (Nat × Nat)) :=
  let room := fun q => let x := quads.getD q (0, 0); decide (x.1 + cost ≤ 16) && decide (x.2 + cost * regs ≤ 2048)
  match ((List.range 4).map fun i => (q0 + j + i) % 4).find? room with
  | some q => some (q, quads.set q ((quads.getD q (0, 0)).1 + cost, (quads.getD q (0, 0)).2 + cost * regs))
  | none => none

/-- All the sheaves of a team, from sheaf `j` on. -/
def placeUnits : Nat → List (Nat × Nat) → Nat → Nat → Nat → Nat → Option (List Nat × List (Nat × Nat))
  | 0, quads, _, _, _, _ => some ([], quads)
  | n + 1, quads, q0, j, cost, regs =>
    match placeUnit quads q0 j cost regs with
    | none => none
    | some (q, quads1) => (placeUnits n quads1 q0 (j + 1) cost regs).map fun r => (q :: r.1, r.2)

/-- The start of the highest free range of `n` bytes that lies in the given banks (R258). -/
def scratchRange (ranges : List (Nat × Nat)) (banks : List Nat) (n : Nat) : Option Nat :=
  if n = 0 then some 0
  else
    let ends := ((List.range 48).map fun b => (b + 1) * 65536) ++ ranges.map (·.1)
    let ok := fun e => decide (n ≤ e) && ((List.range ((e - 1) / 65536 - (e - n) / 65536 + 1)).all fun i => banks.contains ((e - n) / 65536 + i)) &&
      ranges.all fun r => decide (e ≤ r.1) || decide (r.1 + r.2 ≤ e - n)
    (ends.filter ok).foldl (fun acc e => some (max (acc.getD 0) (e - n))) none

/-- The lowest free range of `n` tile entries. -/
def tileRange (tiles : List (Nat × Nat)) (n : Nat) : Option Nat :=
  if n = 0 then some 0
  else (List.range 256).find? fun b => decide (b + n ≤ 256) && tiles.all fun r => decide (b + n ≤ r.1) || decide (r.1 + r.2 ≤ b)

/-- A team fits a core (R198): where its sheaves, scratch and tiles go, and the core's use with it. -/
def fitCore (n : Need) (banks : Nat → List Nat) (u : CoreUse) : Option (Spot × CoreUse) :=
  match placeUnits n.units u.quads (firstQuad u) 0 (if n.pair then 2 else 1) n.regs, scratchRange u.ranges (banks u.core) n.scratch, tileRange u.tiles n.tiles with
  | some (qs, quads), some sb, some tb =>
    some ({ core := u.core, quads := qs, sbase := sb, tbase := tb },
          { u with quads := quads, ranges := if n.scratch = 0 then u.ranges else (sb, n.scratch) :: u.ranges,
                   tiles := if n.tiles = 0 then u.tiles else (tb, n.tiles) :: u.tiles })
  | _, _, _ => none

/-- A team placed on the core that fits with the most free sheaf slots, the lower number on a tie (R198). -/
def placeTeam (n : Need) (banks : Nat → List Nat) (us : List CoreUse) : Option (Spot × List CoreUse) :=
  let fits := us.filterMap fun u => (fitCore n banks u).map fun r => (u, r)
  match minPos (fits.map fun x => (x.1.core, 64 - freeSlots x.1)) with
  | none => none
  | some (k, _) =>
    match fits.find? (fun x => x.1.core = k) with
    | some x => some (x.2.1, us.map fun u => if u.core = k then x.2.2 else u)
    | none => none

/-- A whole stage set placed on the cores of a cluster (R175, R198). -/
def placeSet : Nat → Need → (Nat → List Nat) → List CoreUse → Option (List Spot)
  | 0, _, _, _ => some []
  | st + 1, n, banks, us =>
    match placeTeam n banks us with
    | none => none
    | some (sp, us1) => (placeSet st n banks us1).map fun l => sp :: l

/-- A stage set placed with conversions (R261): each team in SCRATCH banks where a range there is large enough, else over banks that may be converted. -/
def placeOver : Nat → Need → (Nat → List Nat) → (Nat → List Nat) → List CoreUse → Option (List Spot)
  | 0, _, _, _, _ => some []
  | st + 1, n, banks, more, us =>
    match (placeTeam n banks us).or (placeTeam n more us) with
    | none => none
    | some (sp, us1) => (placeOver st n banks more us1).map fun l => sp :: l

/-- The cores granted to a context (R197, R405). -/
def grantsOf (s : State) (ctx : Nat) : List Nat := Tab.get [] s.host.grants ctx

/-- A core number names a core: below 448, and not position 6 of a six-core cluster (R206). -/
def coreExists (s : State) (k : Nat) : Bool := decide (k < Config.cores) && !(decide (k % 7 = 6) && s.boot.sixCore.contains (k / 7))

/-- The granted cores of a context in a cluster. -/
def grantedIn (s : State) (ctx cl : Nat) : List Nat :=
  ((List.range 7).map fun e => cl * 7 + e).filter fun k => (grantsOf s ctx).contains k && coreExists s k

/-- The runner cores of a launch: the holders of its segments, and cores still draining one (R206, R220). -/
def runnerCores (r : Runner) : List Nat := (r.segs.flatMap fun g => g.holders ++ g.draining ++ g.pending.getD []).eraseDups

/-- A core serves a runner launch that has started (R206). -/
def runnerHeld (s : State) (k : Nat) : Bool :=
  s.launches.any fun l => match l.2.runner with
    | some r => r.started && (runnerCores r).contains k
    | none => false

/-- Banks in SCRATCH mode that are not switching. -/
def scratchBanks (s : State) (k : Nat) : List Nat :=
  (List.range 48).filter fun b => decide ((bankAt (coreAt s k) b).mode = .scratch) && (bankAt (coreAt s k) b).switching.isNone

/-- Banks a conversion may use (R261): SCRATCH banks free of allocations, CACHE banks that are not SWITCHING, and those whose conversion is under way. -/
def convertible (s : State) (k : Nat) : List Nat :=
  (List.range 48).filter fun b =>
    let x := bankAt (coreAt s k) b
    (x.switching.isNone && (decide (x.mode = .cache) || (decide (x.mode = .scratch) && !bankUsed s k b))) || (x.byUnit && decide (x.switching = some .scratch))

/-- A sheaf slot of a quadrant: the lowest free ones. -/
def slotFor (s : State) (core q : Nat) : Option Nat :=
  ((List.range 16).map fun i => core * 64 + q * 16 + i).find? fun sh => (sheaf? s sh).isNone

/-- The stack capability of a thread (R247): KIND 4 over its part of STACK, or nothing. -/
def stackOf (l : Launch) (x : Nat) : Cap :=
  if l.stksz = 0 then nullCap
  else match capNarrow l.stack (x * l.stksz) l.stksz with
    | some c => capField c 15 3 4
    | none => nullCap

/-- A thread of a launch at its entry (R12, R14, R247). -/
def launchThread (s : State) (l : Launch) (stage teamid gangid tid lane : Nat) : Thread :=
  let x := ((stage * l.n + teamid) * l.g + gangid) * l.w + tid
  { threadStart with
    g := Tab.set 0 [] 191 (BitVec.ofNat 32 l.stksz),
    c := Tab.set nullCap (Tab.set nullCap (Tab.set nullCap [] 0 (ctxAt s l.ctx).c0) 1 (stackOf l x)) 2 l.args,
    code := capOpen l.code, pc := BitVec.ofNat 32 l.entry, lane := lane, tid := tid, gangid := gangid, teamid := teamid, stage := stage }

/-- The lanes of a sheaf of a team: the gangs it holds, and which half of a pair it is (R176). -/
def teamLanes (s : State) (l : Launch) (stage teamid j half : Nat) : Tab Thread :=
  if l.w = 64 then (List.range 32).map fun k => (k, launchThread s l stage teamid j (32 * half + k) (32 * half + k))
  else
    let p := 32 / l.w
    (List.range 32).filterMap fun k =>
      let g := j * p + k / l.w
      if g < l.g then some (k, launchThread s l stage teamid g (k % l.w) (k % l.w)) else none

/-- A sheaf of a launch. -/
def launchSheaf (l : Launch) (lid : Nat) (team : Option Nat) (half : Nat) (pair : Option Nat) (lanes : Tab Thread) : Sheaf :=
  { sheafEmpty with ctx := l.ctx, launch := lid, team := team, width := l.w, half := half, pair := pair, regs := l.regs,
                    allocRegs := l.allocRegs, allocPreds := l.allocPreds, lanes := lanes }

/-- The sheaves of a team created on the quadrants chosen for them. -/
def makeSheaves (s : State) (l : Launch) (lid tid stage index core : Nat) (quads : List Nat) : State × List Nat :=
  (quads.zip (List.range quads.length)).foldl (fun (acc : State × List Nat) (q : Nat × Nat) =>
    match slotFor acc.1 core q.1 with
    | none => acc
    | some a =>
      if l.w = 64 then
        let s1 := setSheaf acc.1 a (launchSheaf l lid (some tid) 0 none (teamLanes acc.1 l stage index q.2 0))
        match slotFor s1 core q.1 with
        | none => (s1, acc.2 ++ [a])
        | some b =>
          let s2 := updSheaf s1 a fun x => { x with pair := some b }
          (setSheaf s2 b (launchSheaf l lid (some tid) 1 (some a) (teamLanes s2 l stage index q.2 1)), acc.2 ++ [a, b])
      else (setSheaf acc.1 a (launchSheaf l lid (some tid) 0 none (teamLanes acc.1 l stage index q.2 0)), acc.2 ++ [a])) (s, [])

/-- A team becomes resident (R198): its tile range is reset, its core's logical time reaches its parent's (R204). -/
def makeTeam (s : State) (lid : Nat) (l : Launch) (index stage : Nat) (sp : Spot) : State :=
  let tid := s.nextId
  let r := makeSheaves { s with nextId := s.nextId + 1 } l lid tid stage index sp.core sp.quads
  let t : Team := { launch := lid, ctx := l.ctx, core := sp.core, index := index, stage := stage, gangs := l.g, width := l.w, sheaves := r.2, sbase := sp.sbase,
                    slen := l.scratch, tbase := sp.tbase, tcount := l.tiles, accHint := l.accHint, rps := [], phaseN := none, phaseCount := 0 }
  let s1 := { r.1 with teams := Tab.put r.1.teams tid t }
  updCore s1 sp.core fun c =>
    { c with pts := max c.pts l.pts,
             tiles := (List.range l.tiles).foldl (fun x k => Tab.put x (sp.tbase + k) { tileReset with team := tid }) c.tiles }

end Sys2Proof.Machine
end

