-- ==== Sys2Proof/Machine/Launch.lean ====
section
/-! DEFINITION. Launches (R196, R197, R203 to R210, R221, R245 to R249): the descriptor, its checks in order, acceptance and dealing; LIVE,
HOP, LAUNCH and LWAIT. -/

namespace Sys2Proof.Machine

/-- A launch descriptor (R246). -/
structure LaunchDesc where
  code : Cap
  args : Cap
  signal : Cap
  segmap : Cap
  stack : Cap
  entry : Nat
  w : Nat
  g : Nat
  n : Nat
  s : Nat
  regs : Nat
  preds : Nat
  flags : Nat
  scratch : Nat
  stksz : Nat
  accHint : Nat
  reserved : Nat
  deriving DecidableEq, Repr

/-- The descriptor in 128 bytes with the tags of its granules (R246). -/
def parseDesc (b : List Byte) (tags : List Bool) : LaunchDesc :=
  { code := capField16 b tags 0, args := capField16 b tags 16, signal := capField16 b tags 32, segmap := capField16 b tags 48, stack := capField16 b tags 64,
    entry := field b 80 2, w := field b 82 1, g := field b 83 1, n := field b 84 4, s := field b 88 1, regs := field b 89 1, preds := field b 90 1,
    flags := field b 91 1, scratch := field b 92 4, stksz := field b 96 4, accHint := field b 100 2, reserved := field b 102 26 }

/-- Status 0x01 (R248): a field other than G out of range, or a reserved field nonzero. -/
def descRanges (d : LaunchDesc) : Bool :=
  [8, 16, 32, 64].contains d.w && decide (1 ≤ d.n) && decide (d.n ≤ 16777216) && decide (1 ≤ d.s) && decide (d.s ≤ 16) && decide (1 ≤ d.regs) &&
    decide (d.regs ≤ 12) && [16, 32, 48].contains d.preds && decide (d.flags ≤ 1) && decide (d.scratch % 16 = 0) && decide (d.stksz % 16 = 0) &&
    decide (d.accHint ≤ 128) && decide (d.reserved = 0)

/-- The code tests of R121 with a context's colours. -/
def codeTest (colours : DWord) (c : Cap) : Bool := c.tag && decide (capKind c = 1) && capHas c 2 && (validColours colours).contains (capColour c)

/-- The kernel an entry of a code capability names: the object whose region it is (R166, R170). -/
def kernelOf (s : State) (ctx : Nat) (code : Cap) (entry : Nat) : Option KernelInfo :=
  match (ctxAt s ctx).objects.find? fun o => capBase o.code = capBase code with
  | some o => o.kernels.find? fun k => k.entry = entry
  | none => none

/-- The write time that the load of a code capability's object reached (R172). -/
def loadTime (s : State) (ctx : Nat) (code : Cap) : Nat := (((ctxAt s ctx).objects.find? fun o => capBase o.code = capBase code).map (·.time)).getD 0

/-- The runner flag of a descriptor. -/
def isRunner (d : LaunchDesc) : Bool := d.flags % 2 == 1

/-- The launch a descriptor and its kernel describe. -/
def launchOf (ctx : Nat) (d : LaunchDesc) (k : KernelInfo) (pts : Nat) : Launch :=
  { ctx := ctx, code := d.code, args := d.args, signal := d.signal, stack := d.stack, entry := k.offset, n := d.n, g := d.g, w := d.w, s := d.s,
    regs := d.regs * 16, preds := d.preds, scratch := d.scratch, stksz := d.stksz, accHint := d.accHint, allocRegs := k.regs, allocPreds := k.preds,
    tiles := k.tiles, left := d.n * d.s, handle := none, queue := none, pts := pts, runner := none }

/-- One stage set fits in the empty cores of one cluster (R196). -/
def setFits (s : State) (l : Launch) : Bool :=
  (List.range 64).any fun cl => (placeSet l.s (needOf l) (fun _ => List.range 48) ((grantedIn s l.ctx cl).map emptyUse)).isSome

/-- The access of a read of a structure that holds capabilities (R208, R246). -/
def accStruct (kinds : List Nat) : Access := { kinds := kinds, perms := [0, 3], sealOk := false, windows := false, atomic := none, xcap := false }

/-- A segment entry of the map (R208), and whether its fields are in range. -/
def parseSegment (b : List Byte) : Segment × Bool :=
  let hc := field b 8 1
  let all := (List.range 8).map fun i => field b (16 + 2 * i) 2
  let sg : Segment := { codeOff := field b 0 4, codeLen := field b 4 4, choice := field b 9 1, gather := field b 10 2, fifob := field b 12 1,
                        holders := all.take hc, pending := none, draining := [] }
  (sg, decide (sg.codeOff % 8 = 0) && decide (8 ≤ sg.codeLen) && decide (sg.codeLen ≤ 131072) && decide (sg.codeLen % 8 = 0) && decide (1 ≤ hc) && decide (hc ≤ 8) &&
    decide (sg.choice ≤ 1) && decide (1 ≤ sg.fifob) && decide (sg.fifob ≤ 4) && decide (field b 13 3 = 0) && (all.drop hc).all (· == 0xFFFF) &&
    decide ((all.take hc).eraseDups.length = hc))

/-- Two segments do not overlap. -/
def segsApart (a b : Segment) : Bool := decide (a.codeOff + a.codeLen ≤ b.codeOff) || decide (b.codeOff + b.codeLen ≤ a.codeOff)

/-- The code and FIFO banks of the segments a core holds keep the limits of R210. -/
def coreLimits (segs : List Segment) (k : Nat) : Bool :=
  let mine := segs.filter fun g => g.holders.contains k
  decide ((mine.map (·.codeLen)).sum ≤ 131072) && decide ((mine.map (·.fifob)).sum ≤ 48)

/-- A read of some bytes of a segment map passes R25 as far as its capability goes (R208). -/
def mapCheck (s : State) (ctx : Nat) (c : Cap) (size : Nat) : Bool :=
  match checkCap s.fabric.number (ctxAt s ctx).colours c (accStruct [0]) 0 size 16 with
  | .ok _ => true
  | .error _ => false

/-- The number of segments that the header of a map gives, where it is in range (R208). -/
def mapCount (hd : List Byte) : Option Nat := if field hd 16 1 < 1 ∨ 64 < field hd 16 1 then none else some (field hd 16 1)

/-- The granules of a segment map that are to be read next, from those read so far: none where the map is refused (R208). -/
def mapWant (s : State) (ctx : Nat) (c : Cap) (got : List Cap) : Option Nat :=
  if !mapCheck s ctx c 64 then none
  else if got.length < 4 then some 4
  else
    match mapCount (granuleBytes got).1 with
    | none => none
    | some n => if mapCheck s ctx c (64 + 32 * n) then some (4 + 2 * n) else none

/-- The rules of the overflow capability (R221): kind 0, its rights, its length, and its granules, which belong to colours of the context.
Log 28 (DEDUCED). -/
def overflowOk (s : State) (ctx : Nat) (c : Cap) (size : Nat) : Bool :=
  let l := localOf (capBase c)
  let inHbm := decide (regionOf s.fabric.number (capBase c) = .hbm) && decide (l + size ≤ 2 ^ 42)
  c.tag && decide (capKind c = 0) && [0, 1, 3, 4].all (capHas c) && decide (size ≤ capLen c) && inHbm &&
    (List.range ((l + size - 1) / 2 ^ 21 - l / 2 ^ 21 + 1)).all fun i =>
      let e := granuleOf s ((l / 2 ^ 21 + i) * 2 ^ 21)
      decide (e.extractLsb' 14 2 = 1#2) && (validColours (ctxAt s ctx).colours).contains (e.extractLsb' 0 12).toNat

/-- The runner side of a launch, from its segment map as it was read; none where a rule is broken (R205, R208, R210, R221, R248).
Log 28 (DEDUCED). -/
def runnerOfDesc (s : State) (ctx : Nat) (d : LaunchDesc) (k : KernelInfo) (map : Option (List Cap)) : Option Runner :=
  let t := d.n * d.g * d.w
  if d.w = 64 ∨ d.s ≠ 1 ∨ k.scratch ≠ 0 ∨ k.tiles ≠ 0 then none
  else
    let got := map.getD []
    let hd := (granuleBytes got).1
    let ovf := got.headD nullCap
    let rsize := field hd 20 4
    match mapCount hd with
    | none => none
    | some count =>
    if field hd 17 3 ≠ 0 ∨ field hd 24 40 ≠ 0 ∨ rsize < t then none
    else
      let parsed := (List.range count).map fun i => parseSegment ((hd.drop (64 + 32 * i)).take 32)
      let segs := parsed.map (·.1)
      let size := count * 512 * (rsize + 1)
      let cores := (segs.flatMap (·.holders)).eraseDups
      if !parsed.all (·.2) then none
      else if !((List.range count).all fun i => (List.range i).all fun j => segsApart (segs.getD i (parseSegment []).1) (segs.getD j (parseSegment []).1)) then none
      else if segs.any (fun g => decide (capLen d.code < g.codeOff + g.codeLen)) then none
      else if !(segs.any fun g => decide (g.codeOff ≤ k.offset) && decide (k.offset < g.codeOff + g.codeLen)) then none
      else if cores.any (fun c => !(grantsOf s ctx).contains c || !coreExists s c || !coreLimits segs c) then none
      else if !overflowOk s ctx ovf size then none
      else if s.launches.any (fun x => match x.2.runner with
          | some r => (runnerCores r).any cores.contains
          | none => false) then none
      else some { ovf := ovf, rsize := rsize, segs := segs, fifos := [], depths := [], banks := [], threads := t, exits := 0, started := false }

/-- The launches of a context that LWAIT can name (R249). -/
def namedLaunch (s : State) (ctx : Nat) (handle : Word) : Option Nat :=
  match Tab.at? (ctxAt s ctx).slots (handle.toNat % 1024) with
  | some x => if x.gen.toNat = handle.toNat / 1024 then x.launch else none
  | none => none

/-- The checks of R248 before those of a segment map, in the order of its table: the status of a refusal, or the kernel and the launch. -/
def launchFirst (s : State) (ctx : Nat) (d : LaunchDesc) (pts : Nat) : Except Nat (KernelInfo × Launch) :=
  let c := ctxAt s ctx
  if !descRanges d then .error 0x01
  else if !codeTest c.colours d.code ∨ entryCount s d.code ≤ d.entry then .error 0x02
  else
    match kernelOf s ctx d.code d.entry with
    | none => .error 0x03
    | some k =>
      let l := launchOf ctx d k (max pts (loadTime s ctx d.code))
      if k.gang ≠ 0 ∧ k.gang ≠ d.w then .error 0x03
      else if d.g < 1 ∨ 32 < d.g ∨ 2048 < d.g * d.w then .error 0x04
      else if d.regs * 16 < k.regs ∨ d.preds < k.preds ∨ d.scratch < k.scratch ∨ d.s ≠ k.stages then .error 0x05
      else if !setFits s l then .error 0x06
      else if (match checkCap s.fabric.number c.colours d.signal (accAtomic true) 0 8 8 with
          | .ok _ => false
          | .error _ => true) then .error 0x07
      else if d.stksz ≠ 0 ∧ (!d.stack.tag ∨ capKind d.stack ≠ 4 ∨ !capHas d.stack 0 ∨ !capHas d.stack 1 ∨ capLen d.stack < d.stksz * d.n * d.s * d.g * d.w) then .error 0x08
      else .ok (k, l)

/-- The checks of R248 in the order of its table, with the segment map if it was read: the status of a refusal, or the launch. Log 28 (DEDUCED). -/
def launchCheck (s : State) (ctx : Nat) (d : LaunchDesc) (pts : Nat) (device : Bool) (map : Option (List Cap)) : Except Nat Launch :=
  match launchFirst s ctx d pts with
  | .error x => .error x
  | .ok (k, l) =>
    match (if isRunner d then (runnerOfDesc s ctx d k map).map some else some none) with
    | none => .error 0x09
    | some r => if device ∧ 1024 ≤ ((ctxAt s ctx).slots.filter fun x => x.2.launch.isSome).length then .error 0x0A else .ok { l with runner := r }

/-- A launch whose segment map is to be read (R248): the checks before it have passed. -/
def needsMap (s : State) (ctx : Nat) (d : LaunchDesc) (pts : Nat) : Bool :=
  isRunner d && (match launchFirst s ctx d pts with
    | .ok _ => true
    | .error _ => false)

/-- A slot of the context's device launches is taken: its handle (R249). -/
def takeSlot (s : State) (ctx lid : Nat) : State × Option Nat :=
  let c := ctxAt s ctx
  match (List.range 1024).find? fun k => match Tab.at? c.slots k with
      | some x => x.launch.isNone
      | none => true with
  | none => (s, none)
  | some k =>
    let gen : BitVec 22 := match Tab.at? c.slots k with
      | some x => x.gen + 1
      | none => 0
    (updCtx s ctx fun c => { c with slots := Tab.put c.slots k { gen := gen, launch := some lid } }, some (gen.toNat * 1024 + k))

/-- The cluster units with cores granted to a context, ascending (R197). -/
def grantedUnits (s : State) (ctx : Nat) : List Nat := (List.range 64).filter fun cl => !(grantedIn s ctx cl).isEmpty

/-- The stage sets of a launch dealt to the granted units in rotation (R197). -/
def dealLaunch (s : State) (lid : Nat) (l : Launch) : State :=
  let units := grantedUnits s l.ctx
  if units.isEmpty then s
  else
    let rot := (ctxAt s l.ctx).rotation
    let order := (units.filter fun u => rot ≤ u) ++ units.filter fun u => u < rot
    let s1 := (List.range l.n).foldl (fun s i =>
      let u := order.getD (i % order.length) 0
      updCluster s u fun c => { c with queue := c.queue ++ [{ launch := lid, index := i }], empties := 0, quietUntil := 0 }) s
    let s2 := units.foldl (fun s u => updCluster s u fun c => { c with empties := 0, quietUntil := 0 }) s1
    updCtx s2 l.ctx fun c => { c with rotation := order.getD ((l.n - 1) % order.length) 0 + 1 }

/-- A launch is accepted: it gets its number, from the device a handle, and its teams are dealt; a runner launch waits for its cores (R206). -/
def acceptLaunch (s : State) (l : Launch) (device : Bool) (queue : Option Nat) : State × Nat × Nat :=
  let lid := s.nextId
  let s1 := { s with nextId := s.nextId + 1 }
  let h := if device then takeSlot s1 l.ctx lid else (s1, none)
  let l1 := { l with handle := h.2, queue := queue }
  let s2 := { h.1 with launches := Tab.put h.1.launches lid l1 }
  (if l.runner.isSome then s2 else dealLaunch s2 lid l1, lid, h.2.getD 0xFFFFFFFF)

/-- The segment map of a launch that a lane reads (R208, R248), after `skip` granules of its descriptor: first its header, then its segments. One that fails a
check is refused with the launch. -/
def readMap (e : Env) (c : Cap) (skip : Nat) : Nat → State → State × Except Hold (Option (List Cap))
  | 0, s => (s, .ok (some ((bufOf s e).drop skip)))
  | k + 1, s =>
    match mapWant s e.sf.ctx c ((bufOf s e).drop skip) with
    | none => (s, .ok none)
    | some n =>
      match readPart s e .map c (capBase c % 2 ^ 52) skip n with
      | (s1, .ok _) => readMap e c skip k s1
      | (s1, .error (.hold h)) => (s1, .error h)
      | (s1, .error (.fault _ _)) => (s1, .ok none)

/-- The answer to a lane's LAUNCH (R248): its descriptor and its segment map are read. -/
def launchAnswer (s : State) (e : Env) (d : BitVec 8) (m : LaunchDesc) (map : Option (List Cap)) : State × LaneRes :=
  match launchCheck s e.sf.ctx m (coreAt s (coreOf e.sh)).pts true map with
  | .error st => (s, .ok (wrPair d (0xFFFFFFFF#32 ++ BitVec.ofNat 32 st)))
  | .ok l =>
    let r := acceptLaunch s l true none
    (r.1, .ok (wrPair d (BitVec.ofNat 32 r.2.2 ++ 0#32)))

/-- LAUNCH in a lane whose watch entries are resolved (R246, R248). -/
def launchLane (s : State) (e : Env) (d : BitVec 8) (c : Cap) : State × LaneRes :=
  match accessAddr e c (accStruct [0, 4]) 0 128 16 with
  | .error f => (s, .fault f)
  | .ok a =>
    match readPart s e .struct c a 0 8 with
    | (s1, .error x) => denied s1 e x a 0 fun _ _ => wrNone
    | (s1, .ok l) =>
      let b := granuleBytes l
      let m := parseDesc b.1 b.2
      if needsMap s1 e.sf.ctx m (coreAt s1 (coreOf e.sh)).pts then
        match readMap e m.segmap 8 2 s1 with
        | (s2, .error h) => (s2, .hold h)
        | (s2, .ok map) => launchAnswer (dropBuf s2 e) e d m map
      else launchAnswer (dropBuf s1 e) e d m none

/-- LAUNCH (R248): a release at device scope; each lane its own launch, in ascending lane order. Once it has begun to read, it is answered before its context
stops. -/
def execLaunch (h : Guard) (o : Tri) (s : State) : Result :=
  .next (runWord { cfgNR h with resolve := true } (fun e s =>
    resolveThen s e true false fun s => mustEnd (launchLane s e o.d (capA e o.a))) s)

/-- The latest logical time of any core: what an acquire of a whole launch must have seen. -/
def latestPts (s : State) : Nat := s.cores.foldl (fun acc c => max acc c.2.pts) 0

/-- LWAIT (R249): an acquire at device scope once its launch is complete, as it may be already (R289). -/
def execLwait (h : Guard) (o : Tri) (s : State) : Result :=
  .next (runWord (cfgNR h) (fun e s =>
    let v := src e o.a 1
    if (namedLaunch s e.sf.ctx v).isSome then (s, .hold (.lwait v)) else (raisePts s (coreOf e.sh) (latestPts s), .ok wrNone)) s)

/-- LIVE (R244). -/
def execLive (h : Guard) (o : Tri) (s : State) : Result :=
  .next (runWord (cfgNR h) (fun e s =>
    (updThread s e.sh e.ln fun th => { th with spr := { th.spr with livelo := src e o.a 1, livehi := src e o.b 1 } }, .ok wrNone)) s)

/-- HOP (R245). -/
def execHop (h : Guard) (o : Tri) (s : State) : Result :=
  .next (runWord { cfgNR h with resolve := true } (fun e s =>
    let x := src e o.a 1
    if x.toNat % 8 ≠ 0 then (s, .fault (mkFault causeAlign 0 x.toNat))
    else resolveThen s e false false fun s => (s, .hop x)) s)

/-- The lanes of a context held on a launch go on as an acquire at device scope (R249). -/
def wakeLaunch (s : State) (ctx : Nat) : State :=
  s.sheaves.foldl (fun s e =>
    if e.2.ctx = ctx then
      e.2.lanes.foldl (fun s l =>
        match l.2.hold with
        | some (.lwait h) => if (namedLaunch s ctx h).isNone then resume (raisePts s (coreOf e.1) (latestPts s)) e.1 l.1 wrNone else s
        | _ => s) s
    else s) s

end Sys2Proof.Machine
end

