-- ==== Sys2Proof/Machine/Conv.lean ====
section
/-! DEFINITION. CONV (R106 to R112): conversions, packing, unpacking and dot products. -/

namespace Sys2Proof.Machine

/-- RMODE and POLICY of the control byte of R64. -/
def rmodeOf (o : Tri) : Nat := ctlByte o / 4 % 4
def policyOf (o : Tri) : Nat := ctlByte o % 4

/-- Elements converted in order; the first out of range under TRAP gives its number (R46). -/
def convertAll (st t rm pol : Nat) (ftz : Bool) (k : Nat) : List Nat → Except Nat (List Nat × Word)
  | [] => .ok ([], 0)
  | v :: l =>
    match convert st t rm pol ftz v with
    | none => .error k
    | some r =>
      match convertAll st t rm pol ftz (k + 1) l with
      | .ok x => .ok (r.1 :: x.1, r.2 ||| x.2)
      | .error n => .error n

/-- CVT_OVERFLOW with the element's number in the detail (R46, R379). Log 23 (DEDUCED). -/
def cvtFault (k : Nat) : FaultInfo := { mkFault causeCvt 0 0 with detail := BitVec.ofNat 16 k }

/-- The elements of an operand in a type, F64 as one. -/
def elemsT (e : Env) (x : Spec11) (t : Nat) : List Nat :=
  if t = 14 then [(srcPair e x).toNat] else elems (elemWidth t) (32 / elemWidth t) (src e x t)

/-- A converting word: the number of its first element, its source elements, and what it writes of the results. -/
def convWord (h : Guard) (o : Tri) (k0 : Nat) (from_ : Env → List Nat) (to_ : Env → List Nat → Wr) (s : State) : Result :=
  .next (compute (cfg h) (fun e =>
    match convertAll (stype o) o.t.toNat (rmodeOf o) (policyOf o) (frmFTZ e.th.spr.frm) k0 (from_ e) with
    | .ok r => .ok (wrFlags (to_ e r.1) r.2)
    | .error k => .error (cvtFault k)) s)

/-- Results packed in the target type. -/
def wrElems (o : Tri) (l : List Nat) : Wr :=
  if o.t.toNat = 14 then wrPair o.d (BitVec.ofNat 64 (l.headD 0)) else wrReg o.d (packElems (elemWidth o.t.toNat) l)

/-- CVT (R106). -/
def execCvt (h : Guard) (o : Tri) (s : State) : Result :=
  convWord h o 0 (fun e => elemsT e o.a (stype o)) (fun _ l => wrElems o l) s
/-- PACKH (R107). -/
def execPackh (h : Guard) (o : Tri) (s : State) : Result :=
  convWord h o 0 (fun e => [(src e o.a (stype o)).toNat, (src e o.b (stype o)).toNat]) (fun _ l => wrElems o l) s
/-- PACKBL (R108). -/
def execPackbl (h : Guard) (o : Tri) (s : State) : Result :=
  convWord h o 0 (fun e => [(src e o.a (stype o)).toNat, (src e o.b (stype o)).toNat])
    (fun e l => wrReg o.d ((readCode e o.d.toNat).extractLsb' 16 16 ++ (packElems 8 l).extractLsb' 0 16)) s
/-- PACKBH (R108): its elements are 2 and 3 of D. -/
def execPackbh (h : Guard) (o : Tri) (s : State) : Result :=
  convWord h o 2 (fun e => [(src e o.a (stype o)).toNat, (src e o.b (stype o)).toNat])
    (fun e l => wrReg o.d ((packElems 8 l).extractLsb' 0 16 ++ (readCode e o.d.toNat).extractLsb' 0 16)) s
/-- PACKN (R109). -/
def execPackn (h : Guard) (o : Tri) (s : State) : Result :=
  convWord h o 0 (fun e => elemsT e o.a (stype o) ++ elemsT e o.b (stype o)) (fun _ l => wrElems o l) s
/-- UNPK of one element's bits from a type to F32 or to an integer (R110): the exact value; FTZ plays no part. -/
def unpackBits (st t v : Nat) : Nat × Word :=
  if isFloat st then (match decodeFloat st false v with
      | .nan n sg p w => (quietTo 2 n p w, flagIf sg flagNV)
      | x => ((deliverFV 2 0 false x).1, 0))
  else if t = 2 then
    let i := intOf st v
    ((deliver 2 0 false (decide (i < 0)) i.natAbs 0).1, 0)
  else (intBits 0 (intOf st v), 0)

/-- UNPK (R110). -/
def execUnpk (h : Guard) (o : Tri) (s : State) : Result :=
  .next (computeOk h (fun e =>
    let st := ctlByte o / 16
    let r := unpackBits st o.t.toNat ((elemsT e o.a st).getD (ctlByte o % 8) 0)
    wrFlags (wrReg o.d (BitVec.ofNat 32 r.1)) r.2) s)

/-- The integer dot product (R111). -/
def dotInt (t : Nat) (a b c : Word) : Word :=
  let w := elemWidth t
  c + BitVec.ofInt 32 (List.zipWith (fun x y => intOf t x * intOf t y) (elems w (32 / w) a) (elems w (32 / w) b)).sum

/-- An integer dot product word. -/
def dotIntWord (h : Guard) (o : Tri) (s : State) : Result :=
  .next (computeOk h (fun e => wrReg o.d (dotInt o.t.toNat (src e o.a o.t.toNat) (src e o.b o.t.toNat) (src e o.c 0))) s)

/-- DOT4I (R111). -/
def execDot4i (h : Guard) (o : Tri) (s : State) : Result := dotIntWord h o s
/-- DOT4U (R111). -/
def execDot4u (h : Guard) (o : Tri) (s : State) : Result := dotIntWord h o s
/-- DOT8I (R111). -/
def execDot8i (h : Guard) (o : Tri) (s : State) : Result := dotIntWord h o s

/-- The floating-point dot product with an F32 accumulator (R49, R112): NaN operands in the order A, B, C, and within one in ascending element order. Log 67 (DEDUCED). -/
def dotFloat (t rm : Nat) (ftz : Bool) (a b c : Word) : Nat × Word :=
  let w := elemWidth t
  let x := elems w (32 / w) a
  let y := elems w (32 / w) b
  let vc := decodeFloat 2 ftz c.toNat
  dotRound t t 2 rm ftz (x.map (decodeFloat t ftz) ++ y.map (decodeFloat t ftz) ++ [vc]) x y (some vc)

/-- A floating-point dot product word; C is read as F32 (R62). -/
def dotFloatWord (h : Guard) (o : Tri) (s : State) : Result :=
  .next (computeOk h (fun e =>
    let t := o.t.toNat
    let r := dotFloat t (frmRM e.th.spr.frm) (frmFTZ e.th.spr.frm) (src e o.a t) (src e o.b t) (src e o.c 2)
    wrFlags (wrReg o.d (BitVec.ofNat 32 r.1)) r.2) s)

/-- DOT4F (R112). -/
def execDot4f (h : Guard) (o : Tri) (s : State) : Result := dotFloatWord h o s
/-- DOT8F (R112). -/
def execDot8f (h : Guard) (o : Tri) (s : State) : Result := dotFloatWord h o s
/-- DOT2H (R112). -/
def execDot2h (h : Guard) (o : Tri) (s : State) : Result := dotFloatWord h o s

/-- A pair slot's operation on its two operands (R116): the value, where it goes, and its flags. -/
def slotOp (op rm : Nat) (ftz : Bool) (a b : Word) : Word × Word :=
  let fl := fun (t : Nat) (f : Nat → Nat → Nat × Word) =>
    let r := perElem2 t f (a.setWidth 64) (b.setWidth 64)
    (r.1.setWidth 32, r.2)
  match op with
  | 0 => (opAdd 0 a b, 0)
  | 1 => (opSub 0 a b, 0)
  | 2 => (a &&& b, 0)
  | 3 => (a ||| b, 0)
  | 4 => (a ^^^ b, 0)
  | 5 => (opShl 0 a b, 0)
  | 6 => (opShr 0 a b, 0)
  | 7 => (opSar 0 a b, 0)
  | 8 => (opMin 0 a b, 0)
  | 9 => (opMax 0 a b, 0)
  | 10 => (opMin 1 a b, 0)
  | 11 => (opMax 1 a b, 0)
  | 12 => (a, 0)
  | 13 => fl 2 (addBits 2 rm ftz)
  | 14 => fl 2 (mulBits 2 rm ftz)
  | 15 => fl 2 (minMaxBits false 2 ftz)
  | 16 => fl 2 (minMaxBits true 2 ftz)
  | 17 => fl 3 (addBits 3 rm ftz)
  | 18 => fl 3 (mulBits 3 rm ftz)
  | 19 => fl 4 (addBits 4 rm ftz)
  | _ => fl 4 (mulBits 4 rm ftz)

/-- What a pair slot writes (R68, R116): MOV with I = 1 loads its immediate. -/
def slotWr (e : Env) (x : Slot) : Wr :=
  let imm := x.b.signExtend 32
  let b := if x.i = 1#1 then imm else readCode e x.b.toNat
  let a := if x.op = 12#6 ∧ x.i = 1#1 then imm else readCode e x.a.toNat
  let r := slotOp x.op.toNat (frmRM e.th.spr.frm) (frmFTZ e.th.spr.frm) a b
  wrFlags (wrReg x.d r.1) r.2

/-- A pair word (R117): both slots read before either writes, and it carries no guard. -/
def execPairWord (x y : Slot) (_ : BitVec 1) (s : State) : Result :=
  .next (computeOk { pn := 0, pg := 63 } (fun e => wrBoth (slotWr e x) (slotWr e y)) s)

end Sys2Proof.Machine
end

