-- ==== Sys2Proof/Machine/Matrix.lean ====
section
/-! DEFINITION. The matrix arrays and accumulator memory (R326 to R330): MMA in K-steps (R50), allocation of blocks, and the operations on tiles; the
MATRIX group (R362 to R369); power permits (R336). -/

namespace Sys2Proof.Machine

/-- An accumulator block of a core. -/
def accAt (c : CoreSt) (b : Nat) : AccBlock := Tab.get accReset c.acc b

/-- A core with an accumulator block changed. -/
def updAcc (c : CoreSt) (b : Nat) (f : AccBlock → AccBlock) : CoreSt := { c with acc := Tab.put c.acc b (f (accAt c b)) }

/-- The array of an accumulator block (R326). -/
def arrayOf (b : Nat) : Nat := b / 128

/-- An array of a core. -/
def arrayAt (c : CoreSt) (a : Nat) : ArraySt := if a = 0 then c.array0 else c.array1

/-- A core with an array changed. -/
def updArray (c : CoreSt) (a : Nat) (f : ArraySt → ArraySt) : CoreSt := if a = 0 then { c with array0 := f c.array0 } else { c with array1 := f c.array1 }

/-- ACC_MISUSE with a reason. -/
def accFault (reason : Byte) : FaultInfo := mkFault causeAcc reason 0

/-- A team holds a block. -/
def accHeld (c : CoreSt) (team : Option Nat) (b : Nat) : Bool := decide (b < 256) && team.isSome && decide ((accAt c b).team = team)

/-- The blocks that a word names (R363): one, the F64 pair, or in a gang of 64 the sheaf's own. -/
def namedBlocks (c : CoreSt) (sf : Sheaf) (b : Nat) (f64 : Bool) : Except FaultInfo (List Nat) :=
  if !accHeld c sf.team b then .error (accFault 0x68)
  else if f64 then (if sf.width = 64 ∨ b % 2 = 1 ∨ !accHeld c sf.team (b + 1) then .error (accFault 0x6A) else .ok [b, b + 1])
  else if sf.width = 64 then (if accHeld c sf.team (b + 1) then .ok [b + sf.half] else .error (accFault 0x68))
  else .ok [b]

/-- The scoreboard of any of some blocks is set (R328). -/
def accBusy (c : CoreSt) (bs : List Nat) : Bool := bs.any fun b => decide ((accAt c b).pending ≠ 0)

/-- The place of element (i, j): its block among those named and its first word (R326). -/
def accPlace (bs : List Nat) (f64 : Bool) (i j : Nat) : Nat × Nat :=
  let w := if f64 then 32 * i + 2 * j else 16 * i + j
  (bs.getD (w / 512) 0, w % 512)

/-- Element (i, j) as bits. -/
def accGet (c : CoreSt) (bs : List Nat) (f64 : Bool) (i j : Nat) : Nat :=
  let p := accPlace bs f64 i j
  let w := (accAt c p.1).words
  if f64 then (Tab.get 0 w p.2).toNat + (Tab.get 0 w (p.2 + 1)).toNat * 2 ^ 32 else (Tab.get 0 w p.2).toNat

/-- A core with element (i, j) written. -/
def accSet (c : CoreSt) (bs : List Nat) (f64 : Bool) (i j v : Nat) : CoreSt :=
  let p := accPlace bs f64 i j
  updAcc c p.1 fun x =>
    let w := Tab.set 0 x.words p.2 (BitVec.ofNat 32 (v % 2 ^ 32))
    { x with words := if f64 then Tab.set 0 w (p.2 + 1) (BitVec.ofNat 32 (v / 2 ^ 32)) else w }

/-- The pairings of R327: the accumulator's type and the K-step. -/
def mmaPair (a b : Nat) : Option (Nat × Nat) :=
  if a = 14 ∧ b = 14 then some (14, 1)
  else if a = 2 ∧ b = 2 then some (2, 2)
  else if (a = 3 ∧ b = 3) ∨ (a = 4 ∧ b = 4) then some (2, 8)
  else if (a = 9 ∨ a = 10) ∧ (b = 9 ∨ b = 10) then some (2, 16)
  else if a = 12 ∧ b = 12 then some (2, 32)
  else if a = 7 ∧ b = 7 then some (0, 16)
  else if a = 11 ∧ b = 11 then some (0, 32)
  else none

/-- The K-steps of an MMA (R328). -/
def mmaSteps (a b : Tile) : Nat :=
  match mmaPair a.fmt.toNat b.fmt.toNat with
  | some (_, ks) => a.elems / ks
  | none => 0

/-- The K-steps of the MMAs in a queue (R336). -/
def queueSteps (l : List ArrayOp) : Nat :=
  l.foldl (fun acc x => match x with
    | .mma _ _ a b _ => acc + mmaSteps a b
    | _ => acc) 0

/-- One K-step of one element (R50): the products summed exactly and rounded once, then added. -/
def kStep (fa fb tacc : Nat) (a b : List Nat) (v : Nat) : Nat × Word :=
  if isFloat tacc then
    let order := (List.zipWith (fun x y => [decodeFloat fa false x, decodeFloat fb false y]) a b).flatten
    let p := dotRound fa fb tacc 0 false order a b none
    let r := addBits tacc 0 false p.1 v
    (r.1, (p.2 ||| r.2) &&& (flagNV ||| flagOF))
  else
    let q := (List.zipWith (fun x y => intOf fa x * intOf fb y) a b).sum
    (intBits 0 (intOf 0 v + q), 0)

/-- Flags ORed into `sr.fexc` of a thread, and into what a discarded run returns to. -/
def orFlags (s : State) (sh ln : Nat) (f : Word) : State :=
  if f = 0 then s
  else updThread s sh ln fun th =>
    { th with spr := { th.spr with fexc := th.spr.fexc ||| f }, run := th.run.map fun r => { r with fexc0 := r.fexc0 ||| f } }

/-- One K-step of an MMA in one lane's row (R327). -/
def mmaRow (c : CoreSt) (bs : List Nat) (ta tb tacc : Nat) (i : Nat) (a : List Nat) (b : List (List Nat)) : CoreSt × Word :=
  (List.range 16).foldl (fun (acc : CoreSt × Word) j =>
    let r := kStep ta tb tacc a (b.map fun row => row.getD j 0) (accGet acc.1 bs (tacc = 14) i j)
    (accSet acc.1 bs (tacc = 14) i j r.1, acc.2 ||| r.2)) (c, 0)

/-- One K-step of the MMA at the head of an array (R50, R327, R328). Log 20 (DEDUCED). -/
def mmaStep (s : State) (k arr : Nat) : State :=
  let ar := arrayAt (coreAt s k) arr
  match ar.queue with
  | .mma sh bs a b mask :: _ =>
    match sheaf? s sh, mmaPair a.fmt.toNat b.fmt.toNat with
    | some sf, some (tacc, ks) =>
      if a.elems / ks ≤ ar.steps then s
      else
        let base := if sf.width = 64 then 32 * sf.half else 0
        let m := (coreAt s k).scratch
        let rows := (List.range ks).map fun i => tileRow m b (ar.steps * ks + i)
        let s1 := (maskLanes sh mask).foldl (fun s x =>
          let r := mmaRow (coreAt s k) bs a.fmt.toNat b.fmt.toNat tacc x.2 (((tileRow m a (base + x.2)).drop (ar.steps * ks)).take ks) rows
          orFlags (setCore s k r.1) sh x.2 r.2) s
        countEvent (updCore s1 k fun c => updArray c arr fun y => { y with steps := y.steps + 1, permit := y.permit - 1 }) sf.ctx 9 1
    | _, _ => s
  | _ => s

/-- The context of an operation. -/
def opSheaf (o : ArrayOp) : Nat :=
  match o with
  | .mma sh _ _ _ _ => sh
  | .accst sh _ _ _ _ _ _ _ _ => sh
  | .bht sh _ _ _ => sh
  | .tqnt sh _ _ _ _ _ _ _ => sh
  | .ttrn sh _ _ _ => sh

/-- Lanes are held for an operation until it is done, or for an ACCFREE of its block (R343). -/
def opHolds (c : CoreSt) (o : ArrayOp) : Bool :=
  match o with
  | .mma _ bs _ _ _ => bs.any fun b => (accAt c b).freeing
  | _ => true

/-- An array may go on (R328, R336, R343): its head's context runs, or is being stopped and lanes wait for an operation of the queue; a long burst holds its permit.
Log 32 (DEDUCED). -/
def arrayMay (s : State) (k arr : Nat) : Bool :=
  let ar := arrayAt (coreAt s k) arr
  match ar.queue with
  | [] => false
  | o :: _ =>
    match sheaf? s (opSheaf o) with
    | none => false
    | some sf =>
      let st := (ctxAt s sf.ctx).state
      (decide (st = .running) || (decide (st = .stopping) && ar.queue.any (opHolds (coreAt s k)))) && (decide (0 < ar.permit) || decide (queueSteps ar.queue ≤ 4096))

/-- The head of an array leaves its queue; the permit ends with the burst. -/
def popArray (s : State) (k arr : Nat) : State :=
  updCore s k fun c => updArray c arr fun y => { queue := y.queue.drop 1, steps := 0, permit := if 1 < y.queue.length then y.permit else 0 }

/-- MMA_COMPLETE (R328): the scoreboard of its blocks falls. -/
def execMmaComplete (core array : Nat) (s : State) : Result :=
  .next (match (arrayAt (coreAt s core) array).queue with
    | .mma _ bs a b _ :: _ =>
      if core < Config.cores ∧ array < 2 ∧ mmaSteps a b ≤ (arrayAt (coreAt s core) array).steps then
        let s1 := popArray s core array
        updCore s1 core fun c => bs.foldl (fun c x => updAcc c x fun y => { y with pending := y.pending - 1 }) c
      else s
    | _ => s)

/-- Tiles named by one word (R314): a wait for any of them comes first, then the tests of each in turn. -/
def nameTiles (s : State) (t : Team) (ks : List Nat) : Except (Option FaultInfo) (List (Nat × Tile)) :=
  let l := ks.map fun k => nameTile s t k false false false
  if l.contains .wait then .error none
  else l.foldl (fun (acc : Except (Option FaultInfo) (List (Nat × Tile))) x =>
    match acc, x with
    | .ok r, .ok i y => .ok (r ++ [(i, y)])
    | .ok _, .fault f => .error (some f)
    | .ok _, .wait => .error none
    | e, _ => e) (.ok [])

/-- A word of the MATRIX group that names tiles, once for the word. -/
def matrixWord (h : Guard) (ks : List Nat) (f : Env → State → Nat × Team → List (Nat × Tile) → State × (Nat → LaneRes)) (s : State) : Result :=
  .next (wordScope (cfgNRR h) (fun e s =>
    match teamOf s e.sf with
    | none => (s, fun _ => .fault (tileFault 0x62))
    | some t =>
      match nameTiles s t.2 ks with
      | .error none => (s, fun _ => .hold .stall)
      | .error (some x) => (s, fun _ => .fault x)
      | .ok l => f e s t l) s)

/-- The lanes of a word that take effect, as a mask of its sheaf. -/
def partsMask (e : Env) : Word := maskOf ((e.parts.filter fun x => x.1 = e.sh).map (·.2))

/-- The number in a register of the leading lane. -/
def lead8 (e : Env) (r : BitVec 8) : Nat := (readCode e r.toNat).toNat

/-- An array's queue is full (R310). -/
def arrayFull (c : CoreSt) (arr : Nat) : Bool := decide (8 ≤ (arrayAt c arr).queue.length)

/-- An operation joins an array's queue. -/
def queueOp (s : State) (k arr : Nat) (o : ArrayOp) : State := updCore s k fun c => updArray c arr fun y => { y with queue := y.queue ++ [o] }

/-- MMA (R327, R364): READY tiles, the shapes and formats of R327, the blocks; then it is queued, after the accesses before it (R287). -/
def execMma (h : Guard) (o : XF) (s : State) : Result :=
  matrixWord h [o.x1.toNat, o.x2.toNat] (fun e s t l =>
    let k := t.2.core
    let bad := fun (f : FaultInfo) => (s, fun (_ : Nat) => LaneRes.fault f)
    match l with
    | [(_, a), (_, b)] =>
      if a.state ≠ .ready ∨ b.state ≠ .ready then bad (tileFault 0x63)
      else
        match mmaPair a.fmt.toNat b.fmt.toNat with
        | none => bad (tileFault 0x64)
        | some (tacc, ks) =>
          if a.rows ≠ (if e.sf.width = 64 then 64 else 32) ∨ b.rows ≠ a.elems ∨ b.elems ≠ 16 ∨ a.elems % ks ≠ 0 then bad (tileFault 0x64)
          else
            match namedBlocks (coreAt s k) e.sf (lead8 e o.x0) (tacc = 14) with
            | .error f => bad f
            | .ok bs =>
              let arr := arrayOf (bs.headD 0)
              let r := startReady s e.parts
              if arrayFull (coreAt s k) arr ∨ !r.2 then (r.1, fun _ => .hold .stall)
              else
                let s1 := queueOp r.1 k arr (.mma e.sh bs a b (partsMask e))
                (updCore s1 k fun c => bs.foldl (fun c x => updAcc c x fun y => { y with pending := y.pending + 1 }) c, fun _ => .ok wrNone)
    | _ => (s, fun _ => .ok wrNone)) s

/-- The lowest free run of `m` blocks on an array (R365). -/
def freeRun (c : CoreSt) (m arr : Nat) : Option Nat :=
  ((List.range (129 - m)).map fun i => arr * 128 + i).find? fun b => (List.range m).all fun i => (accAt c (b + i)).team.isNone

/-- The run that ARR selects (R365). -/
def findRun (c : CoreSt) (m sel : Nat) : Option Nat := if sel = 0 then (freeRun c m 0).or (freeRun c m 1) else freeRun c m (sel - 1)

/-- Blocks granted to a team, reading as zero (R329). -/
def takeRun (s : State) (k team first m : Nat) : State :=
  updCore s k fun c => (List.range m).foldl (fun c i => updAcc c (first + i) fun _ => { accReset with team := some team }) c

/-- The blocks a team holds on a core. -/
def holding (c : CoreSt) (team : Nat) : Nat := (c.acc.filter fun x => decide (x.2.team = some team)).length

/-- What ACCALLOC writes (R365). -/
def allocWr (pred : Nat) (d : BitVec 8) (first : Option Nat) : Wr :=
  match first with
  | some b => wrBoth (wrPred pred true) (wrReg d (BitVec.ofNat 32 b))
  | none => wrBoth (wrPred pred false) (wrReg d 0xFFFFFFFF#32)

/-- The lanes of a request that still wait. -/
def accWaiters (s : State) (r : AccReq) : List (Nat × Nat) :=
  (maskLanes r.sh r.mask).filter fun x => match thread? s x.1 x.2 with
    | some th => decide (th.hold = some .acc)
    | none => false

/-- A waiting request answered. -/
def answerAcc (s : State) (r : AccReq) (first : Option Nat) : State :=
  resumeAll s ((accWaiters s r).map fun x => (x, .ok (allocWr r.pred r.dest first)))

/-- The other waiting requests of a team that now holds blocks (R329). Log 32 (DEDUCED). -/
def answerRest : Nat → State → Nat → Nat → State
  | 0, s, _, _ => s
  | n + 1, s, k, team =>
    match (coreAt s k).accq.find? (fun r => r.team = team) with
    | none => s
    | some r =>
      let s1 := updCore s k fun c => { c with accq := c.accq.erase r }
      match findRun (coreAt s1 k) r.m r.arr with
      | some b => answerRest n (answerAcc (takeRun s1 k team b r.m) r (some b)) k team
      | none => answerRest n (answerAcc s1 r none) k team

/-- The request of a queue that is served first (R329): a team below its ACCHINT goes ahead, else arrival order. Log 32 (DEDUCED). -/
def accFirst (s : State) (q : List AccReq) : Option AccReq :=
  (q.find? fun r => match Tab.at? s.teams r.team with
    | some t => decide (0 < t.accHint)
    | none => false).or q.head?

/-- The request served next. -/
def accHead (s : State) (k : Nat) : Option AccReq := accFirst s (coreAt s k).accq

/-- ACCALLOC (R329, R365): a team that holds blocks is answered at once, and another if no request is served before it. Log 32 (DEDUCED). -/
def execAccalloc (h : Guard) (o : XF) (s : State) : Result :=
  .next (wordScope (cfgNRR h) (fun e s =>
    let k := coreOf e.sh
    let m := o.x2.toNat
    let sel := o.flags.toNat % 4
    match e.sf.team with
    | none => (s, fun _ => .fault (accFault 0x69))
    | some t =>
      if m = 0 ∨ 128 < m then (s, fun _ => .fault (accFault 0x69))
      else
        let r : AccReq := { team := t, sh := e.sh, mask := partsMask e, pred := o.x0.toNat, dest := o.x1, m := m, arr := sel }
        let holds := decide (holding (coreAt s k) t ≠ 0)
        let fit := if holds || decide (accFirst s ((coreAt s k).accq ++ [r]) = some r) then findRun (coreAt s k) m sel else none
        match fit with
        | some b => (answerRest (coreAt s k).accq.length (takeRun s k t b m) k t, fun _ => .ok (allocWr o.x0.toNat o.x1 (some b)))
        | none =>
          if holds then (s, fun _ => .ok (allocWr o.x0.toNat o.x1 none))
          else (updCore s k fun c => { c with accq := c.accq ++ [r] }, fun _ => .hold .acc)) s)

/-- ACCALLOC_GRANT (R329): the request at the head is granted once a run fits; one whose lanes wait no more is forgotten. -/
def execAccallocGrant (core : Nat) (s : State) : Result :=
  .next (match accHead s core with
    | none => s
    | some r =>
      let s1 := updCore s core fun c => { c with accq := c.accq.erase r }
      if (accWaiters s r).isEmpty then s1
      else
        match findRun (coreAt s core) r.m r.arr with
        | some b => answerRest (coreAt s core).accq.length (answerAcc (takeRun s1 core r.team b r.m) r (some b)) core r.team
        | none => s)

/-- ACCFREE (R366): once it waits it completes before its lanes are saved (R343). -/
def execAccfree (h : Guard) (o : XF) (s : State) : Result :=
  .next (wordScope (cfgNRR h) (fun e s =>
    let k := coreOf e.sh
    let m := o.x1.toNat
    let bs := (List.range m).map fun i => lead8 e o.x0 + i
    if m = 0 ∨ 128 < m then (s, fun _ => .fault (accFault 0x69))
    else if !bs.all (accHeld (coreAt s k) e.sf.team) then (s, fun _ => .fault (accFault 0x68))
    else if accBusy (coreAt s k) bs then (updCore s k fun c => bs.foldl (fun c b => updAcc c b fun x => { x with freeing := true }) c, fun _ => .hold .again)
    else (updCore s k fun c => bs.foldl (fun c b => updAcc c b fun _ => accReset) c, fun _ => .ok wrNone)) s)

/-- ACCZERO (R366). -/
def execAcczero (h : Guard) (o : XF) (s : State) : Result :=
  .next (wordScope (cfgNRR h) (fun e s =>
    let k := coreOf e.sh
    match namedBlocks (coreAt s k) e.sf (lead8 e o.x0) (o.t = 14#4) with
    | .error f => (s, fun _ => .fault f)
    | .ok bs =>
      if accBusy (coreAt s k) bs then (s, fun _ => .hold .stall)
      else (updCore s k fun c => bs.foldl (fun c b => updAcc c b fun x => { x with words := [] }) c, fun _ => .ok wrNone)) s)

/-- ACCRD and ACCWR: the block is read from the leading lane (R342), then each lane moves elements of its own row (R367). -/
def accMove (h : Guard) (t : BitVec 4) (block : BitVec 8) (f : Env → State → List Nat → State × LaneRes) (s : State) : Result :=
  .next (
    let lead := (activeLanes s).find? fun x => match thread? s x.1 x.2 with
      | some th => guardTrue th h
      | none => false
    let b := match lead with
      | some x => match envOf s (activeLanes s) [x] x with
        | some e => lead8 e block
        | none => 0
      | none => 0
    runWord (cfgNRR h) (fun e s =>
      match namedBlocks (coreAt s (coreOf e.sh)) e.sf b (t = 14#4) with
      | .error x => (s, .fault x)
      | .ok bs => if accBusy (coreAt s (coreOf e.sh)) bs then (s, .hold .stall) else f e s bs) s)

/-- ACCRD (R367). -/
def execAccrd (h : Guard) (o : XF) (s : State) : Result :=
  accMove h o.t o.x1 (fun e s bs =>
    let c := coreAt s (coreOf e.sh)
    let q := o.x2.toNat
    let v := if o.t = 14#4 then joinBits 64 [accGet c bs true e.ln (2 * q), accGet c bs true e.ln (2 * q + 1)]
      else joinBits 32 ((List.range 4).map fun j => accGet c bs false e.ln (4 * q + j))
    (s, .ok (wrQuad o.x0 (BitVec.ofNat 128 v)))) s

/-- ACCWR (R367). -/
def execAccwr (h : Guard) (o : XF) (s : State) : Result :=
  accMove h o.t o.x1 (fun e s bs =>
    let q := o.x2.toNat
    let v := (codeQuad e o.x0).toNat
    (updCore s (coreOf e.sh) fun c =>
      if o.t = 14#4 then accSet (accSet c bs true e.ln (2 * q) (v % 2 ^ 64)) bs true e.ln (2 * q + 1) (v / 2 ^ 64)
      else (List.range 4).foldl (fun c j => accSet c bs false e.ln (4 * q + j) (v / 2 ^ (32 * j) % 2 ^ 32)) c, .ok wrNone)) s

/-- A tile that an array works on is READY with owner ENGINE (R313). -/
def holdTiles (s : State) (k : Nat) (l : List Nat) : State := l.foldl (fun s i => updTile s k i fun x => { x with state := .ready, engine := true }) s

/-- The tiles of a finished operation return to THREAD. -/
def freeTiles (s : State) (k : Nat) (l : List Nat) : State := l.foldl (fun s i => updTile s k i fun x => { x with engine := false }) s

/-- A tile may take an array's results: EMPTY or READY. -/
def mayTake (t : Tile) : Bool := decide (t.state = .empty) || decide (t.state = .ready)

/-- RMODE, POLICY and STILE of ACCST and TQNT (R362). -/
def xPol (o : XF) : Nat := o.flags.toNat % 4
def xMode (o : XF) : Nat := o.flags.toNat / 4 % 4
def xTile (o : XF) : Bool := o.flags.getLsbD 4

/-- An operation with its lanes held joins an array, if there is room. -/
def startOp (s : State) (k arr : Nat) (tiles : List Nat) (op : ArrayOp) : State × (Nat → LaneRes) :=
  if arrayFull (coreAt s k) arr then (s, fun _ => .hold .stall) else (queueOp (holdTiles s k tiles) k arr op, fun _ => .hold .array)

/-- The exponent register of each lane that takes effect. -/
def laneExps (e : Env) (r : BitVec 8) : Tab Word :=
  e.parts.filterMap fun x => (envOf e.s e.acts e.parts x).map fun y => (x.2, readCode y r.toNat)

/-- ACCST (R368). -/
def execAccst (h : Guard) (o : XF) (s : State) : Result :=
  .next (wordScope (cfgNRR h) (fun e s =>
    let bad := fun (f : FaultInfo) => (s, fun (_ : Nat) => LaneRes.fault f)
    match teamOf s e.sf with
    | none => bad (tileFault 0x62)
    | some t =>
      let k := t.2.core
      match namedBlocks (coreAt s k) e.sf (lead8 e o.x1) (o.t = 14#4) with
      | .error f => bad f
      | .ok bs =>
        if accBusy (coreAt s k) bs then (s, fun _ => .hold .stall)
        else
          match nameTiles s t.2 (o.x0.toNat :: if xTile o then [o.x2.toNat] else []) with
          | .error none => (s, fun _ => .hold .stall)
          | .error (some x) => bad x
          | .ok l =>
            let d := (l.headD (0, tileReset)).2
            let sc := (l.drop 1).head?
            let shape := fun (x : Tile) => decide (x.rows = if e.sf.width = 64 then 64 else 32) && decide (x.elems = 16)
            if !mayTake d ∨ sc.any (fun x => x.2.state ≠ .ready) then bad (tileFault 0x63)
            else if d.fmt ≠ o.t ∨ !shape d ∨ sc.any (fun x => x.2.fmt ≠ 7#4 || !shape x.2) then bad (tileFault 0x64)
            else startOp s k (arrayOf (bs.headD 0)) (l.map (·.1))
              (.accst e.sh bs (l.headD (0, d)).1 (sc.map (·.1)) (if xTile o then [] else laneExps e o.x2) o.t (xMode o) (xPol o) (partsMask e))) s)

/-- The array that BHT, TQNT and TTRN use: by the issuing quadrant (R326). -/
def quadArray (sh : Nat) : Nat := if quadOf sh % 4 < 2 then 0 else 1

/-- BHT (R369). -/
def execBht (h : Guard) (o : XF) (s : State) : Result :=
  matrixWord h [o.x0.toNat] (fun e s t l =>
    match l with
    | [(i, x)] =>
      if x.state ≠ .ready then (s, fun _ => .fault (tileFault 0x63))
      else if x.fmt ≠ 2#4 ∨ x.elems % o.x1.toNat ≠ 0 then (s, fun _ => .fault (tileFault 0x64))
      else startOp s t.2.core (quadArray e.sh) [i] (.bht e.sh i o.x1.toNat (partsMask e))
    | _ => (s, fun _ => .ok wrNone)) s

/-- The formats TQNT writes (R330). -/
def quantFormat (f : Nat) : Bool := [9, 10, 12, 7, 11, 3, 4].contains f

/-- TQNT (R369). -/
def execTqnt (h : Guard) (o : XF) (s : State) : Result :=
  matrixWord h ([o.x0.toNat, o.x1.toNat] ++ if xTile o then [o.x2.toNat] else []) (fun e s t l =>
    match l with
    | (i, d) :: (j, x) :: sc =>
      if x.state ≠ .ready ∨ !mayTake d ∨ sc.any (fun y => y.2.state ≠ .ready) then (s, fun _ => .fault (tileFault 0x63))
      else if i = j ∨ x.fmt ≠ 2#4 ∨ !quantFormat d.fmt.toNat ∨ d.rows ≠ x.rows ∨ d.elems ≠ x.elems ∨
          sc.any (fun y => y.2.fmt ≠ 7#4 || y.2.rows != x.rows) then (s, fun _ => .fault (tileFault 0x64))
      else startOp s t.2.core (quadArray e.sh) (l.map (·.1))
        (.tqnt e.sh i j (sc.head?.map (·.1)) (if xTile o then 0 else readCode e o.x2.toNat) (xMode o) (xPol o) (partsMask e))
    | _ => (s, fun _ => .ok wrNone)) s

/-- TTRN (R369). -/
def execTtrn (h : Guard) (o : XF) (s : State) : Result :=
  matrixWord h [o.x0.toNat, o.x1.toNat] (fun e s t l =>
    match l with
    | [(i, d), (j, x)] =>
      if x.state ≠ .ready ∨ !mayTake d then (s, fun _ => .fault (tileFault 0x63))
      else if i = j ∨ d.fmt ≠ x.fmt ∨ 256 < x.elems ∨ d.rows ≠ x.elems ∨ d.elems ≠ x.rows then (s, fun _ => .fault (tileFault 0x64))
      else startOp s t.2.core (quadArray e.sh) [i, j] (.ttrn e.sh i j (partsMask e))
    | _ => (s, fun _ => .ok wrNone)) s

/-- SignedByte of a word. -/
def signedByte (v : Nat) : Int := (BitVec.ofNat 8 v).toInt

/-- Elements scaled and delivered in a target (R47, R368): the first out of range under TRAP gives its number. -/
def scaleRow (st t rm pol : Nat) (k : Nat) : List (Nat × Int) → Except Nat (List Nat × Word)
  | [] => .ok ([], 0)
  | x :: l =>
    match convertScaled st t rm pol x.2 x.1 with
    | none => .error k
    | some r =>
      match scaleRow st t rm pol (k + 1) l with
      | .ok y => .ok (r.1 :: y.1, r.2 ||| y.2)
      | .error n => .error n

/-- The type in which ACCST reads an element (R368). -/
def accType (t : Nat) : Nat := if t = 0 ∨ t = 7 ∨ t = 11 then 0 else if t = 14 then 14 else 2

/-- One row of ACCST (R368). -/
def accstRow (s : State) (k : Nat) (bs : List Nat) (d : Nat) (sc : Option Nat) (exps : Tab Word) (t rm pol base ln : Nat) : State × LaneRes :=
  let c := coreAt s k
  let es : List Int := match sc with
    | some i => (tileRow c.scratch (tileAt s k i) (base + ln)).map signedByte
    | none => List.replicate 16 (signedByte ((Tab.get 0 exps ln).toNat % 256))
  let xs := (List.range 16).map fun j => accGet c bs (t = 14) ln j
  match scaleRow (accType t) t rm pol 0 (xs.zip es) with
  | .ok r => (updCore s k fun c => tilePutRow c (tileAt s k d) (base + ln) r.1, .ok (wrFlags wrNone r.2))
  | .error j => (s, .fault (cvtFault j))

/-- One butterfly stage on a row (R51). -/
def bhtStage (st : Nat) (l : List Nat) : List Nat × Word :=
  (List.range l.length).foldl (fun (acc : List Nat × Word) i =>
    if i / 2 ^ st % 2 = 0 then
      let a := l.getD i 0
      let b := l.getD (i + 2 ^ st) 0
      let x := addBits 2 0 false a b
      let y := subBits 2 0 false a b
      ((acc.1.set i x.1).set (i + 2 ^ st) y.1, acc.2 ||| x.2 ||| y.2)
    else acc) (l, 0)

/-- BHT of a row: log2(n) stages in each block of n, which the bits of the position keep apart (R51). -/
def bhtRow (n : Nat) (l : List Nat) : List Nat × Word :=
  (List.range (Nat.log2 n)).foldl (fun (acc : List Nat × Word) st => let r := bhtStage st acc.1; (r.1, acc.2 ||| r.2)) (l, 0)

/-- BHT on a tile (R369). -/
def bhtTile (s : State) (k i n : Nat) : State × LaneRes :=
  let t := tileAt s k i
  let r := (List.range t.rows).foldl (fun (acc : CoreSt × Word) j =>
    let x := bhtRow n (tileRow acc.1.scratch t j)
    (tilePutRow acc.1 t j x.1, acc.2 ||| x.2)) (coreAt s k, 0)
  (setCore s k r.1, .ok (wrFlags wrNone r.2))

/-- The rows TQNT computes; the first element out of range under TRAP, row by row (R369, R379). -/
def quantRows (m : Memory) (src : Tile) (sc : Option Tile) (exp : Word) (t rm pol : Nat) : Nat → Except (Nat × Nat) (List (List Nat) × Word)
  | 0 => .ok ([], 0)
  | n + 1 =>
    match quantRows m src sc exp t rm pol n with
    | .error x => .error x
    | .ok acc =>
      let e := signedByte (match sc with
        | some x => (tileRow m x n).headD 0
        | none => exp.toNat % 256)
      match scaleRow 2 t rm pol 0 ((tileRow m src n).map fun v => (v, e)) with
      | .ok r => .ok (acc.1 ++ [r.1], acc.2 ||| r.2)
      | .error j => .error (n, j)

/-- Rows written to a tile. -/
def putRows (s : State) (k i : Nat) (l : List (List Nat)) : State :=
  updCore s k fun c => ((l.zip (List.range l.length)).foldl (fun c r => tilePutRow c (tileAt s k i) r.2 r.1) c)

/-- TQNT on its tiles (R369). -/
def tqntTile (s : State) (k d x : Nat) (sc : Option Nat) (exp : Word) (rm pol : Nat) : State × LaneRes :=
  let t := tileAt s k x
  match quantRows (coreAt s k).scratch t (sc.map (tileAt s k)) exp (tileAt s k d).fmt.toNat rm pol t.rows with
  | .ok r => (putRows s k d r.1, .ok (wrFlags wrNone r.2))
  | .error (r, j) => (s, .fault (cvtFault (j % 256 + r * 256)))

/-- TTRN on its tiles (R369). -/
def ttrnTile (s : State) (k d x : Nat) : State :=
  let t := tileAt s k x
  let rows := (List.range t.rows).map fun r => tileRow (coreAt s k).scratch t r
  putRows s k d ((List.range t.elems).map fun j => rows.map fun r => r.getD j 0)

/-- The held lanes of an operation. -/
def arrayWaiters (s : State) (sh : Nat) (mask : Word) : List (Nat × Nat) :=
  (maskLanes sh mask).filter fun x => match thread? s x.1 x.2 with
    | some th => decide (th.hold = some .array)
    | none => false

/-- A finished operation: its tiles are released and its lanes go on with one result. -/
def finishOp (s : State) (k arr : Nat) (tiles : List Nat) (sh : Nat) (mask : Word) (r : LaneRes) : State :=
  let s1 := freeTiles (popArray s k arr) k tiles
  resumeAll s1 ((arrayWaiters s1 sh mask).map fun x => (x, r))

/-- ARRAY_OP_DONE (R368, R369): the operation at the head of an array takes effect. -/
def execArrayOpDone (core array : Nat) (s : State) : Result :=
  .next (if core < Config.cores ∧ array < 2 ∧ arrayMay s core array then
      match (arrayAt (coreAt s core) array).queue with
      | .accst sh bs d sc exps t rm pol mask :: _ =>
        let base := match sheaf? s sh with
          | some sf => if sf.width = 64 then 32 * sf.half else 0
          | none => 0
        let r := (arrayWaiters s sh mask).foldl (fun (acc : State × List ((Nat × Nat) × LaneRes)) x =>
          let y := accstRow acc.1 core bs d sc exps t.toNat rm pol base x.2
          (y.1, acc.2 ++ [(x, y.2)])) (s, [])
        resumeAll (freeTiles (popArray r.1 core array) core (d :: sc.toList)) r.2
      | .bht sh i n mask :: _ =>
        let r := bhtTile s core i n
        finishOp r.1 core array [i] sh mask r.2
      | .tqnt sh d x sc exp rm pol mask :: _ =>
        let r := tqntTile s core d x sc exp rm pol
        finishOp r.1 core array (d :: x :: sc.toList) sh mask r.2
      | .ttrn sh d x mask :: _ => finishOp (ttrnTile s core d x) core array [d, x] sh mask (.ok wrNone)
      | _ => s
    else s)

/-- A unit asks for a permit (R336): before its burst, and again when less than 4,096 cycles of it are left. Log 52 (DEDUCED). -/
def needsPermit (s : State) (core : Nat) (u : PermitUnit) : Bool :=
  match u with
  | .copy => match (coreAt s core).copyq with
    | r :: _ => copyBurst s core r && decide ((coreAt s core).copyPermit < 4096)
    | [] => false
  | .array k =>
    let a := if k = 0 then (coreAt s core).array0 else (coreAt s core).array1
    decide (a.permit < 4096) && decide (4096 < queueSteps a.queue)

/-- The context of a unit that waits for a permit, where it has none left (R336, R413). -/
def permitWaits (s : State) (core : Nat) (u : PermitUnit) : Option Nat :=
  if !needsPermit s core u then none
  else
    match u with
    | .copy => if (coreAt s core).copyPermit = 0 then (coreAt s core).copyq.head?.map copyCtx else none
    | .array k =>
      let a := if k = 0 then (coreAt s core).array0 else (coreAt s core).array1
      if a.permit = 0 then (a.queue.head?.bind fun o => sheaf? s (opSheaf o)).map fun sf => sf.ctx else none

/-- A die's governor. -/
def dieAt (s : State) (d : Nat) : Die := Tab.get dieReset s.dies d

/-- The state with a die changed. -/
def updDie (s : State) (d : Nat) (f : Die → Die) : State := { s with dies := Tab.put s.dies d (f (dieAt s d)) }

/-- PERMIT_REQUEST (R336): requests are kept in arrival order. -/
def execPermitRequest (core : Nat) (unit : PermitUnit) (s : State) : Result :=
  .next (if core < Config.cores ∧ needsPermit s core unit ∧ !(dieAt s (dieOfCore core)).permits.contains (core, unit) then
      updDie s (dieOfCore core) fun d => { d with permits := d.permits ++ [(core, unit)] }
    else s)

/-- A unit of a core holds a permit for 65,536 cycles of activity (R336). -/
def takePermit (s : State) (core : Nat) (u : PermitUnit) : State :=
  updCore s core fun c => match u with
    | .copy => { c with copyPermit := c.copyPermit + 65536 }
    | .array k =>
      if k = 0 then { c with array0 := { c.array0 with permit := c.array0.permit + 65536 } }
      else { c with array1 := { c.array1 with permit := c.array1.permit + 65536 } }

/-- PERMIT_GRANT (R336, R444): the oldest request is granted, but none at 105 °C or more; power may delay it. -/
def execPermitGrant (die : Nat) (s : State) : Result :=
  .next (match (dieAt s die).permits with
    | [] => s
    | (core, u) :: rest =>
      if (dieAt s die).hot ∨ 1050 ≤ (dieAt s die).temp ∨ !Config.permitFree s.free then bump s
      else takePermit (updDie (bump s) die fun d => { d with permits := rest }) core u)

end Sys2Proof.Machine
end

