-- ==== Sys2Proof/Machine/Slots.lean ====
section
/-! DEFINITION. Host queues and their slots (R407 to R410): the end of a command, and giving a slot to a pending queue. -/

namespace Sys2Proof.Machine

/-- The state with a queue changed. -/
def updQueue (s : State) (q : Nat) (f : QueueSt → QueueSt) : State :=
  match Tab.at? s.host.queues q with
  | some x => { s with host := { s.host with queues := Tab.put s.host.queues q (f x) } }
  | none => s

/-- A command of a queue is in progress (R408). -/
def inProgress (q : QueueSt) : Bool := q.raw.isSome || q.waiting.isSome || q.launch.isSome

/-- Commands a queue's ring still holds (R407). -/
def ringHolds (q : QueueSt) : Bool := decide (q.head ≠ q.tail)

/-- The function is the PF or an enabled VF (R411). -/
def fnEnabled (s : State) (fn : Nat) : Bool := decide (fn = 0) || s.host.vfEn.getLsbD fn

/-- A pending queue that may be mapped (R410, R411). -/
def mappable (s : State) (q : QueueSt) : Bool :=
  q.pending && q.slot.isNone && decide (q.state ≠ 2) && fnEnabled s q.func && decide ((ctxAt s q.ctx).state ≠ .halted) && decide ((ctxAt s q.ctx).state ≠ .lost)

/-- A mapped queue gives its slot to a pending one: its QCB is saved, and it becomes pending where its ring still holds commands (R410). One that may no longer be
mapped gets none (R411). -/
def giveSlot (s : State) (old new : Nat) : State :=
  match Tab.at? s.host.queues old with
  | none => s
  | some x =>
    if !(Tab.at? s.host.queues new).any (mappable s) then updQueue s old fun q => { q with marked := none }
    else
      let s1 := updQueue s old fun q => { q with slot := none, marked := none, pending := ringHolds q, waited := if ringHolds q then s.season else q.waited }
      updQueue s1 new fun q => { q with slot := x.slot, pending := false }

/-- A marked queue at a command boundary gives up its slot (R410). -/
def boundaryQueue (s : State) (q : Nat) : State :=
  match Tab.at? s.host.queues q with
  | some x =>
    match x.marked with
    | some n => if inProgress x then s else giveSlot s q n
    | none => s
  | none => s

/-- The command of a queue is complete (R408). -/
def finishCommand (s : State) (q : Nat) : State :=
  boundaryQueue (updQueue s q fun x => { x with raw := none, waiting := none, launch := none, answered := none, buf := [], state := if x.state = 2 then 2 else 0 }) q

/-- A queue in error (R408): STATE 2, and the host is told with its HEAD. Log 41 (DESIGN CHOICE). -/
def queueError (s : State) (q : Nat) : State :=
  match Tab.at? s.host.queues q with
  | some x =>
    boundaryQueue (postEvent (updQueue s q fun x => { x with state := 2, raw := none, waiting := none, launch := none, answered := none, buf := [] })
      x.func 0x06 q x.head) q
  | none => s

end Sys2Proof.Machine
end

