-- ==== Sys2Proof/Machine/Teams.lean ====
section
/-! DEFINITION. Dispatch of stage sets (R197, R198, R261), work donation (R200, R201), the retirement of teams (R202) and the completion of launches
(R203). -/

namespace Sys2Proof.Machine

/-- The cores of a cluster that may take teams of a context now: granted to it, and held by no runner launch (R197, R206). -/
def dispatchCores (s : State) (ctx cl : Nat) : List Nat := (grantedIn s ctx cl).filter fun k => !runnerHeld s k

/-- A context whose teams may be dispatched. -/
def ctxLive (s : State) (ctx : Nat) : Bool := decide ((ctxAt s ctx).state = .running)

/-- The banks that a range of scratch covers. -/
def rangeBanks (a n : Nat) : List Nat := if n = 0 then [] else (List.range ((a + n - 1) / 65536 - a / 65536 + 1)).map fun i => a / 65536 + i

/-- The CACHE banks that some places need are switched for the cluster unit (R261). -/
def convertFor (s : State) (l : Launch) (spots : List Spot) : State :=
  spots.foldl (fun s sp => (rangeBanks sp.sbase l.scratch).foldl (fun s b =>
    if (bankAt (coreAt s sp.core) b).mode = .cache then (bankSwitch s sp.core b .scratch true).1 else s) s) s

/-- The teams of a stage set become resident, in ascending stage (R175, R198). -/
def makeSet (s : State) (lid : Nat) (l : Launch) (index : Nat) (spots : List Spot) : State :=
  (spots.zip (List.range spots.length)).foldl (fun s x => makeTeam s lid l index x.2 x.1) s

/-- The stage set at the head of a cluster unit's queue dispatched (R198): into SCRATCH banks, or after the switches of R261. -/
def dispatchHead (s : State) (cl : Nat) : State :=
  match (clusterAt s cl).queue with
  | [] => s
  | t :: rest =>
    match Tab.at? s.launches t.launch with
    | none => updCluster s cl fun c => { c with queue := rest }
    | some l =>
      if !ctxLive s l.ctx then s
      else
        let us := (dispatchCores s l.ctx cl).map (useOf s)
        match placeSet l.s (needOf l) (scratchBanks s) us with
        | some spots => makeSet (updCluster s cl fun c => { c with queue := rest }) t.launch l t.index spots
        | none =>
          match placeOver l.s (needOf l) (scratchBanks s) (convertible s) us with
          | some spots => convertFor s l spots
          | none => s

/-- STAGE_SET_DISPATCH (R198). -/
def execStageSetDispatch (cluster : Nat) (s : State) : Result := .next (if cluster < 64 then dispatchHead s cluster else s)

/-- A context with an unfinished launch, outside runner mode, and cores granted in a cluster (R200). -/
def servesIn (s : State) (cl : Nat) (ctx : Nat) : Bool := ctxLive s ctx && !(grantedIn s ctx cl).isEmpty

/-- The launches a cluster unit may take teams of. -/
def unitLaunches (s : State) (cl : Nat) : List (Nat × Launch) :=
  s.launches.filter fun e => e.2.runner.isNone && decide (e.2.left ≠ 0) && servesIn s cl e.2.ctx

/-- The cores of a cluster have room for a team of one of its launches (R200). -/
def unitRoom (s : State) (cl : Nat) : Bool :=
  (unitLaunches s cl).any fun e => (placeTeam (needOf e.2) (fun k => scratchBanks s k ++ convertible s k) ((dispatchCores s e.2.ctx cl).map (useOf s))).isSome

/-- The other units that serve a context of this one, ascending from the one after the last tried (R200). -/
def victims (s : State) (cl : Nat) : List Nat :=
  let l := (List.range 64).filter fun v => decide (v ≠ cl) && (unitLaunches s cl).any fun e => servesIn s v e.2.ctx
  let n := (clusterAt s cl).nextVictim
  (l.filter fun v => n ≤ v) ++ l.filter fun v => v < n

/-- A cluster unit may send a steal request (R200). Log 35 (DESIGN CHOICE). -/
def mayAsk (s : State) (cl : Nat) : Bool :=
  let c := clusterAt s cl
  c.queue.isEmpty && c.asking.isNone && decide (c.quietUntil ≤ s.cycle) && unitRoom s cl && !(victims s cl).isEmpty

/-- STEAL_REQUEST (R200): a packet of one flit from the unit's port (R269). Log 35 (DESIGN CHOICE). -/
def execStealRequest (thief : Nat) (s : State) : Result :=
  .next (if thief < 64 ∧ mayAsk s thief then
      let ctx := ((unitLaunches s thief).head?.map fun e => e.2.ctx).getD 0
      if !mayInject s (Config.cores + thief) ctx then holdPort s (Config.cores + thief) ctx
      else
        let v := (victims s thief).headD 0
        updCluster (inject s (Config.cores + thief) ctx 1) thief fun c => { c with asking := some v, nextVictim := (v + 1) % 64 }
    else s)

/-- The blocks a victim ships (R200, R201): up to four from the tail, of contexts that the thief serves.
Log 35 (DESIGN CHOICE). -/
def shipped (s : State) (thief victim : Nat) : List Tcb :=
  let ok := (clusterAt s victim).queue.filter fun t => match Tab.at? s.launches t.launch with
    | some l => servesIn s thief l.ctx
    | none => false
  ok.drop (ok.length - 4)

/-- STEAL_REPLY (R201): the blocks shipped leave the victim's queue and join the thief's; after a round of empty answers the thief is quiet for a season.
Log 35 (DESIGN CHOICE). -/
def execStealReply (thief : Nat) (s : State) : Result :=
  .next (match (clusterAt s thief).asking with
    | none => s
    | some v =>
      match shipped s thief v with
      | [] => updCluster s thief fun c =>
        let n := c.empties + 1
        if (victims s thief).length ≤ n then { c with asking := none, empties := 0, quietUntil := s.cycle + Config.seasonCycles } else { c with asking := none, empties := n }
      | l =>
        let s1 := updCluster s v fun c => { c with queue := c.queue.filter fun t => !l.contains t }
        updCluster s1 thief fun c => { c with asking := none, empties := 0, queue := c.queue ++ l })

/-- The lanes of a team. -/
def teamLive (s : State) (tid : Nat) : List (Nat × Nat × Thread) :=
  s.sheaves.flatMap fun e => if e.2.team = some tid then e.2.lanes.map fun l => (e.1, l.1, l.2) else []

/-- The feeder of a team's core is stopped by its retirement (R324). Log 59 (DEDUCED). -/
def retireFeeder (s : State) (tid : Nat) (t : Team) : State :=
  if (coreAt s t.core).feeder.team = some tid ∧ feedQuiet s t.core then stopFeeder s t.core else s

/-- Every thread of a team has exited, its tiles are THREAD's, and its operations on the arrays are done (R202). -/
def mayRetire (s : State) (tid : Nat) (t : Team) : Bool :=
  let c := coreAt s t.core
  let mine := fun (o : ArrayOp) => match sheaf? s (opSheaf o) with
    | some sf => decide (sf.team = some tid)
    | none => false
  (teamLive s tid).all (fun x => decide (x.2.2.status ≠ LaneStatus.live)) &&
    (List.range t.tcount).all (fun i => !(tileAt s t.core (t.tbase + i)).engine) && !(c.array0.queue ++ c.array1.queue).any mine && decide (c.feeder.team ≠ some tid)

/-- A team leaves its core: sheaf slots, registers, scratch and tile ranges, accumulator blocks and rendezvous points are free (R202); banks that the
cluster unit switched return to CACHE (R261). Log 59 (DEDUCED). -/
def removeTeam (s : State) (tid : Nat) (t : Team) : State :=
  let s1 := (teamLive s tid).foldl (fun s x => drainOwn s x.1 x.2.1) s
  let s2 := { s1 with sheaves := s1.sheaves.filter (fun e => decide (e.2.team ≠ some tid)), teams := Tab.drop s1.teams tid,
                      launches := match Tab.at? s1.launches t.launch with
                        | some l => Tab.put s1.launches t.launch { l with left := l.left - 1 }
                        | none => s1.launches }
  returnBanks (updCore s2 t.core fun c =>
    { c with acc := c.acc.filter fun b => decide (b.2.team ≠ some tid), accq := c.accq.filter fun r => decide (r.team ≠ tid),
             tiles := c.tiles.filter fun x => decide (x.1 < t.tbase) || decide (t.tbase + t.tcount ≤ x.1) }) t.core t.sbase t.slen

/-- TEAM_RETIRE (R202). -/
def execTeamRetire (team : Nat) (s : State) : Result :=
  .next (match Tab.at? s.teams team with
    | none => s
    | some t =>
      if !(teamLive s team).all (fun x => decide (x.2.2.status ≠ LaneStatus.live)) then s
      else
        let s1 := retireFeeder s team t
        if mayRetire s1 team t then removeTeam s1 team t else s1)

/-- A write of a launch has not performed: stores, acknowledgements, held and host writes, cluster updates, command copies (R203). -/
def launchWrites (s : State) (lid : Nat) : Bool :=
  s.net.stores.any (fun p => decide (p.who.launch = lid)) || s.net.acks.any (fun a => decide (a.who.launch = lid)) ||
    s.net.pcieWrites.any (fun p => decide (p.who.launch = lid)) ||
    s.net.held.any (fun h => match h with
      | .store p => decide (p.who.launch = lid)
      | _ => false) ||
    s.clusters.any (fun (c : Nat × Cluster) => c.2.lines.any fun (l : Nat × CaLine) => (l.2.sent ++ l.2.waiting).any fun (u : Upd) => decide (u.who.launch = lid)) ||
    s.cores.any (fun (c : Nat × CoreSt) => c.2.copyq.any fun r => decide (copyLaunch r = lid))

/-- A launch ends (R203, R207, R249, R408): its signal rises, its handle's slot is free, lanes in LWAIT go on, and its queue's command is complete. Not yet
where the signal's granule is in transit. -/
def endLaunch (s : State) (lid : Nat) (l : Launch) : Option State :=
  (signalAdd s l.ctx l.signal 1 (latestPts s)).map fun s1 =>
    let s0 := { s1 with launches := Tab.drop s1.launches lid }
    let s2 := match l.queue with
      | some q => if (Tab.at? s0.host.queues q).any (fun x => decide (x.launch = some lid)) then finishCommand s0 q else s0
      | none => s0
    let s3 := updCtx s2 l.ctx fun c => { c with slots := c.slots.map fun x => (x.1, if x.2.launch = some lid then { x.2 with launch := none } else x.2) }
    wakeLaunch s3 l.ctx

/-- LAUNCH_COMPLETE (R203). -/
def execLaunchComplete (launch : Nat) (s : State) : Result :=
  .next (match Tab.at? s.launches launch with
    | none => s
    | some l =>
      if l.runner.isNone ∧ l.left = 0 ∧ !launchWrites s launch then (endLaunch s launch l).getD s else s)

end Sys2Proof.Machine
end

