-- ==== Sys2Proof/Machine/Runner.lean ====
section
/-! DEFINITION. Runner mode (R205 to R225): the start and the end of a runner launch, departures, travel packets in flight, in arrival FIFOs and in
overflow rings, the forming of sheaves, cuttings, and the season boundary (R269). -/

namespace Sys2Proof.Machine

/-- The state with the runner side of a launch changed. -/
def updRunner (s : State) (lid : Nat) (f : Runner → Runner) : State :=
  match Tab.at? s.launches lid with
  | some l => { s with launches := Tab.put s.launches lid { l with runner := l.runner.map f } }
  | none => s

/-- The runner side of a launch. -/
def runnerAt (s : State) (lid : Nat) : Option (Launch × Runner) :=
  match Tab.at? s.launches lid with
  | some l => l.runner.map fun r => (l, r)
  | none => none

/-- The key of a segment's arrival FIFO on a core. -/
def fifoKey (seg core : Nat) : Nat := seg * 512 + core

/-- The arrival FIFO of a segment on a core, oldest first. -/
def fifoAt (r : Runner) (seg core : Nat) : List Packet := Tab.get [] r.fifos (fifoKey seg core)

/-- A segment by number; one the map does not have holds nothing. -/
def segAt (r : Runner) (seg : Nat) : Segment :=
  (r.segs[seg]?).getD { codeOff := 0, codeLen := 0, choice := 0, gather := 0, fifob := 0, holders := [], pending := none, draining := [] }

/-- The runner side with a segment changed. -/
def updSeg (r : Runner) (seg : Nat) (f : Segment → Segment) : Runner := { r with segs := r.segs.modify seg f }

/-- A FIFO has room: 128 packets a bank (R217). -/
def fifoRoom (r : Runner) (seg core : Nat) : Bool := decide ((fifoAt r seg core).length < (segAt r seg).fifob * 128)

/-- The banks of an arrival FIFO, in the order of R217: CACHE banks, then banks in FIFO or SCRATCH mode that nothing holds, highest-numbered first. -/
def arrivalBanks (s : State) (k n : Nat) : Option (List Nat) :=
  let c := coreAt s k
  let down := (List.range 48).reverse.filter fun b => (bankAt c b).switching.isNone && !(bankAt c b).reserved
  let l := (down.filter fun b => decide ((bankAt c b).mode = .cache)) ++
    down.filter fun b => decide ((bankAt c b).mode ≠ .cache) && !(decide ((bankAt c b).mode = .scratch) && bankUsed s k b)
  if n ≤ l.length then some (l.take n) else none

/-- A bank in FIFO mode and reserved (R217). -/
def reserveBank (s : State) (k b : Nat) : State :=
  updCore (bankDone (bankSwitch s k b .fifo false).1 k b) k fun c =>
    { c with banks := Tab.put c.banks b { bankAt c b with reserved := true, byUnit := false, byCfg := false } }

/-- A core reserves the arrival FIFO of a segment; none where it has too few banks free. -/
def reserveFifo (s : State) (lid seg core : Nat) : Option State :=
  match runnerAt s lid with
  | none => none
  | some (_, r) =>
    (arrivalBanks s core (segAt r seg).fifob).map fun bs =>
      updRunner (bs.foldl (fun s b => reserveBank s core b) s) lid fun r => { r with banks := Tab.put r.banks (fifoKey seg core) bs }

/-- The banks of an arrival FIFO go back to CACHE mode by a switch (R207). -/
def releaseFifo (s : State) (lid key : Nat) : State :=
  match runnerAt s lid with
  | none => s
  | some (_, r) =>
    let s1 := (Tab.get [] r.banks key).foldl (fun s b =>
      (bankSwitch (updCore s (key % 512) fun c => { c with banks := Tab.put c.banks b { bankAt c b with reserved := false } }) (key % 512) b .cache false).1) s
    updRunner s1 lid fun r => { r with banks := Tab.drop r.banks key }

/-- Every holder of every segment reserves its FIFOs (R217). -/
def reserveAll (s : State) (lid : Nat) (r : Runner) : Option State :=
  ((List.range r.segs.length).flatMap fun i => (segAt r i).holders.map fun k => (i, k)).foldl
    (fun (acc : Option State) x => acc.bind fun s => reserveFifo s lid x.1 x.2) (some s)

/-- The local address of a segment's overflow ring (R221). -/
def ringBase (r : Runner) (seg : Nat) : Nat := localOf (capBase r.ovf) + 512 * (r.rsize + 1) * seg

/-- HEAD and TAIL of a ring (R221). -/
def ringHead (s : State) (r : Runner) (seg : Nat) : Nat := ofBytes (readMem s.mem (ringBase r seg) 4)
def ringTail (s : State) (r : Runner) (seg : Nat) : Nat := ofBytes (readMem s.mem (ringBase r seg + 4) 4)

/-- A ring with nothing in it. -/
def ringEmpty (s : State) (r : Runner) (seg : Nat) : Bool := decide (ringHead s r seg = ringTail s r seg)

/-- The local address of entry `j` of a ring (R221). -/
def ringEntry (r : Runner) (seg j : Nat) : Nat := ringBase r seg + 512 * (1 + j % max 1 r.rsize)

/-- The headers of the rings of a launch initialised (R221). -/
def ringInit (s : State) (r : Runner) : State :=
  (List.range r.segs.length).foldl (fun s i => otherWrite 513 s (ringBase r i) (List.replicate 512 0) false 0) s

/-- The global thread number (R205). -/
def globalNumber (l : Launch) (teamid gangid tid : Nat) : Nat := (teamid * l.g + gangid) * l.w + tid

/-- The holder a packet is sent to (R219). -/
def chooseHolder (r : Runner) (seg n : Nat) : Nat :=
  let g := segAt r seg
  if g.choice = 0 then g.holders.getD (fold9 n % max 1 g.holders.length) 0
  else
    match minPos ((List.range g.holders.length).map fun i => (i, Tab.get 0 r.depths (fifoKey seg (g.holders.getD i 0)))) with
    | some (i, _) => g.holders.getD i 0
    | none => 0

/-- What a thread ships (R215): registers of its live mask, sixteen predicates, eight capabilities, its special registers. -/
def packetOf (lid : Nat) (th : Thread) (tpc : Word) (seg pts holder sender : Nat) : Packet :=
  let live := th.spr.livehi ++ th.spr.livelo
  { launch := lid, tpc := tpc, seg := seg, tid := th.tid, gangid := th.gangid, teamid := th.teamid, pts := pts, live := live,
    pred := BitVec.ofNat 16 ((List.range 16).foldl (fun acc k => acc + (if Tab.get false th.p k then 2 ^ k else 0)) 0),
    spr := { sprStart with frm := th.spr.frm, fexc := th.spr.fexc, wrep := th.spr.wrep, wstat := th.spr.wstat, stklim := th.spr.stklim,
                           livelo := th.spr.livelo, livehi := th.spr.livehi },
    g189 := Tab.get 0 th.g 189, g190 := Tab.get 0 th.g 190, g191 := Tab.get 0 th.g 191,
    c := th.c.filter fun x => decide (x.1 < 8), g := th.g.filter fun x => decide (x.1 < 64) && live.getLsbD x.1,
    holder := holder, sender := sender, old := false, stamp := 0 }

/-- The first packets of a launch, in ascending thread number (R217). -/
def firstPackets (s : State) (lid : Nat) (l : Launch) (r : Runner) : List Packet :=
  (List.range (l.n * l.g * l.w)).map fun n =>
    let th := launchThread s l 0 (n / l.w / l.g) (n / l.w % l.g) (n % l.w) 0
    let seg := (segmentOf r (BitVec.ofNat 32 l.entry)).getD 0
    packetOf lid th (BitVec.ofNat 32 l.entry) seg 0 (chooseHolder r seg n) (2 ^ 20)

/-- RUNNER_START (R206, R210, R217, R221): once no team of another launch is on the runner cores, the holders reserve their FIFOs, the ring headers are
initialised and the first packets are sent. -/
def execRunnerStart (launch : Nat) (s : State) : Result :=
  .next (match runnerAt s launch with
    | none => s
    | some (l, r) =>
      if r.started ∨ !ctxLive s l.ctx ∨ s.teams.any (fun t => (runnerCores r).contains t.2.core) then s
      else
        match reserveAll s launch r with
        | none => s
        | some s1 =>
          let s2 := ringInit (updRunner s1 launch fun r => { r with started := true }) r
          updNet s2 fun n => { n with packets := n.packets ++ firstPackets s2 launch l r })

/-- RUNNER_COMPLETE (R207): T exits have been counted and every write has performed. Log 59 (DEDUCED). -/
def execRunnerComplete (launch : Nat) (s : State) : Result :=
  .next (match runnerAt s launch with
    | none => s
    | some (l, r) =>
      if !r.started ∨ r.exits < r.threads ∨ launchWrites s launch then s
      else
        let s1 := (r.banks.map (·.1)).foldl (fun s key => releaseFifo s launch key) s
        let s2 := updNet { s1 with sheaves := s1.sheaves.filter fun e => decide (e.2.launch ≠ launch) } fun n =>
          { n with packets := n.packets.filter fun p => decide (p.launch ≠ launch) }
        (endLaunch s2 launch l).getD s)

/-- The stack-cache copies of a lane's stack are dropped (R213). -/
def dropStack (s : State) (sh : Nat) (l : Launch) (n : Nat) : State :=
  let c := stackOf l n
  if !c.tag then s
  else
    let lo := lineOf (localOf (capBase c))
    let hi := lineOf (localOf (capBase c) + capLen c - 1)
    updQuad s (quadOf sh) fun q => { q with stack := q.stack.filter fun e => decide (e.1 < lo) || decide (hi < e.1) }

/-- The packet is sent, and the lane is departed (R213, R214). -/
def depart (s : State) (sh ln : Nat) (lid : Nat) (l : Launch) (r : Runner) (th : Thread) (target : Word) : State :=
  let seg := (segmentOf r target).getD 0
  let n := globalNumber l th.teamid th.gangid th.tid
  let k := coreOf sh
  let p := packetOf lid th target seg (coreAt s k).pts (chooseHolder r seg n) k
  let s1 := updNet (dropStack s sh l n) fun x => { x with packets := x.packets ++ [p] }
  let s2 := updThread s1 sh ln fun th => { th with status := .departed, hold := none }
  freeSlot (leaveLane s2 sh ln) sh

/-- TRAVEL_DEPART (R213, R269, R299, R390): entries of a run that was left are freed; an asynchronous fault is delivered first, but not while the context is being
stopped (R395); struck entries send the lane to its repair target; then its accesses are done, its stores acknowledged, and it departs.
Log 64 (DESIGN CHOICE). -/
def execTravelDepart (sh ln : Nat) (s : State) : Result :=
  .next (match sheaf? s sh, thread? s sh ln with
    | some sf, some th =>
      match th.hold, runnerAt s sf.launch with
      | some (.travel target source), some (l, r) =>
        if (nextAsync th).isSome then
          (if (ctxAt s sf.ctx).state = .running then deliverAsync (updThread s sh ln fun th => { th with pc := target, hold := none }) sh ln else s)
        else
          match resolveWatch (watchFreeRun s sh ln) sh ln with
          | (s1, .pending) => s1
          | (s1, .struck) => finishWord (updThread s1 sh ln fun th => { th with pc := source, hold := none }) [((sh, ln), .repair)]
          | (s1, .clear) =>
            let x := fenceReady s1 sh ln false
            match x.2, thread? x.1 sh ln with
            | true, some th1 =>
              if !th1.losses.isEmpty then x.1
              else if !mayInject x.1 (coreOf sh) sf.ctx then holdPort x.1 (coreOf sh) sf.ctx
              else depart (inject x.1 (coreOf sh) sf.ctx (flits 512)) sh ln sf.launch l r th1 target
            | _, _ => x.1
      | _, _ => s
    | _, _ => s)

/-- A word's four bytes. -/
def regBytes (w : Word) : List Byte := toBytes 4 w.toNat

/-- The tags of a packet's capabilities (R215). Log 36 (DEDUCED). -/
def packetTags (p : Packet) : Nat := (List.range 8).foldl (fun acc k => acc + (if (Tab.get nullCap p.c k).tag then 2 ^ k else 0)) 0

/-- A packet in its 512 bytes (R215). Log 36 (DEDUCED). -/
def packetBytes (p : Packet) : List Byte :=
  regBytes p.tpc ++ toBytes 1 p.seg ++ toBytes 1 p.tid ++ toBytes 2 p.gangid ++ toBytes 8 p.teamid ++ toBytes 8 p.pts ++ toBytes 8 p.live.toNat ++
  toBytes 2 p.pred.toNat ++ toBytes 2 (packetTags p) ++
  (regBytes p.spr.frm ++ regBytes p.spr.fexc ++ regBytes p.spr.wrep ++ regBytes p.spr.stklim ++ regBytes p.spr.wstat) ++
  (regBytes p.g189 ++ regBytes p.g190 ++ regBytes p.g191) ++ toBytes 12 0 ++
  ((List.range 8).flatMap fun k => toBytes 16 (Tab.get nullCap p.c k).bits.toNat) ++
  ((List.range 64).flatMap fun k => regBytes (Tab.get 0 p.g k)) ++ toBytes 48 0

/-- A word of a packet's bytes. -/
def fieldWord (b : List Byte) (off : Nat) : Word := BitVec.ofNat 32 (field b off 4)

/-- A packet read from 512 bytes and the tags of its capabilities' granules (R215, R221): it is in the segment of its ring.
Log 36 (DEDUCED). -/
def packetRead (lid seg core : Nat) (b : List Byte) (tags : List Bool) : Packet :=
  let live := BitVec.ofNat 64 (field b 24 8)
  { launch := lid, tpc := fieldWord b 0, seg := seg, tid := field b 5 1, gangid := field b 6 1, teamid := field b 8 4, pts := field b 16 8, live := live,
    pred := BitVec.ofNat 16 (field b 32 2),
    spr := { sprStart with frm := fieldWord b 36, fexc := fieldWord b 40, wrep := fieldWord b 44, stklim := fieldWord b 48, wstat := fieldWord b 52,
                           livelo := live.setWidth 32, livehi := live.extractLsb' 32 32 },
    g189 := fieldWord b 56, g190 := fieldWord b 60, g191 := fieldWord b 64,
    c := (List.range 8).foldl (fun t k => Tab.set nullCap t k { bits := BitVec.ofNat 128 (field b (80 + 16 * k) 16), tag := tags.getD k false }) [],
    g := (List.range 64).foldl (fun t k => if live.getLsbD k then Tab.set 0 t k (fieldWord b (208 + 4 * k)) else t) [],
    holder := core, sender := 2 ^ 20, old := false, stamp := 0 }

/-- A packet written at TAIL of its ring, and TAIL advanced (R222). Log 36 (DEDUCED). -/
def ringPut (s : State) (r : Runner) (p : Packet) : State :=
  let t := ringTail s r p.seg
  let a := ringEntry r p.seg t
  let s1 := otherWrite 513 s a (packetBytes p) false 0
  let s2 := { s1 with tags := (List.range 8).foldl (fun x k => Tab.set false x (a / 16 + 5 + k) (Tab.get nullCap p.c k).tag) s1.tags }
  otherWrite 5 s2 (ringBase r p.seg + 4) (toBytes 4 (t + 1)) false 0

/-- A packet at the end of an arrival FIFO, with the stamp of its arrival. -/
def fifoPut (s : State) (lid : Nat) (p : Packet) : State :=
  updRunner (stamp s) lid fun r => { r with fifos := Tab.put r.fifos (fifoKey p.seg p.holder) (fifoAt r p.seg p.holder ++ [{ p with stamp := s.nextId }]) }

/-- PACKET_RELAY (R222, R268): to the holder's FIFO, or to the ring of its segment; packets of one port to one holder arrive in order. -/
def execPacketRelay (i : Nat) (s : State) : Result :=
  .next (match s.net.packets[i]? with
    | none => s
    | some p =>
      if (s.net.packets.take i).any fun q => decide (q.sender = p.sender) && decide (q.holder = p.holder) then s
      else
        let s1 := updNet s fun n => { n with packets := n.packets.eraseIdx i }
        match runnerAt s1 p.launch with
        | none => s1
        | some (_, r) =>
          if fifoRoom r p.seg p.holder ∧ ringEmpty s1 r p.seg then fifoPut s1 p.launch p
          else ringPut s1 r p)

/-- RING_TO_FIFO (R222): a holder with room takes the entry at HEAD. -/
def execRingToFifo (launch seg core : Nat) (s : State) : Result :=
  .next (match runnerAt s launch with
    | none => s
    | some (l, r) =>
      if !r.started ∨ !ctxLive s l.ctx ∨ !(segAt r seg).holders.contains core ∨ !fifoRoom r seg core ∨ ringEmpty s r seg then s
      else
        let h := ringHead s r seg
        let a := ringEntry r seg h
        let p := packetRead launch seg core (readMem s.mem a 512) ((List.range 8).map fun k => Tab.get false s.tags (a / 16 + 5 + k))
        otherWrite 5 (fifoPut s launch p) (ringBase r seg) (toBytes 4 (h + 1)) false 0)

/-- The thread a packet makes (R216, R224, R334). -/
def arrivingThread (s : State) (l : Launch) (p : Packet) (lane : Nat) : Thread :=
  { threadStart with
    g := Tab.set 0 (Tab.set 0 (Tab.set 0 p.g 189 p.g189) 190 p.g190) 191 p.g191,
    p := (List.range 16).foldl (fun t k => Tab.set false t k (p.pred.getLsbD k)) [],
    c := p.c.map fun x => (x.1, rakeFilter s x.2),
    code := capOpen l.code, pc := p.tpc, spr := p.spr, lane := lane % l.w, tid := p.tid, gangid := p.gangid, teamid := p.teamid, stage := 0, seg := p.seg }

/-- The forming sheaf a packet joins on a core, if one has a free lane (R218). -/
def formingFor (s : State) (core : Nat) (p : Packet) : Option Nat :=
  (s.sheaves.find? fun e => decide (coreOf e.1 = core) && decide (e.2.launch = p.launch) && decide (e.2.lanes.length < 32) &&
    (match e.2.forming with
    | some f => decide (f.seg = p.seg) && decide (f.tpc = p.tpc)
    | none => false)).map (·.1)

/-- The slot a new forming sheaf takes on a core: the quadrant of R199 within the limits of R198. -/
def formingSlot (s : State) (core : Nat) (l : Launch) : Option Nat :=
  let u := useOf s core
  match placeUnit u.quads (firstQuad u) 0 1 l.regs with
  | some (q, _) => slotFor s core q
  | none => none

/-- A packet placed in the lowest free lane of a sheaf; the core's logical time reaches its PTS (R214, R218), and that of the launch, which its first packets do not
carry (R204, R217, R289). -/
def placeIn (s : State) (l : Launch) (core sh : Nat) (p : Packet) : State :=
  updCore (updSheaf s sh fun sf =>
    { sf with lanes := Tab.put sf.lanes sf.lanes.length (arrivingThread s l p sf.lanes.length),
              forming := sf.forming.map fun f => { f with stamps := f.stamps ++ [p.stamp] } }) core
    fun c => { c with pts := max c.pts (max p.pts l.pts) }

/-- A packet placed on its holder, in a forming sheaf or in a new one; none where it has to stay. -/
def placePacket (s : State) (lid : Nat) (l : Launch) (core : Nat) (p : Packet) : Option State :=
  match formingFor s core p, formingSlot s core l with
  | some sh, _ => some (placeIn s l core sh p)
  | none, some sh =>
    let sf := { launchSheaf l lid none 0 none [] with forming := some { seg := p.seg, tpc := p.tpc, start := s.cycle, stamps := [] } }
    some (placeIn (setSheaf s sh sf) l core sh p)
  | none, none => none

/-- PACKET_PLACE (R218): the oldest packet of the FIFO that can be placed. -/
def execPacketPlace (launch seg core : Nat) (s : State) : Result :=
  .next (match runnerAt s launch with
    | none => s
    | some (l, r) =>
      if !ctxLive s l.ctx then s
      else
        let q := fifoAt r seg core
        match ((List.range q.length).zip q).findSome? fun x => (placePacket s launch l core x.2).map fun t => (x.1, t) with
        | some (i, t) => updRunner t launch fun r => { r with fifos := Tab.put r.fifos (fifoKey seg core) (q.eraseIdx i) }
        | none => s)

/-- The gather window of a segment (R208). -/
def gatherWindow (g : Segment) : Nat := if g.gather = 0 then 64 else g.gather

/-- SHEAF_RELEASE (R218): 32 lanes, or the window has passed. A thread whose TPC lies outside its entry's segment faults at its first run (R221).
Log 37 (DEDUCED). -/
def execSheafRelease (sh : Nat) (s : State) : Result :=
  .next (match sheaf? s sh with
    | none => s
    | some sf =>
      match sf.forming, runnerAt s sf.launch with
      | some f, some (l, r) =>
        if !ctxLive s l.ctx ∨ !(decide (32 ≤ sf.lanes.length) || decide (f.start + gatherWindow (segAt r f.seg) ≤ s.cycle)) then s
        else
          let s1 := updSheaf s sh fun x => { x with forming := none, wait := 0 }
          if segmentOf r f.tpc = some f.seg then s1
          else parkLanes s1 sh (sf.lanes.map fun x => (x.1, mkFault causeRunner 0x41 f.tpc.toNat))
      | _, _ => s)

/-- DEPTH_BROADCAST (R219): the depths of a holder's arrival FIFOs reach the senders. -/
def execDepthBroadcast (core : Nat) (s : State) : Result :=
  .next { s with launches := s.launches.map fun e => (e.1, { e.2 with runner := e.2.runner.map fun r =>
    { r with depths := (List.range r.segs.length).foldl (fun t i =>
        if (segAt r i).holders.contains core then Tab.set 0 t (fifoKey i core) (fifoAt r i core).length else t) r.depths } }) }

/-- The segments a core holds, a change that is pending and one that is draining included. -/
def heldSegs (r : Runner) (core : Nat) : List Segment := r.segs.filter fun g => (g.holders ++ g.pending.getD [] ++ g.draining).contains core

/-- A core of a launch has room for one more segment (R210, R220). -/
def cuttingFits (r : Runner) (seg core : Nat) : Bool :=
  decide (((heldSegs r core).map (·.codeLen)).sum + (segAt r seg).codeLen ≤ 131072) && decide (((heldSegs r core).map (·.fifob)).sum + (segAt r seg).fifob ≤ 48)

/-- The holders of a segment from the next season boundary on. -/
def nextHolders (g : Segment) : List Nat := g.pending.getD g.holders

/-- CUTTING_ADD (R220): a runner core of the launch pins the segment and reserves its FIFO; it is a holder from the next season boundary on.
Log 37 (DEDUCED). -/
def execCuttingAdd (launch seg core : Nat) (s : State) : Result :=
  .next (match runnerAt s launch with
    | none => s
    | some (_, r) =>
      let g := segAt r seg
      if !r.started ∨ r.segs.length ≤ seg ∨ !(runnerCores r).contains core ∨ (g.holders ++ nextHolders g ++ g.draining).contains core ∨ 8 ≤ (nextHolders g).length ∨
        !cuttingFits r seg core then s
      else
        match reserveFifo s launch seg core with
        | none => s
        | some s1 => updRunner s1 launch fun r => updSeg r seg fun g => { g with pending := some (nextHolders g ++ [core]) })

/-- CUTTING_REMOVE (R220): a holder slot of a segment, never slot 0, from the next season boundary on; a core added in the same season has only its FIFO to
give back. Log 37 (DEDUCED). -/
def execCuttingRemove (launch seg slot : Nat) (s : State) : Result :=
  .next (match runnerAt s launch with
    | none => s
    | some (_, r) =>
      let g := segAt r seg
      match (nextHolders g)[slot]? with
      | none => s
      | some k =>
        if !r.started ∨ slot = 0 then s
        else updRunner s launch fun r => updSeg r seg fun g =>
          { g with pending := some ((nextHolders g).eraseIdx slot), draining := if g.holders.contains k then g.draining else g.draining ++ [k] })

/-- A removed holder is done: its FIFO is empty, no packet is on its way to it, and no sheaf on it holds a lane of the segment (R220).
Log 37 (DEDUCED). -/
def drained (s : State) (lid : Nat) (r : Runner) (seg core : Nat) : Bool :=
  (fifoAt r seg core).isEmpty && !(s.net.packets.any fun p => decide (p.launch = lid) && decide (p.seg = seg) && decide (p.holder = core)) &&
    !(s.sheaves.any fun e => decide (coreOf e.1 = core) && decide (e.2.launch = lid) && e.2.lanes.any fun x => decide (x.2.status = LaneStatus.live) && decide (x.2.seg = seg))

/-- The changes of a launch's holders at a season boundary, and the FIFOs of drained cores released (R220).
Log 37 (DEDUCED). -/
def turnHolders (s : State) (lid : Nat) : State :=
  let s1 := updRunner s lid fun r => { r with segs := r.segs.map fun g => match g.pending with
    | some h => { g with holders := h, pending := none, draining := (g.draining ++ g.holders).filter fun k => !h.contains k }
    | none => g }
  match runnerAt s1 lid with
  | none => s1
  | some (_, r) =>
    (List.range r.segs.length).foldl (fun s i =>
      (segAt r i).draining.foldl (fun s k =>
        if drained s lid r i k then updRunner (releaseFifo s lid (fifoKey i k)) lid fun r => updSeg r i fun g => { g with draining := g.draining.filter (· ≠ k) }
        else s) s) s1

/-- The quotas of a context at a season boundary (R269): each port starts with the quota plus what it has sent beyond it. -/
def renewQuota (c : Ctx) : Ctx :=
  { c with spent := (c.spent.map fun x => (x.1, x.2 - c.quota)).filter fun x => decide (x.2 ≠ 0), heldPorts := [] }

/-- SEASON_BOUNDARY (R220, R269, R413): the season's number rises, the changes of cuttings take effect, the ports that held requests are counted and the quotas
begin afresh. -/
def execSeasonBoundary (s : State) : Result :=
  .next (s.ctxs.foldl (fun s c => updCtx (countEvent s c.1 7 c.2.heldPorts.length) c.1 renewQuota)
    (s.launches.foldl (fun s e => turnHolders s e.1) { s with season := s.season + 1 }))

end Sys2Proof.Machine
end

