-- ==== Sys2Proof/Machine/Tenancy.lean ====
section
/-! DEFINITION. Handler entry (R382, R384), stopping, saving and restoring a context (R225, R343, R392 to R398), and the
quantum table's change of entry (R404 to R406). -/

namespace Sys2Proof.Machine

/-- The earlier accesses of the lanes of a sub-sheaf are done (R382). Log 56 (DEDUCED). -/
def settledLanes (s : State) (sh : Nat) (m : Word) : State × Bool :=
  let s1 := (maskLanes sh m).foldl (fun s x => drainOwn s x.1 x.2) s
  (s1, (maskLanes sh m).all fun x => !awaiting s1 x.1 x.2 && !clusterPending s1 x.1 x.2)

/-- HANDLER_ENTRY (R382, R384). Log 56 (DEDUCED). -/
def execHandlerEntry (sh sub : Nat) (s : State) : Result :=
  .next (match sheaf? s sh with
    | none => s
    | some sf =>
      match Tab.at? sf.subs sub with
      | none => s
      | some b =>
        if b.inHandler ∨ (ctxAt s sf.ctx).state ≠ .running then s
        else
          let r := settledLanes s sh b.mask
          if r.2 then enterHandler r.1 sh sub fun c i => some (entryCount r.1 c, entryOffset r.1 c i) else r.1)

/-- STOP_REQUEST (R392, R395): of a running context; a stopping one takes no further effect. Log 5 (DEDUCED). -/
def execStopRequest (ctx : Nat) (why : StopReason) (s : State) : Result :=
  .next (if (ctxAt s ctx).state = .running then updCtx s ctx fun c => { c with state := .stopping, why := some why, acks := [] } else s)

/-- The resident sheaves of a context. -/
def ctxSheaves (s : State) (k : Nat) : Tab Sheaf := s.sheaves.filter fun e => decide (e.2.ctx = k)

/-- The resident teams of a context. -/
def ctxTeams (s : State) (k : Nat) : Tab Team := s.teams.filter fun e => decide (e.2.ctx = k)

/-- A wait that is saved in place, or none (R343, R394). -/
def holdSaved (h : Option Hold) : Bool :=
  match h with
  | none => true
  | some .stall => true
  | some (.join _) => true
  | some (.rdv _ _) => true
  | some (.sigwait _ _ _) => true
  | some (.sleep _) => true
  | some (.yielded _) => true
  | some (.lwait _) => true
  | some .acc => true
  | some (.mr _ _ _) => true
  | _ => false

/-- The loads of SIGWAITs of a context on a die are given up at a stop: each wait makes a fresh first load once it is restored (R241, R398).
Log 39 (DEDUCED). -/
def dropSignals (s : State) (l : Tab Sheaf) : State := l.foldl (fun s e => e.2.lanes.foldl (fun s x => dropSig s e.1 x.1) s) s

/-- A lane's wait that is saved: of a word that has begun, a lane that has its result keeps it (R343). -/
def waitSaved (th : Thread) : Bool := holdSaved th.hold && (th.word.isNone || th.hold.isSome) || (th.word.isSome && (partResult th.hold).isSome)

/-- A lane has reached what R394 asks of it: its accesses have returned, and it stands at a run boundary or in a wait that is saved.
Log 39 (DEDUCED). -/
def laneStopped (s : State) (sh ln : Nat) (th : Thread) : Bool :=
  !awaiting s sh ln && !clusterPending s sh ln &&
    (decide (th.status ≠ LaneStatus.live) || (th.run.isNone && waitSaved th && decide (watchPending s sh ln = 0)))

/-- The words that lanes of a sheaf have begun and that wait are split: the lanes that have their results keep them, the others issue the word again after the
restore (R343). Log 39 (DEDUCED). -/
def splitWords (s : State) (sh : Nat) : State :=
  match sheaf? s sh with
  | none => s
  | some sf => ((sf.lanes.filterMap fun l => l.2.word).eraseDups).foldl (fun s id => match sheaf? s sh with
      | some sf => finishParts s sh (wordLanes sf id)
      | none => s) s

/-- Requests of ACCALLOC are withdrawn at a stop (R343, R395). Log 39 (DEDUCED). -/
def withdrawAcc (s : State) (l : Tab Sheaf) : State :=
  { s with cores := s.cores.map fun c => (c.1, { c.2 with accq := c.2.accq.filter fun r => (Tab.at? l r.sh).isNone }) }

/-- A feeder that serves a context stands at a LOOP or branch word, or at a word that waits (R325, R343, R393).
Log 31 (DEDUCED). -/
def feederStopped (s : State) (ctx k : Nat) : Bool :=
  let f := (coreAt s k).feeder
  f.team.isNone || decide (f.ctx ≠ ctx) || decide ((coreAt (feedStep s k) k).feeder.pc = f.pc)

/-- The packets of a segment that wait in arrival FIFOs and forming sheaves go to its ring, the oldest first (R225). -/
def spillSeg (s : State) (lid : Nat) (r : Runner) (seg : Nat) : State :=
  let forms := s.sheaves.filter fun e => decide (e.2.launch = lid) && (e.2.forming.any fun f => decide (f.seg = seg))
  let formed := forms.flatMap fun e => (e.2.lanes.zip ((e.2.forming.map (·.stamps)).getD [])).map fun x =>
    { packetOf lid x.1.2 x.1.2.pc seg (coreAt s (coreOf e.1)).pts (coreOf e.1) (coreOf e.1) with stamp := x.2 }
  let waiting := (r.fifos.filter fun f => decide (f.1 / 512 = seg)).flatMap (·.2)
  let s1 := (sortBy (·.stamp) (formed ++ waiting)).foldl (fun s p => ringPut s r p) s
  let s2 := { s1 with sheaves := s1.sheaves.filter fun e => (Tab.at? forms e.1).isNone }
  updRunner s2 lid fun r => { r with fifos := r.fifos.filter fun f => decide (f.1 / 512 ≠ seg) }

/-- The spill of a context's runner launches (R225). -/
def spillRunners (s : State) (ctx : Nat) : State :=
  s.launches.foldl (fun s e => match e.2.runner with
    | some r => if e.2.ctx = ctx then (List.range r.segs.length).foldl (fun s i => spillSeg s e.1 r i) s else s
    | none => s) s

/-- A packet of a context is in flight. -/
def packetsOut (s : State) (ctx : Nat) : Bool :=
  s.net.packets.any fun p => match Tab.at? s.launches p.launch with
    | some l => decide (l.ctx = ctx)
    | none => false

/-- The sheaves of a context on a die. -/
def dieSheaves (s : State) (ctx die : Nat) : Tab Sheaf := (ctxSheaves s ctx).filter fun e => decide (dieOfCore (coreOf e.1) = die)

/-- The units of a die that hold state of a context stand where R393 and R394 stop them, and no multicast-reduce of it is in flight (R339). -/
def unitsStopped (s : State) (ctx die : Nat) : Bool :=
  ((dieSheaves s ctx die).all fun e => e.2.lanes.all fun x => laneStopped s e.1 x.1 x.2) &&
    (s.cores.all fun x => decide (dieOfCore x.1 ≠ die) || feederStopped s ctx x.1) && !packetsOut s ctx && !sumsInFlight s ctx

/-- UNIT_ACK (R392 to R394): every unit of a die that holds state of the context has stopped. Log 39 (DEDUCED). -/
def execUnitAck (ctx die : Nat) (s : State) : Result :=
  .next (
    let c := ctxAt s ctx
    if c.state ≠ .stopping ∨ 8 ≤ die ∨ c.acks.contains die then s
    else
      let mine := dieSheaves s ctx die
      let s1 := mine.foldl (fun s e => e.2.lanes.foldl (fun s x => drainOwn s e.1 x.1) s) (dropSignals s mine)
      if unitsStopped s1 ctx die then
        updCtx (spillRunners (withdrawAcc (mine.foldl (fun s e => splitWords s e.1) s1) mine) ctx) ctx fun c => { c with acks := die :: c.acks }
      else s1)

/-- CONTEXT_STOPPED (R339, R392): the package master holds all eight acknowledgements. -/
def execContextStopped (ctx : Nat) (s : State) : Result :=
  .next (
    let c := ctxAt s ctx
    if c.state = .stopping ∧ (List.range 8).all (fun d => c.acks.contains d) ∧ !packetsOut s ctx ∧ !sumsInFlight s ctx then
      updCtx (spillRunners s ctx) ctx fun c => { c with state := .stopped }
    else s)

/-- A wait as it is saved: a word that only waits is issued again (R343, R398); SLEEP, YIELD, JOIN, a rendezvous wait, LWAIT and MRWAIT keep what they wait
for (R151, R190, R192, R236, R249, R361). Log 39 (DEDUCED). -/
def savedHold (h : Option Hold) : Option Hold :=
  match h with
  | some (.sleep n) => some (.sleep n)
  | some (.yielded n) => some (.yielded n)
  | some (.rdv a b) => some (.rdv a b)
  | some (.mr a b c) => some (.mr a b c)
  | some (.join n) => some (.join n)
  | some (.lwait n) => some (.lwait n)
  | _ => none

/-- A sheaf as it is saved (R394, R396). Log 39 (DEDUCED). -/
def savedSheaf (sf : Sheaf) : Sheaf := { sf with lanes := sf.lanes.map fun x => (x.1, { x.2 with hold := savedHold x.2.hold, word := none, buf := [] }) }

/-- Bytes of a range of a memory, and the tags of its granules. -/
def scratchPart (c : CoreSt) (a n : Nat) : Memory × Tab Bool :=
  (c.scratch.filter fun e => decide (a ≤ e.1) && decide (e.1 < a + n), c.stags.filter fun e => decide (a ≤ e.1 * 16) && decide (e.1 * 16 < a + n))

/-- The operations of an array that a context issued, and the steps its head has done where it is one of them (R328, R393). -/
def arrayPart (s : State) (k : Nat) (a : ArraySt) : ArraySt :=
  let mine := fun (o : ArrayOp) => match sheaf? s (opSheaf o) with
    | some sf => decide (sf.ctx = k)
    | none => false
  { queue := a.queue.filter mine, steps := (match a.queue with
      | o :: _ => if mine o then a.steps else 0
      | [] => 0), permit := 0 }

/-- What is left of an array without a context's operations. -/
def arrayRest (s : State) (k : Nat) (a : ArraySt) : ArraySt :=
  let mine := fun (o : ArrayOp) => match sheaf? s (opSheaf o) with
    | some sf => decide (sf.ctx = k)
    | none => false
  let rest := a.queue.filter fun o => !mine o
  { queue := rest, steps := (match a.queue with
      | o :: _ => if mine o then 0 else a.steps
      | [] => 0), permit := if rest.isEmpty then 0 else a.permit }

/-- The teams of a context that hold an accumulator block. -/
def accMine (teams : Tab Team) (b : AccBlock) : Bool :=
  match b.team with
  | some t => (Tab.at? teams t).isSome
  | none => false

/-- A unit's unstarted blocks of a context. -/
def tcbMine (s : State) (k : Nat) (t : Tcb) : Bool :=
  match Tab.at? s.launches t.launch with
  | some l => decide (l.ctx = k)
  | none => false

/-- What the save area receives (R396). Log 39 (DEDUCED). -/
def saveImage (s : State) (k : Nat) : SaveImage :=
  let ts := ctxTeams s k
  let shs := ctxSheaves s k
  { cores := grantsOf s k,
    sheaves := shs.map fun e => (e.1, savedSheaf e.2),
    teams := ts,
    watches := s.cores.flatMap fun c => (c.2.watch.filter fun w => (Tab.at? shs w.sh).isSome).map fun w => (c.1, w),
    scratch := ts.map fun t => (t.1, scratchPart (coreAt s t.2.core) t.2.sbase t.2.slen),
    tiles := ts.map fun t => (t.1, (coreAt s t.2.core).tiles.filter fun x => decide (t.2.tbase ≤ x.1) && decide (x.1 < t.2.tbase + t.2.tcount)),
    acc := s.cores.map fun c => (c.1, c.2.acc.filter fun b => accMine ts b.2),
    copies := s.cores.map fun c => (c.1, c.2.copyq.filter fun r => decide (copyCtx r = k)),
    arrays := s.cores.map fun c => (c.1, arrayPart s k c.2.array0, arrayPart s k c.2.array1),
    feeders := (s.cores.filter fun c => c.2.feeder.team.isSome && decide (c.2.feeder.ctx = k)).map fun c => (c.1, c.2.feeder),
    tcbs := s.clusters.map fun u => (u.1, u.2.queue.filter (tcbMine s k)) }

/-- A core without what a context holds on it. -/
def clearCore (s : State) (k : Nat) (c : CoreSt) : CoreSt :=
  let ts := ctxTeams s k
  let shs := ctxSheaves s k
  let fed := c.feeder.team.isSome && decide (c.feeder.ctx = k)
  { c with
    watch := c.watch.filter fun w => (Tab.at? shs w.sh).isNone,
    tiles := c.tiles.filter fun x => (Tab.at? ts x.2.team).isNone,
    acc := c.acc.filter fun b => !accMine ts b.2,
    accq := c.accq.filter fun r => (Tab.at? ts r.team).isNone,
    copyq := c.copyq.filter fun r => decide (copyCtx r ≠ k),
    copyPermit := (match c.copyq with
      | r :: _ => if copyCtx r = k then 0 else c.copyPermit
      | [] => 0),
    array0 := arrayRest s k c.array0, array1 := arrayRest s k c.array1,
    feeder := if fed then feederReset else c.feeder,
    banks := if fed then Tab.put c.banks c.feeder.bank { bankAt c c.feeder.bank with reserved := false } else c.banks }

/-- A context leaves its cores (R396): nothing of it stays resident; banks it used for a feeder, a FIFO or a team's scratch return to CACHE mode. -/
def leaveCores (s : State) (k : Nat) : State :=
  let fed := (s.cores.filter fun c => c.2.feeder.team.isSome && decide (c.2.feeder.ctx = k)).map fun c => (c.1, c.2.feeder.bank)
  let keys := s.launches.flatMap fun e => match e.2.runner with
    | some r => if e.2.ctx = k then r.banks.map fun b => (e.1, b.1) else []
    | none => []
  let s1 := { s with cores := s.cores.map fun (c : Nat × CoreSt) => (c.1, clearCore s k c.2),
                     clusters := s.clusters.map fun (u : Nat × Cluster) => (u.1, { u.2 with queue := u.2.queue.filter fun t => !tcbMine s k t }) }
  let s2 := { s1 with sheaves := s1.sheaves.filter fun e => decide (e.2.ctx ≠ k), teams := s1.teams.filter fun t => decide (t.2.ctx ≠ k) }
  let s3 := fed.foldl (fun s x => (bankSwitch s x.1 x.2 .cache true).1) s2
  let s4 := keys.foldl (fun s x => releaseFifo s x.1 x.2) s3
  let s5 := (ctxTeams s k).foldl (fun s t => returnBanks s t.2.core t.2.sbase t.2.slen) s4
  { s5 with host := { s5.host with grants := Tab.drop s5.host.grants k } }

/-- The event of a halted context (R414, R415). Log 54 (DEDUCED). -/
def haltEvent (s : State) (k : Nat) : State :=
  let c := ctxAt s k
  postEvent s c.func 0x02 (k + c.haltrec.reason.toNat * 256 + c.haltrec.cause.toNat * 65536) (c.haltrec.finfo.toNat + c.haltrec.fpc.toNat * 2 ^ 32)

/-- A context is lost (R392, R404): it is never restored, and the host is told why. -/
def loseContext (s : State) (k reason : Nat) : State :=
  let s1 := updCtx s k fun c => { c with state := .lost, image := none, why := none, haltrec := { haltNone with reason := BitVec.ofNat 8 reason } }
  postEvent s1 (ctxAt s1 k).func 0x03 (k + reason * 256) 0

/-- SAVE (R392, R396, R404): a stopped context begins to save; once every item is written it is SAVED, or HALTED where a halt stopped it (R388).
Log 54 (DEDUCED). -/
def execSave (ctx : Nat) (s : State) : Result :=
  .next (match (ctxAt s ctx).state with
    | .stopped => updCtx (leaveCores s ctx) ctx fun c => { c with state := .saving, image := some (saveImage s ctx) }
    | .saving =>
      if (ctxAt s ctx).why = some .halt then haltEvent (updCtx s ctx fun c => { c with state := .halted, why := none, acks := [] }) ctx
      else updCtx s ctx fun c => { c with state := .saved, why := none, acks := [] }
    | _ => s)

/-- The core that takes the place of a core when a context moves to other clusters: the same place among those granted (R406). -/
def moveCore (old new : List Nat) (k : Nat) : Nat := new.getD (old.idxOf k) Config.cores

/-- The sheaf number on the new core. -/
def moveSheaf (old new : List Nat) (sh : Nat) : Nat := moveCore old new (coreOf sh) * 64 + sh % 64

/-- An operation of an array with its sheaf renumbered. -/
def moveOp (f : Nat → Nat) (o : ArrayOp) : ArrayOp :=
  match o with
  | .mma sh bs a b m => .mma (f sh) bs a b m
  | .accst sh bs k sc ex t rm pol m => .accst (f sh) bs k sc ex t rm pol m
  | .bht sh k n m => .bht (f sh) k n m
  | .tqnt sh kd ks sc ex rm pol m => .tqnt (f sh) kd ks sc ex rm pol m
  | .ttrn sh kd ks m => .ttrn (f sh) kd ks m

/-- An array's operations with their sheaves renumbered. -/
def moveArray (f : Nat → Nat) (a : ArraySt) : ArraySt := { a with queue := a.queue.map (moveOp f) }

/-- Entries keyed by a number that moves. -/
def moveKeys {α : Type} (f : Nat → Nat) (t : Tab α) : Tab α := t.foldl (fun acc e => Tab.put acc (f e.1) e.2) []

/-- A saved image on the cores now granted. Log 38 (DESIGN CHOICE). -/
def moveImage (new : List Nat) (i : SaveImage) : SaveImage :=
  let fc := moveCore i.cores new
  let fs := moveSheaf i.cores new
  { cores := new,
    sheaves := moveKeys fs (i.sheaves.map fun e => (e.1, { e.2 with pair := e.2.pair.map fs })),
    teams := i.teams.map fun t => (t.1, { t.2 with core := fc t.2.core, sheaves := t.2.sheaves.map fs }),
    watches := i.watches.map fun w => (fc w.1, { w.2 with sh := fs w.2.sh }),
    scratch := i.scratch, tiles := i.tiles,
    acc := moveKeys fc (i.acc.filter fun e => !e.2.isEmpty),
    copies := moveKeys fc (i.copies.filter fun e => !e.2.isEmpty),
    arrays := moveKeys fc ((i.arrays.filter fun e => !e.2.1.queue.isEmpty || !e.2.2.queue.isEmpty).map fun e => (e.1, moveArray fs e.2.1, moveArray fs e.2.2)),
    feeders := moveKeys fc i.feeders,
    tcbs := moveKeys (fun u => clusterOfCore (fc (u * 7))) (i.tcbs.filter fun e => !e.2.isEmpty) }

/-- The cores an image needs. -/
def imageCores (i : SaveImage) : List Nat :=
  (i.sheaves.map (fun e => coreOf e.1) ++ i.teams.map (fun t => t.2.core) ++ i.acc.map (·.1) ++ i.copies.map (·.1) ++ i.arrays.map (·.1) ++ i.feeders.map (·.1)).eraseDups

/-- The banks that a team's scratch needs can serve it. -/
def banksFit (s : State) (t : Team) : Bool :=
  (rangeBanks t.sbase t.slen).all fun b =>
    let x := bankAt (coreAt s t.core) b
    x.switching.isNone && !x.reserved && decide (x.mode ≠ .fifo)

/-- A started runner launch of another context holds a core (R206). -/
def heldByOther (s : State) (ctx k : Nat) : Bool :=
  s.launches.any fun l => decide (l.2.ctx ≠ ctx) && (match l.2.runner with
    | some r => r.started && (runnerCores r).contains k
    | none => false)

/-- What an image asks of a core is free on it, watch entries among it (R278, R398). Log 38 (DESIGN CHOICE). -/
def imageFits (s : State) (ctx : Nat) (i : SaveImage) (k : Nat) : Bool :=
  let c := coreAt s k
  let mine := i.sheaves.filter fun e => decide (coreOf e.1 = k)
  let ts := i.teams.filter fun t => decide (t.2.core = k)
  let u := useOf s k
  coreExists s k && !heldByOther s ctx k && decide (c.watch.length + (i.watches.filter fun w => decide (w.1 = k)).length ≤ 512) && mine.all (fun e => (sheaf? s e.1).isNone) &&
    ((List.range 4).all fun q =>
      decide ((u.quads.getD q (0, 0)).2 + ((mine.filter fun e => decide (quadOf e.1 % 4 = q)).map fun e => e.2.regs).sum ≤ 2048)) &&
    ts.all (fun t => banksFit s t.2 && u.ranges.all (fun r => decide (t.2.sbase + t.2.slen ≤ r.1) || decide (r.1 + r.2 ≤ t.2.sbase) || decide (t.2.slen = 0)) &&
      u.tiles.all fun r => decide (t.2.tbase + t.2.tcount ≤ r.1) || decide (r.1 + r.2 ≤ t.2.tbase) || decide (t.2.tcount = 0)) &&
    (Tab.get [] i.acc k).all (fun b => ((Tab.get accReset c.acc b.1).team).isNone) &&
    ((Tab.at? i.feeders k).isNone || (c.feeder.team.isNone && (match Tab.at? i.feeders k with
      | some f => (bankAt c f.bank).switching.isNone && !(bankAt c f.bank).reserved && !bankUsed s k f.bank
      | none => true))) &&
    ((Tab.at? i.arrays k).isNone || (c.array0.queue.isEmpty && c.array1.queue.isEmpty)) &&
    decide (c.copyq.length + (Tab.get [] i.copies k).length ≤ 32)

/-- The cores of the clusters that the current quantum gives a function (R406). -/
def shareCores (s : State) (fn : Nat) : List Nat := (Tab.get [] s.host.shares fn).flatMap fun cl => (List.range 7).map fun e => cl * 7 + e

/-- A context of another function still holds one of some cores (R397). -/
def coresHeld (s : State) (fn : Nat) (l : List Nat) : Bool :=
  s.ctxs.any fun c => decide (c.2.func ≠ fn) && (grantsOf s c.1).any l.contains

/-- A command of one of the context's queues is ready (R404). -/
def queueReady (s : State) (ctx : Nat) : Bool :=
  s.host.queues.any fun q => decide (q.2.ctx = ctx) && decide (q.2.state ≠ 2) && (decide (q.2.head ≠ q.2.tail) || q.2.raw.isSome || q.2.waiting.isSome || q.2.launch.isSome)

/-- A context has work to be made resident for (R404, R406). -/
def hasWork (s : State) (ctx : Nat) : Bool := queueReady s ctx || s.launches.any fun l => decide (l.2.ctx = ctx)

/-- A context may be made resident now (R404, R406, R411, R444). Log 38 (DESIGN CHOICE). -/
def mayRestore (s : State) (ctx : Nat) : Bool :=
  let c := ctxAt s ctx
  let new := shareCores s c.func
  decide (c.state = .idle ∨ c.state = .saved) && fnEnabled s c.func && !s.host.idle.contains c.func && !new.isEmpty && hasWork s ctx && !(s.dies.any fun d => d.2.hot) && !coresHeld s c.func new &&
    !(match s.host.migration with
      | some m => decide (m.ctx = ctx) && !(s.host.queues.any fun q => decide (q.2.ctx = ctx) && inProgress q.2)
      | none => false) &&
    (match c.image with
    | none => true
    | some i =>
      let j := moveImage new i
      (imageCores j).all (imageFits s ctx j))

/-- The runner launches of a context on their new cores (R225). -/
def moveRunners (s : State) (ctx : Nat) (f : Nat → Nat) : State :=
  { s with launches := s.launches.map fun e =>
      if e.2.ctx = ctx then (e.1, { e.2 with runner := e.2.runner.map fun r => { r with segs := r.segs.map fun g =>
        { g with holders := g.holders.map f, pending := g.pending.map (·.map f), draining := g.draining.map f } } })
      else e }

/-- The banks under a team's scratch are in SCRATCH mode, zero where they were not (R260, R398). -/
def readyBanks (s : State) (t : Team) : State :=
  (rangeBanks t.sbase t.slen).foldl (fun s b =>
    if (bankAt (coreAt s t.core) b).mode = .scratch then s else bankDone (bankSwitch s t.core b .scratch true).1 t.core b) s

/-- Steps 1 and 2 of R398: scratch, tile tables, accumulators, then the engines. -/
def restoreCores (s : State) (i : SaveImage) : State :=
  let s1 := i.teams.foldl (fun s t => readyBanks s t.2) s
  let s2 := i.teams.foldl (fun s t => updCore s t.2.core fun c =>
    let m := Tab.get ([], []) i.scratch t.1
    let off := scratchPart c t.2.sbase t.2.slen
    let base := { c with scratch := c.scratch.filter fun e => !off.1.contains e, stags := c.stags.filter fun e => !off.2.contains e }
    { base with scratch := m.1.foldl (fun a e => Tab.put a e.1 e.2) base.scratch, stags := m.2.foldl (fun a e => Tab.put a e.1 e.2) base.stags,
                tiles := (Tab.get [] i.tiles t.1).foldl (fun a e => Tab.put a e.1 e.2) base.tiles }) s1
  (imageCores i).foldl (fun s k =>
    let s1 := updCore s k fun c =>
      { c with acc := (Tab.get [] i.acc k).foldl (fun a e => Tab.put a e.1 e.2) c.acc, copyq := c.copyq ++ Tab.get [] i.copies k,
               array0 := if (Tab.at? i.arrays k).isSome then (Tab.get (arrayReset, arrayReset) i.arrays k).1 else c.array0,
               array1 := if (Tab.at? i.arrays k).isSome then (Tab.get (arrayReset, arrayReset) i.arrays k).2 else c.array1 }
    match Tab.at? i.feeders k with
    | some f => updCore (bankDone (bankSwitch s1 k f.bank .fifo true).1 k f.bank) k fun c =>
      { c with feeder := f, banks := Tab.put c.banks f.bank { bankAt c f.bank with reserved := true } }
    | none => s1) s2

/-- Steps 4 to 6 of R398: sheaves, struck watch entries, and the teams with their rendezvous points and phase timers; unstarted blocks return to their units. -/
def restoreSheaves (s : State) (i : SaveImage) : State :=
  let s1 := { s with sheaves := i.sheaves.foldl (fun a e => Tab.put a e.1 e.2) s.sheaves, teams := i.teams.foldl (fun a e => Tab.put a e.1 e.2) s.teams }
  let s2 := i.watches.foldl (fun s w => updCore s w.1 fun c => { c with watch := c.watch ++ [w.2] }) s1
  i.tcbs.foldl (fun s u => updCluster s u.1 fun c => { c with queue := c.queue ++ u.2, empties := 0, quietUntil := 0 }) s2

/-- Step 3 of R398: the holders of a context's started runner launches reserve their FIFOs again; none where one cannot yet. -/
def restoreRunners (s : State) (ctx : Nat) : Option State :=
  s.launches.foldl (fun (acc : Option State) e => match e.2.runner with
    | some r => if e.2.ctx = ctx ∧ r.started then acc.bind fun s => reserveAll s e.1 r else acc
    | none => acc) (some s)

/-- The held lanes of a restored context evaluate their waits again (R249, R361, R398): LWAIT and MRWAIT here, the others by their own events or by issuing
their word. -/
def heldAgain (s : State) (ctx : Nat) : State :=
  s.groups.foldl (fun s g => resumeMr s g.1 (groupWaiters s g.1 (mrResult s g.1))) (wakeLaunch s ctx)

/-- The state of a context that has been restored: one whose function was disabled or lost its clusters meanwhile, or that a hot die stops, is stopped at once
(R406, R411, R444). -/
def restoredState (s : State) (k : Nat) (c : Ctx) : Ctx :=
  if !fnEnabled s c.func then { c with state := .stopping, why := some .vfDisable, acks := [], image := none }
  else if shareCores s c.func ≠ grantsOf s k then { c with state := .stopping, why := some .quantum, acks := [], image := none }
  else if s.dies.any (fun d => d.2.hot) then { c with state := .stopping, why := some .thermal, acks := [], image := none }
  else { c with state := .running, image := none }

/-- RESTORE (R392, R398, R404): a context begins to be restored, and then runs. Log 38 (DESIGN CHOICE). -/
def execRestore (ctx : Nat) (s : State) : Result :=
  .next (
    let c := ctxAt s ctx
    let new := shareCores s c.func
    match c.state with
    | .restoring =>
      match restoreRunners (restoreCores s (c.image.getD (saveImage State.reset 0))) ctx with
      | some s1 => heldAgain (updCtx (restoreSheaves s1 (c.image.getD (saveImage State.reset 0))) ctx (restoredState s ctx)) ctx
      | none => s
    | _ =>
      if !mayRestore s ctx then s
      else
        let s1 := match c.image with
          | some i => moveRunners s ctx (moveCore i.cores new)
          | none => s
        updCtx { s1 with host := { s1.host with grants := Tab.put s1.host.grants ctx new } } ctx fun c =>
          { c with state := .restoring, image := c.image.map (moveImage new) })

/-- The fields of a quantum-table entry (R405). -/
def qtV (e : QWord) : Bool := e.getLsbD 127
def qtLen (e : QWord) : Nat := (e.extractLsb' 111 16).toNat
def qtFn (e : QWord) (i : Nat) : Nat := (e.extractLsb' (105 - 6 * i) 6).toNat
def qtShare (e : QWord) (i : Nat) : Nat := (e.extractLsb' (50 - 6 * i) 6).toNat
def qtSlots (e : QWord) : Nat := (e.extractLsb' 0 8).toNat

/-- The functions of an entry with their shares. -/
def qtList (e : QWord) : List (Nat × Nat) := (List.range (min 8 (qtSlots e))).map fun i => (qtFn e i, qtShare e i)

/-- An entry of the quantum table. -/
def qtEntry (s : State) (i : Nat) : QWord := Tab.get 0 s.host.qtab i

/-- The entry that becomes current next: ascending, again from the first after the last (R406). -/
def nextEntry (s : State) : Option Nat :=
  let n := match s.host.entry with
    | some i => i + 1
    | none => 0
  ((List.range 64).map fun i => (n + i) % 64).find? fun i => qtV (qtEntry s i)

/-- The clusters of the functions of an entry (R406): those with the same share keep theirs, the others take the lowest-numbered free ones. -/
def dealShares (old : Tab (List Nat)) (l : List (Nat × Nat)) : Tab (List Nat) :=
  let keeps := fun (x : Nat × Nat) => decide ((Tab.get [] old x.1).length = x.2) && (Tab.at? old x.1).isSome
  let kept := (l.filter keeps).foldl (fun (t : Tab (List Nat)) x => Tab.put t x.1 (Tab.get [] old x.1)) []
  (l.filter fun x => !keeps x).foldl (fun t x =>
    let used := t.flatMap (·.2)
    Tab.put t x.1 (((List.range 64).filter fun cl => !used.contains cl).take x.2)) kept

/-- QUANTUM_CHANGE (R406): at a season boundary the next entry becomes current, and the running contexts of functions that lost or changed their clusters are
stopped. A function enabled again takes part from here on (R411). -/
def execQuantumChange (s : State) : Result :=
  .next (if s.cycle % Config.seasonCycles ≠ 0 ∨ s.season < s.host.quantumEnd then s
    else
      let s1 := match nextEntry s with
        | none => { s with host := { s.host with entry := none, shares := [], idle := [] } }
        | some i =>
          let e := qtEntry s i
          { s with host := { s.host with entry := some i, quantumEnd := s.season + qtLen e, shares := dealShares s.host.shares (qtList e), idle := [] } }
      s1.ctxs.foldl (fun s c =>
        if c.2.state = .running ∧ shareCores s1 c.2.func ≠ grantsOf s1 c.1 then
          updCtx s c.1 fun c => { c with state := .stopping, why := some .quantum, acks := [] }
        else s) s1)

end Sys2Proof.Machine
end

