-- ==== Sys2Proof/Machine/Queue.lean ====
section
/-! DEFINITION. Host queues (R407 to R411): kicks, mapping to slots, and the commands. -/

namespace Sys2Proof.Machine

/-- A queue by number. -/
def queueAt (s : State) (q : Nat) : Option QueueSt := Tab.at? s.host.queues q

/-- QUEUE_KICK (R407, R409, R411): TAIL is written; a kick to a queue without a slot, or of a disabled VF, sets its pending bit and wakes the package
master. A kick by a function that does not own the queue is dropped. Log 41 (DESIGN CHOICE). -/
def execQueueKick (fn queue : Nat) (tail : Word) (s : State) : Result :=
  .next (match queueAt s queue with
    | none => s
    | some x =>
      if x.func ≠ fn then s
      else if x.slot.isSome ∧ fnEnabled s fn then updQueue s queue fun q => { q with tail := tail.toNat }
      else due (updQueue s queue fun q => { q with tail := tail.toNat, pending := true, waited := s.season }) .queueMapping)

/-- A queue's effective priority (R410). -/
def effective (s : State) (q : QueueSt) : Nat := if q.slot.isSome then q.prio else min 7 (q.prio + (s.season - q.waited) / 8)

/-- The first of some queues by a key, the lower key first. -/
def firstBy (key : Nat × QueueSt → Nat) (l : Tab QueueSt) : Option Nat := (sortBy key l).head?.map (·.1)

/-- The lowest free slot of the 512. -/
def freeQueueSlot (s : State) : Option Nat := (List.range 512).find? fun k => !(s.host.queues.any fun q => decide (q.2.slot = some k))

/-- One pending queue placed (R410): in a free slot, in place of an idle mapped queue, or by marking one of strictly lower priority.
Log 41 (DESIGN CHOICE). -/
def placeQueue (s : State) (n : Nat) (x : QueueSt) : State :=
  match freeQueueSlot s with
  | some k => updQueue s n fun q => { q with slot := some k, pending := false }
  | none =>
    let mapped := s.host.queues.filter fun q => q.2.slot.isSome
    match firstBy (fun q => q.2.prio * 16384 + (16383 - q.1)) (mapped.filter fun q => !ringHolds q.2 && !inProgress q.2) with
    | some old => giveSlot s old n
    | none =>
      if mapped.any fun q => decide (q.2.marked = some n) then s
      else
        match firstBy (fun q => q.2.prio * 16384 + (16383 - q.1)) (mapped.filter fun q => q.2.marked.isNone && decide (q.2.prio < effective s x)) with
        | some old => boundaryQueue (updQueue s old fun q => { q with marked := some n }) old
        | none => s

/-- QUEUE_MAPPING (R410): pending queues, highest effective priority first, then the lower number.
Log 41 (DESIGN CHOICE). -/
def execQueueMapping (s : State) : Result :=
  .next ((sortBy (fun q => (7 - effective s q.2) * 16384 + q.1) (s.host.queues.filter fun q => mappable s q.2)).foldl (fun s q => placeQueue s q.1 q.2) s)

/-- A queue may begin or carry on a command: it is mapped, in no error, its function enabled, its context resident and not migrating (R404, R408, R411, R434).
Log 41 (DESIGN CHOICE). -/
def mayBegin (s : State) (q : QueueSt) : Bool :=
  q.slot.isSome && decide (q.state ≠ 2) && fnEnabled s q.func && decide ((ctxAt s q.ctx).state = .running)

/-- The context of a queue is being migrated: nothing new begins (R434). -/
def migrating (s : State) (ctx : Nat) : Bool := match s.host.migration with
  | some m => decide (m.ctx = ctx)
  | none => false

/-- Commands between HEAD and TAIL (R408). -/
def ringCount (q : QueueSt) : Nat := (q.tail + 2 ^ 32 - q.head) % 2 ^ 32

/-- What reading the ring gives: nothing yet, an error, or a command's bytes with the tags of its granules. -/
inductive RingRead where
  | wait | bad | got (b : List Byte) (tags : Byte)
  deriving DecidableEq, Repr

/-- The tags of the eight granules of 128 bytes of local HBM, filtered during a revoke pass (R334). -/
def ringTags (s : State) (l : Nat) : Byte :=
  BitVec.ofNat 8 ((List.range 8).foldl (fun acc k =>
    let c := rakeFilter s { bits := BitVec.ofNat 128 (ofBytes (readMem s.mem (l + 16 * k) 16)), tag := Tab.get false s.tags (l / 16 + k) }
    acc + (if c.tag then 2 ^ k else 0)) 0)

/-- The next command through RING by all of R25 (R26, R27, R407); a granule in transit is waited for; what host memory holds comes with the event.
Log 41 (DESIGN CHOICE). -/
def readCommand (s : State) (q : QueueSt) (host : List Byte) : RingRead :=
  match checkCap s.fabric.number (ctxAt s q.ctx).colours q.ring accLoad (128 * (q.head % max 1 q.size) : Nat) 128 16 with
  | .error _ => .bad
  | .ok a =>
    match regionOf s.fabric.number a with
    | .hbm =>
      match granulesCheck s (localOf a) 128 (capColour q.ring) with
      | .fail => .bad
      | .transit => .wait
      | .pass => .got (readMem s.mem (localOf a) 128) (ringTags s (localOf a))
    | .host => .got ((host ++ List.replicate 128 0).take 128) 0
    | _ => .bad

/-- QUEUE_COMMAND_BEGIN (R408): the command at HEAD is read, and HEAD rises; an overfull ring, a ring that cannot be read and an unknown kind are errors. -/
def execQueueCommandBegin (queue : Nat) (host : List Byte) (s : State) : Result :=
  .next (match queueAt s queue with
    | none => s
    | some q =>
      if !mayBegin s q ∨ inProgress q ∨ q.head = q.tail ∨ migrating s q.ctx then s
      else if q.size < ringCount q then queueError s queue
      else
        match readCommand s q host with
        | .wait => s
        | .bad => queueError s queue
        | .got b t =>
          let s1 := updQueue s queue fun q => { q with head := (q.head + 1) % 2 ^ 32, state := 1, raw := some (b, t) }
          if 4 ≤ field b 127 1 then queueError s1 queue else s1)

/-- The command in progress, where it is of a kind. -/
def rawCommand (s : State) (queue kind : Nat) : Option (QueueSt × List Byte × List Bool) :=
  match queueAt s queue with
  | none => none
  | some q =>
    match q.raw with
    | some (b, t) => if mayBegin s q ∧ field b 127 1 = kind then some (q, b, (List.range 8).map fun k => t.getLsbD k) else none
    | none => none

/-- QUEUE_NOP (R408). -/
def execQueueNop (queue : Nat) (s : State) : Result := .next (if (rawCommand s queue 0).isSome then finishCommand s queue else s)

/-- The number that stands for a lane in a request that a host queue makes. -/
def queueLane : Nat := 2 ^ 20

/-- A request of a queue to a peer is outstanding. -/
def queueOut (s : State) (queue : Nat) : Bool := s.net.peerReqs.any fun r => decide (r.sh = queue) && decide (r.ln = queueLane)

/-- A request of a queue to a peer leaves, exactly as one of a thread of its context (R408, R430, R431); none where no route reaches the peer (R427).
Log 42 (DESIGN CHOICE). -/
def queueSend (s : State) (queue : Nat) (q : QueueSt) (want : Want) (op : IngressOp) (c : Cap) (a size : Nat) (data : QWord) : Option State :=
  (portFor s (devOf a) a).map fun m =>
    let s1 := sendOut s m (devOf a) op c ((a + 2 ^ 52 - capBase c) % 2 ^ 52) size data none (ctxRecord s q.ctx)
    let req : Req := { sh := queue, ln := queueLane, want := want, cap := c, addr := a, size := size, data := data, data2 := 0, pos := 0, port := m }
    updNet s1 fun n => { n with peerReqs := n.peerReqs ++ [req] }

/-- The requests of a queue are given up: a peer that a wait stands at is told (R241). -/
def dropQueue (s : State) (queue : Nat) : State :=
  let mine := fun (r : Req) => decide (r.sh = queue) && decide (r.ln = queueLane)
  let s1 := (s.net.peerReqs.filter mine).foldl (fun s r => match r.want with
    | .queueWait _ _ => send s (.peerEnd r.port (devOf r.addr) r.addr)
    | _ => s) s
  updNet s1 fun n => { n with peerReqs := n.peerReqs.filter fun r => !mine r }

/-- The next granule of a queue's segment map: read, refused, or asked of a peer (R27, R208, R430). The host window holds no tag, so that a map there has no overflow
capability and is refused (R221). -/
def mapGranule (s : State) (queue : Nat) (q : QueueSt) (c : Cap) (a : Nat) : State × Option Cap :=
  match regionOf s.fabric.number a with
  | .hbm =>
    match granuleCheck s (localOf a) (capColour c) with
    | .pass => (s, some (rakeFilter s { bits := BitVec.ofNat 128 (ofBytes (readMem s.mem (localOf a) 16)), tag := Tab.get false s.tags (localOf a / 16) }))
    | .fail => (s, some nullCap)
    | .transit => (s, none)
  | .peer => if queueOut s queue then (s, none) else
      match queueSend s queue q (.queueMap queue) .loadCap c a 16 0 with
      | some s1 => (s1, none)
      | none => (s, some nullCap)
  | _ => (s, some nullCap)

/-- The segment map of a queue's launch, granule by granule: not yet, or what has been read of it, none where it is refused (R208, R248). -/
def queueMap (queue : Nat) (ctx : Nat) (c : Cap) : Nat → State → State × Option (Option (List Cap))
  | 0, s => (s, some none)
  | k + 1, s =>
    match queueAt s queue with
    | none => (s, none)
    | some q =>
      match mapWant s ctx c q.buf with
      | none => (s, some none)
      | some n =>
        if n ≤ q.buf.length then (s, some (some q.buf))
        else
          match mapGranule s queue q c (capBase c + 16 * q.buf.length) with
          | (s1, none) => (s1, none)
          | (s1, some v) => queueMap queue ctx c k (updQueue s1 queue fun q => { q with buf := q.buf ++ [v] })

/-- The latest write time at any home: a launch from a host queue follows every host write before its doorbell (R172, R289). -/
def homeMax (s : State) : Nat :=
  s.slices.foldl (fun m h => h.2.sets.foldl (fun m st => st.2.foldl (fun m x => max m x.wts) m) (max m h.2.mwts)) 0

/-- QUEUE_LAUNCH (R248, R289, R408): the launch is accepted, and the command is complete when the launch is (R203); a refusal is an error. -/
def execQueueLaunch (queue : Nat) (s : State) : Result :=
  .next (match rawCommand s queue 1 with
    | none => s
    | some (q, b, t) =>
      let d := parseDesc (b.take 127 ++ [0]) t
      let m := if needsMap s q.ctx d (homeMax s) then queueMap queue q.ctx d.segmap 140 s else (s, some none)
      match m.2 with
      | none => m.1
      | some map =>
        match launchCheck m.1 q.ctx d (homeMax m.1) false map with
        | .error _ => queueError m.1 queue
        | .ok l =>
          let r := acceptLaunch m.1 l false (some queue)
          updQueue r.1 queue fun q => { q with raw := none, buf := [], launch := some r.2.1 })

/-- The signal of a wait or a post passes R25 (R408): its address. -/
def signalCheck (s : State) (q : QueueSt) (c : Cap) (k : Access) : Option Nat :=
  match checkCap s.fabric.number (ctxAt s q.ctx).colours c k 0 8 8 with
  | .error _ => none
  | .ok a => some a

/-- What a queue's command on a signal at a peer has come to: it asks the peer once, and then has its answer (R408).
Log 42 (DESIGN CHOICE). -/
def queuePeer (s : State) (queue : Nat) (q : QueueSt) (ask : Option State) : State × Option Bool :=
  match q.answered with
  | some b => (s, some b)
  | none => if queueOut s queue then (s, none) else
      match ask with
      | some s1 => (s1, none)
      | none => (s, some false)

/-- A wait's test of its word (R241, R408): none where it goes on waiting, false where it fails. What the host holds comes with the event.
Log 42 (DESIGN CHOICE). -/
def waitTest (s : State) (queue : Nat) (q : QueueSt) (c : Cap) (thr : Nat) (host : DWord) : State × Option Bool :=
  match signalCheck s q c accLoad with
  | none => (s, some false)
  | some a =>
    match regionOf s.fabric.number a with
    | .hbm => (s, match granuleCheck s (localOf a) (capColour c) with
        | .pass => if thr ≤ ofBytes (readMem s.mem (localOf a) 8) then some true else none
        | .transit => none
        | .fail => some false)
    | .peer => queuePeer s queue q (queueSend s queue q (.queueWait queue thr) .sigwait c a 8 0)
    | _ => (s, if thr ≤ host.toNat then some true else none)

/-- QUEUE_WAIT (R408): waits as SIGWAIT.EXT; a signal that fails a check is an error. Log 42 (DESIGN CHOICE). -/
def execQueueWait (queue : Nat) (host : DWord) (s : State) : Result :=
  .next (
    let go := fun (s : State) (q : QueueSt) (c : Cap) (thr : Nat) =>
      match waitTest s queue q c thr host with
      | (s1, some true) => finishCommand s1 queue
      | (s1, some false) => queueError s1 queue
      | (s1, none) => s1
    match rawCommand s queue 2, queueAt s queue with
    | some (q, b, t), _ =>
      let c := capField16 b t 0
      go (updQueue s queue fun x => { x with raw := none, waiting := some (c, field b 16 8) }) q c (field b 16 8)
    | none, some q =>
      match q.waiting with
      | some (c, thr) => if mayBegin s q then go s q c thr else s
      | none => s
    | none, none => s)

/-- QUEUE_POST (R240, R408): the increment is added to the signal; not yet where its granule is in transit; a signal that fails a check is an error.
Log 42 (DESIGN CHOICE). -/
def execQueuePost (queue : Nat) (s : State) : Result :=
  .next (match rawCommand s queue 3 with
    | none => s
    | some (q, b, t) =>
      let c := capField16 b t 0
      match signalCheck s q c (accAtomic true) with
      | none => queueError s queue
      | some a =>
        if regionOf s.fabric.number a = .peer then
          (match queuePeer s queue q (queueSend s queue q (.queuePost queue) (.atom 0) c a 8 (BitVec.ofNat 128 (field b 16 4))) with
          | (s1, some true) => finishCommand s1 queue
          | (s1, some false) => queueError s1 queue
          | (s1, none) => s1)
        else if regionOf s.fabric.number a = .hbm ∧ granuleCheck s (localOf a) (capColour c) = .fail then queueError s queue
        else
          match signalAdd s q.ctx c (field b 16 4) 0 with
          | some s1 => finishCommand s1 queue
          | none => s)

end Sys2Proof.Machine
end

