-- ==== Sys2Proof/Machine/Loader.lean ====
section
/-! DEFINITION. The loader (R154 to R172): the object file, its relocation records, the selection of variants, and the placing and unloading of objects. -/

namespace Sys2Proof.Machine

/-- A token of a selector (R165). -/
inductive SelTok where
  | num (n : Nat)
  | name (b : List Byte)
  | op (b : List Byte)
  deriving DecidableEq, Repr

/-- A selector expression (R165). -/
inductive SelExpr where
  | num (v : DWord)
  | name (b : List Byte)
  | not (a : SelExpr)
  | neg (a : SelExpr)
  | bin (op : List Byte) (a b : SelExpr)
  deriving DecidableEq, Repr

/-- The bytes of an ASCII text. -/
def ascii (t : String) : List Byte := t.toList.map fun c => BitVec.ofNat 8 c.toNat

/-- A digit's value, decimal or hexadecimal. -/
def digitOf (b : Byte) : Option Nat :=
  let n := b.toNat
  if 48 ≤ n ∧ n ≤ 57 then some (n - 48) else if 65 ≤ n ∧ n ≤ 70 then some (n - 55) else if 97 ≤ n ∧ n ≤ 102 then some (n - 87) else none

/-- A byte of a name. -/
def nameByte (b : Byte) : Bool :=
  let n := b.toNat
  (decide (65 ≤ n) && decide (n ≤ 90)) || (decide (97 ≤ n) && decide (n ≤ 122)) || (decide (48 ≤ n) && decide (n ≤ 57)) || decide (n = 95)

/-- Digits of a base as a number; none for another byte or no digit. -/
def numberOf (base : Nat) (l : List Byte) : Option Nat :=
  if l.isEmpty then none
  else l.foldl (fun acc b => match acc, digitOf b with
    | some n, some d => if d < base then some (n * base + d) else none
    | _, _ => none) (some 0)

/-- A word of name bytes: a number, decimal or with 0x, or a name. -/
def wordToken (w : List Byte) : Option SelTok :=
  match w with
  | [] => none
  | b :: _ =>
    if 48 ≤ b.toNat ∧ b.toNat ≤ 57 then
      (if w.take 2 = ascii "0x" then numberOf 16 (w.drop 2) else numberOf 10 w).map .num
    else some (.name w)

/-- The operators of two bytes, then of one (R165). -/
def selOps2 : List (List Byte) := [ascii "||", ascii "&&", ascii "==", ascii "!=", ascii "<=", ascii ">="]
def selOps1 : List (List Byte) := ["<", ">", "+", "-", "*", "/", "%", "!", "(", ")"].map ascii

/-- The tokens of a selector; none where a byte starts no token. -/
def selTokens : Nat → List Byte → Option (List SelTok)
  | 0, _ => none
  | _, [] => some []
  | f + 1, b :: r =>
    if b.toNat = 32 ∨ b.toNat = 9 then selTokens f r
    else if nameByte b then
      let w := (b :: r).takeWhile nameByte
      match wordToken w with
      | some t => (selTokens f ((b :: r).drop w.length)).map fun l => t :: l
      | none => none
    else if selOps2.contains ((b :: r).take 2) then (selTokens f (r.drop 1)).map fun l => .op ((b :: r).take 2) :: l
    else if selOps1.contains [b] then (selTokens f r).map fun l => .op [b] :: l
    else none

/-- The level of a binary operator, from loosest to tightest (R165). -/
def selLevel (o : List Byte) : Nat :=
  if o = ascii "||" then 0 else if o = ascii "&&" then 1
  else if [ascii "==", ascii "!=", ascii "<", ascii "<=", ascii ">", ascii ">="].contains o then 2
  else if [ascii "+", ascii "-"].contains o then 3 else if [ascii "*", ascii "/", ascii "%"].contains o then 4 else 9

/-- The grammar of R165: an expression of a level, after the left operand where one is read; comparisons do not associate. -/
def selParse : Nat → Nat → Option SelExpr → List SelTok → Option (SelExpr × List SelTok)
  | 0, _, _, _ => none
  | f + 1, 5, _, t =>
    match t with
    | .num n :: r => some (.num (if n < 2 ^ 63 then BitVec.ofNat 64 n else Config.freeDWord n), r)
    | .name b :: r => some (.name b, r)
    | .op o :: r =>
      if o = ascii "!" then (selParse f 5 none r).map fun x => (.not x.1, x.2)
      else if o = ascii "-" then (selParse f 5 none r).map fun x => (.neg x.1, x.2)
      else if o = ascii "(" then
        match selParse f 0 none r with
        | some (e, .op c :: r2) => if c = ascii ")" then some (e, r2) else none
        | _ => none
      else none
    | [] => none
  | f + 1, l, none, t =>
    match selParse f (l + 1) none t with
    | some (a, r) => selParse f l (some a) r
    | none => none
  | f + 1, l, some a, t =>
    match t with
    | .op o :: r =>
      if selLevel o = l then
        match selParse f (l + 1) none r with
        | some (b, r2) => if l = 2 then some (.bin o a b, r2) else selParse f l (some (.bin o a b)) r2
        | none => none
      else some (a, t)
    | _ => some (a, t)

/-- The values of the names of R165 for a context. -/
def selName (s : State) (ctx : Nat) (b : List Byte) : Option Nat :=
  let c := ctxAt s ctx
  ([(ascii "isa", 1), (ascii "dies", 8), (ascii "cores", 448 - s.boot.sixCore.length), (ascii "hbm_gib", 4096 - 512 * s.boot.absent.length),
    (ascii "fabric", (s.fabric.ports.filter fun p => decide (p.1 < 36) && decide (p.2.state = 3)).length),
    (ascii "peers", (s.fabric.routes.filter fun r => !(routeOf s r.1).isEmpty).length),
    (ascii "vf", if c.func = 0 then 0 else 1), (ascii "colours", (validColours c.colours).length), (ascii "wmax", 64)].find? fun x => x.1 = b).map (·.2)

/-- Every name of an expression is known (R165). -/
def selKnown (s : State) (ctx : Nat) : SelExpr → Bool
  | .num _ => true
  | .name b => (selName s ctx b).isSome
  | .not a => selKnown s ctx a
  | .neg a => selKnown s ctx a
  | .bin _ a b => selKnown s ctx a && selKnown s ctx b

/-- A truth value. -/
def selBool (b : Bool) : DWord := if b then 1 else 0

/-- A binary operator other than the two that may skip their right operand; none for a division by zero. -/
def selBin (o : List Byte) (a b : DWord) : Option DWord :=
  if o = ascii "==" then some (selBool (a == b)) else if o = ascii "!=" then some (selBool (a != b))
  else if o = ascii "<" then some (selBool (a.slt b)) else if o = ascii "<=" then some (selBool (a.sle b))
  else if o = ascii ">" then some (selBool (b.slt a)) else if o = ascii ">=" then some (selBool (b.sle a))
  else if o = ascii "+" then some (a + b) else if o = ascii "-" then some (a - b) else if o = ascii "*" then some (a * b)
  else if b = 0 then none
  else if o = ascii "/" then some (BitVec.ofInt 64 (a.toInt.tdiv b.toInt)) else some (BitVec.ofInt 64 (a.toInt.tmod b.toInt))

/-- The value of a selector in 64-bit signed arithmetic (R165); none for a division by zero that is evaluated.
Log 43 (DEDUCED). -/
def selEval (s : State) (ctx : Nat) : SelExpr → Option DWord
  | .num v => some v
  | .name b => (selName s ctx b).map fun n => BitVec.ofNat 64 n
  | .not a => (selEval s ctx a).map fun v => selBool (v == 0)
  | .neg a => (selEval s ctx a).map fun v => -v
  | .bin o a b =>
    match selEval s ctx a with
    | none => none
    | some v =>
      if o = ascii "||" then (if v ≠ 0 then some 1 else (selEval s ctx b).map fun w => selBool (w != 0))
      else if o = ascii "&&" then (if v = 0 then some 0 else (selEval s ctx b).map fun w => selBool (w != 0))
      else match selEval s ctx b with
        | some w => selBin o v w
        | none => none

/-- A selector's verdict (R165, R171): true, false, or in error. -/
def selector (s : State) (ctx : Nat) (text : List Byte) : Option Bool :=
  match selTokens (text.length + 1) text with
  | none => none
  | some l =>
    match selParse (8 * (l.length + 2)) 0 none l with
    | some (e, []) => if selKnown s ctx e then (selEval s ctx e).map fun v => v != 0 else none
    | _ => none

/-- The header of an object (R154). -/
structure ObjHeader where
  textOff : Nat
  textSize : Nat
  imgOff : Nat
  imgSize : Nat
  gotCount : Nat
  galign : Nat
  pref : Nat
  varOff : Nat
  varCount : Nat
  symOff : Nat
  symCount : Nat
  relOff : Nat
  relCount : Nat
  strOff : Nat
  deriving DecidableEq, Repr

/-- A variant record (R157). -/
structure VarRec where
  name : List Byte
  entry : Nat
  gang : Nat
  regs : Nat
  codeOff : Nat
  codeSize : Nat
  preds : Nat
  stages : Nat
  tiles : Nat
  scratch : Nat
  select : Option (List Byte)
  deriving DecidableEq, Repr

/-- A symbol entry (R158). -/
structure SymRec where
  name : List Byte
  value : Nat
  sect : Nat
  bind : Nat
  entry : Nat
  deriving DecidableEq, Repr

/-- A relocation record (R159). -/
structure RelRec where
  where_ : Nat
  kind : Nat
  owner : Nat
  sym : Nat
  addend : Nat
  anchor : Nat
  deriving DecidableEq, Repr

/-- A signed 32-bit field. -/
def signed32 (n : Nat) : Int := (BitVec.ofNat 32 n).toInt

/-- A name of the string table: the bytes up to the first NUL (R154). -/
def nameAt (file : List Byte) (h : ObjHeader) (off : Nat) : List Byte := (file.drop (h.strOff + off)).takeWhile (· ≠ 0)

/-- The header's fields (R154). -/
def parseHeader (b : List Byte) : ObjHeader :=
  { textOff := field b 8 4, textSize := field b 12 4, imgOff := field b 16 4, imgSize := field b 20 4, gotCount := field b 24 4, galign := field b 28 4,
    pref := field b 32 4, varOff := field b 36 4, varCount := field b 40 4, symOff := field b 44 4, symCount := field b 48 4, relOff := field b 52 4,
    relCount := field b 56 4, strOff := field b 60 4 }

/-- The checks of step 1 of R168: object status 0x01 or 0x02, or the header. A GALIGN outside its set, a PREF that is no multiple of it, and a file shorter than
its header break R154 and are refused with 0x02. Log 43 (DEDUCED). -/
def checkHeader (b : List Byte) : Except Nat ObjHeader :=
  let h := parseHeader b
  let fits := fun (off n : Nat) => decide (off + n ≤ b.length)
  if b.length < 64 then .error 0x02
  else if field b 0 4 ≠ 0x004F564C ∨ field b 4 2 ≠ 1 ∨ field b 6 2 ≠ 0 then .error 0x01
  else if h.textSize % 8 = 0 ∧ h.imgSize % 16 = 0 ∧ [16, 32, 64, 128].contains h.galign ∧ h.pref % max 1 h.galign = 0 ∧ fits h.textOff h.textSize ∧
      fits h.imgOff h.imgSize ∧ fits h.varOff (32 * h.varCount) ∧ fits h.symOff (16 * h.symCount) ∧ fits h.relOff (24 * h.relCount) ∧ fits h.strOff 0 then .ok h
  else .error 0x02

/-- The variant records of an object. -/
def variantsOf (b : List Byte) (h : ObjHeader) : List VarRec :=
  (List.range h.varCount).map fun i =>
    let r := (b.drop (h.varOff + 32 * i)).take 32
    { name := nameAt b h (field r 0 4), entry := field r 8 2, gang := field r 10 1, regs := field r 11 1 * 16, codeOff := field r 12 4, codeSize := field r 16 4,
      preds := field r 20 1, stages := field r 21 1, tiles := field r 22 2, scratch := field r 24 4,
      select := if field r 28 4 = 0 then none else some (nameAt b h (field r 28 4)) }

/-- The symbols of an object. -/
def symbolsOf (b : List Byte) (h : ObjHeader) : List SymRec :=
  (List.range h.symCount).map fun i =>
    let r := (b.drop (h.symOff + 16 * i)).take 16
    { name := nameAt b h (field r 0 4), value := field r 4 4, sect := field r 8 1, bind := field r 9 1, entry := field r 10 2 }

/-- The relocation records of an object. -/
def relocsOf (b : List Byte) (h : ObjHeader) : List RelRec :=
  (List.range h.relCount).map fun i =>
    let r := (b.drop (h.relOff + 24 * i)).take 24
    { where_ := field r 0 4, kind := field r 4 1, owner := if field r 4 1 = 3 then 0xFFFF else field r 6 2, sym := field r 8 4, addend := field r 12 4, anchor := field r 16 4 }

/-- Ranges of `c0` that an object may not overlap: loaded objects, and ranges of unloaded ones that a rake pass has not finished (R169, R172).
Log 44 (DEDUCED). -/
def occupied (s : State) (ctx : Nat) (c : Ctx) : List (Nat × Nat) :=
  c.objects.map (fun o => (o.lo, o.hi)) ++ (s.rake.entries.filter fun e => decide (e.unloads = some ctx) && decide (capBase c.c0 ≤ e.base)).map fun e =>
    (e.base - capBase c.c0, e.base - capBase c.c0 + e.len)

/-- The image may stand at an offset of `c0` (R169): a range without a byte overlaps none. Log 44 (DEDUCED). -/
def gFits (c : Ctx) (occ : List (Nat × Nat)) (h : ObjHeader) (g : Nat) : Bool :=
  decide (16 * h.gotCount ≤ g) && decide (g + h.imgSize ≤ capLen c.c0) && c.c0.tag &&
    occ.all fun r => decide (r.2 ≤ r.1) || decide (g + h.imgSize ≤ r.1) || decide (r.2 ≤ g - 16 * h.gotCount) || decide (h.imgSize + 16 * h.gotCount = 0)

/-- The least multiple of an alignment that is not below a number. -/
def alignUp (a n : Nat) : Nat := (n + a - 1) / max 1 a * a

/-- G (R169): PREF, or the lowest place that fits. -/
def chooseG (c : Ctx) (occ : List (Nat × Nat)) (h : ObjHeader) : Option Nat :=
  if gFits c occ h h.pref then some h.pref
  else ((alignUp h.galign (16 * h.gotCount) :: occ.map fun r => alignUp h.galign (r.2 + 16 * h.gotCount)).filter (gFits c occ h)).foldl
    (fun acc g => some (min g (acc.getD g))) none

/-- A global symbol of an earlier object (R160): the earliest loaded that defines it. -/
def exported (c : Ctx) (name : List Byte) : Option (Object × Nat × Nat × Nat) :=
  c.objects.findSome? fun o => (o.exports.find? fun e => e.1 = name).map fun e => (o, e.2)

/-- GOT symbols in the order of their first record (R156). -/
def gotSymbols (rels : List RelRec) : List Nat := ((rels.filter fun r => decide (r.kind = 4)).map (·.sym)).eraseDups

/-- A symbol a record may not use, or S (R160). -/
def symbolValue (c : Ctx) (g : Nat) (h : ObjHeader) (syms : List SymRec) (gots : List Nat) (r : RelRec) : Option Int :=
  match syms[r.sym]? with
  | none => none
  | some y =>
    if r.kind = 4 then
      let isEntry : Bool := if y.sect = 0 then (match exported c y.name with
        | some (_, _, _, e) => decide (e ≠ 0xFFFF)
        | none => false) else decide (y.sect = 1) && decide (y.entry ≠ 0xFFFF)
      if isEntry then some ((g : Int) - 16 * ((h.gotCount : Int) - (gots.idxOf r.sym : Int))) else none
    else if y.sect = 2 then some (g + y.value : Nat)
    else if y.sect = 3 then some (y.value : Nat)
    else if y.sect = 0 then
      match exported c y.name with
      | some (_, sect, v, _) => if sect = 1 then none else some (v : Nat)
      | none => none
    else none

/-- What a relocation record writes: a word's field, or a capability in the globals image. -/
inductive Patch where
  | word (off : Nat) (w : DWord)
  | cap (off : Nat) (c : Cap)
  deriving DecidableEq, Repr

/-- The word of the code image at an offset. -/
def imageWord (b : List Byte) (h : ObjHeader) (off : Nat) : DWord := BitVec.ofNat 64 (field (b.drop h.textOff) off 8)

/-- The code a record may patch: the whole image, or its owner's (R163). -/
def siteRange (h : ObjHeader) (vars : List VarRec) (owner : Nat) : Option (Nat × Nat) :=
  if owner = 0xFFFF then some (0, h.textSize)
  else vars[owner]?.map fun v => (v.codeOff, min h.textSize (v.codeOff + v.codeSize))

/-- H of a HI20 record (R161). -/
def hiOf (v : Int) : Int := (v + 0x800) / 4096

/-- A slot of 16 bytes lies in `.caps` (R162), the first section of the image (R156). The file does not say where the section ends: it holds at least the
slots that CAPSLOT records fill, one each, and what of the image is beyond them is of `.caps` as a free value says. Log 43 (DEDUCED). -/
def inCaps (b : List Byte) (h : ObjHeader) (rels : List RelRec) (off : Nat) : Bool :=
  decide (off % 16 = 0) && decide (off + 16 ≤ h.imgSize) &&
    decide (off + 16 ≤ max (16 * (rels.filter fun r => decide (r.kind = 3)).length) (Config.capsEnd b))

/-- A record computed (R161 to R163): its patch, or its status with the value V or L that overflowed. One of a KIND that R159 does not list matches no word and
fails with 0x15. Log 43 (DEDUCED). -/
def relocate (c : Ctx) (b : List Byte) (g : Nat) (h : ObjHeader) (vars : List VarRec) (syms : List SymRec) (rels : List RelRec) (r : RelRec) : Except (Nat × Int) Patch :=
  let gots := gotSymbols rels
  match symbolValue c g h syms gots r with
  | none => .error (0x14, 0)
  | some sv =>
    if r.kind = 3 then
      if !inCaps b h rels r.where_ then .error (0x15, 0)
      else
        match capNarrow c.c0 sv.toNat r.addend with
        | none => .error (0x13, sv)
        | some k =>
          if capLen c.c0 < sv.toNat + r.addend then .error (0x13, sv)
          else .ok (.cap r.where_ (capField (capField k 30 10 (capPerm c.c0 &&& BitVec.ofNat 10 r.anchor).toNat) 15 3 0))
    else
      let v := sv + signed32 r.addend
      let w := imageWord b h r.where_
      let op := (w.extractLsb' 56 8).toNat
      let inSite : Bool := match siteRange h vars r.owner with
        | some x => decide (r.where_ % 8 = 0) && decide (x.1 ≤ r.where_) && decide (r.where_ + 8 ≤ x.2)
        | none => false
      if !inSite then .error (0x15, 0)
      else if r.kind = 1 then
        if op ≠ 4 ∨ w.extractLsb' 17 20 ≠ 0 then .error (0x15, 0)
        else if v < 0 ∨ 2 ^ 32 ≤ v + 0x800 then .error (0x13, v)
        else .ok (.word r.where_ (w ||| (BitVec.ofNat 64 (hiOf v).toNat <<< 17)))
      else if r.kind = 2 ∨ r.kind = 4 then
        let hi : Option Int :=
          if r.anchor = 0xFFFFFFFF then some 0
          else match rels[r.anchor]? with
            | some a => if a.kind = 1 ∧ a.owner = r.owner then (symbolValue c g h syms gots a).map fun x => hiOf (x + signed32 a.addend) else none
            | none => none
        let imm12 := decide (op = 3) && decide (r.kind = 2)
        let disp := (decide (r.kind = 2) && [0x18, 0x19, 0x1A, 0x1B].contains op) || (decide (r.kind = 4) && decide (op = 0x18) && decide (w.extractLsb' 52 4 = 3#4))
        match hi with
        | none => .error (0x15, 0)
        | some hv =>
          let l := v - 4096 * hv
          if !((imm12 && decide (w.extractLsb' 14 12 = 0)) || (disp && decide (w.extractLsb' 9 12 = 0))) then .error (0x15, 0)
          else if l < -2048 ∨ 2047 < l then .error (0x13, l)
          else .ok (.word r.where_ (w ||| ((BitVec.ofInt 12 l).setWidth 64 <<< (if imm12 then 14 else 9))))
      else .error (0x15, 0)

/-- The records of an owner, all computed before any is written (R164): the patches, or the first that failed.
Log 43 (DEDUCED). -/
def ownerPatches (c : Ctx) (b : List Byte) (g : Nat) (h : ObjHeader) (vars : List VarRec) (syms : List SymRec) (rels : List RelRec) (owner : Nat) :
    Except (Nat × Nat × Int) (List Patch) :=
  ((List.range rels.length).zip rels).foldl (fun acc x =>
    if x.2.owner ≠ owner then acc
    else match acc with
      | .error e => .error e
      | .ok l => match relocate c b g h vars syms rels x.2 with
        | .ok p => .ok (l ++ [p])
        | .error e => .error (x.1, e)) (.ok [])

/-- A variant's verdict (R166, R171): its status with a record number and value, or its patches. -/
def tryVariant (s : State) (ctx : Nat) (b : List Byte) (g : Nat) (h : ObjHeader) (vars : List VarRec) (syms : List SymRec) (rels : List RelRec) (i : Nat) (v : VarRec) :
    Except (Nat × Nat × Int) (List Patch) :=
  match (match v.select with
    | none => some true
    | some t => selector s ctx t) with
  | none => .error (0x11, 0, 0)
  | some false => .error (0x10, 0, 0)
  | some true =>
    if 64 < v.gang then .error (0x12, 0, 0)
    else match ownerPatches (ctxAt s ctx) b g h vars syms rels i with
      | .ok l => .ok l
      | .error (n, st, x) => .error (st, if st = 0x13 then n else 0, if st = 0x13 then x else 0)

/-- The variants of a kernel in the order in which they are tried (R166). -/
def tryOrder (vars : List VarRec) (entry : Nat) : List (Nat × VarRec) :=
  sortBy (fun x => (if x.2.gang = 0 then 256 else 255 - x.2.gang) * 2 ^ 32 + x.1) (((List.range vars.length).zip vars).filter fun x => decide (x.2.entry = entry))

/-- What the tries of one kernel give: the status of each variant tried, and the one selected with its patches. -/
def selectKernel (try_ : Nat → VarRec → Except (Nat × Nat × Int) (List Patch)) : List (Nat × VarRec) → List (Nat × Nat × Nat × Int) × Option (Nat × VarRec × List Patch)
  | [] => ([], none)
  | (i, v) :: rest =>
    match try_ i v with
    | .ok l => ((i, 0, 0, 0) :: rest.map fun x => (x.1, 0x16, 0, 0), some (i, v, l))
    | .error (st, n, x) => let r := selectKernel try_ rest; ((i, st, n, x) :: r.1, r.2)

/-- Two bytes strings, one laid over the other at an offset. -/
def overlay (b : List Byte) (off : Nat) (x : List Byte) : List Byte := if off + x.length ≤ b.length then b.take off ++ x ++ b.drop (off + x.length) else b

/-- Free granules: a run of `n` from the firmware's choice on (R170, R396, R403). Log 21 (DESIGN CHOICE). -/
def freeGranules (s : State) (p n : Nat) : Option Nat :=
  if 2 ^ 21 < n then none
  else (((List.range ((s.granules.length + 1) * (n + 1))).map fun i => (p + i) % 2 ^ 21).find? fun g =>
    decide (g + n ≤ 2 ^ 21) && (List.range n).all fun i => decide (Tab.get 0 s.granules (g + i) = 0#16))

/-- Granules given to a colour. -/
def ownGranules (s : State) (g n colour : Nat) : State :=
  (List.range n).foldl (fun s i => setGranule s (g + i) (BitVec.ofNat 16 (0x4000 + colour % 4096))) s

/-- A global address of this device. -/
def globalOf (l : Nat) : Nat := Config.selfDevice * 2 ^ 43 + l

/-- The code capability of a region (R170). -/
def codeCap (l size colour : Nat) : Cap :=
  match canonLen size with
  | some (ls, n) => capSeal { bits := capBits (BitVec.ofNat 52 (globalOf l)) (BitVec.ofNat 2 ls) (BitVec.ofNat 34 n) 0x005 (BitVec.ofNat 12 colour) 1 0 0 0, tag := true } 1
  | none => nullCap

/-- A capability stored in local HBM as a write by another party, with its tag (R28). -/
def putCap (s : State) (l : Nat) (c : Cap) : State := otherWrite 2 s l (toBytes 16 c.bits.toNat) c.tag 0

/-- What a load gives: the object's status, the reports of its variants, and the status of each kernel by its entry (R171). The report of R403 holds the variants. -/
structure LoadResult where
  status : Nat
  handle : Nat
  record : Nat
  reason : Nat
  report : List (Nat × Nat × Nat × Int)
  kernels : List (Nat × Nat)
  deriving DecidableEq, Repr

/-- A load that failed (R171). Log 43 (DEDUCED). -/
def loadFail (st record reason : Nat) : LoadResult := { status := st, handle := 0, record := record, reason := reason, report := [], kernels := [] }

/-- The selected kernels of an object. -/
def kernelInfos (sel : List (Nat × Option (Nat × VarRec × List Patch))) : List KernelInfo :=
  sel.filterMap fun x => x.2.map fun v =>
    { entry := x.1, offset := v.2.1.codeOff, gang := v.2.1.gang, regs := v.2.1.regs, preds := v.2.1.preds, stages := v.2.1.stages, tiles := v.2.1.tiles, scratch := v.2.1.scratch }

/-- The code image with its patches and its entry table (R155, R166, R168). The offset of a variant record whose ENTRY is not below ECOUNT has no place in the table
and is not written. Log 43 (DEDUCED). -/
def codeImage (b : List Byte) (h : ObjHeader) (patches : List Patch) (entries : List (Nat × Nat)) : List Byte :=
  let c0 := (b.drop h.textOff).take h.textSize
  let c1 := patches.foldl (fun c p => match p with
    | .word off w => overlay c off (toBytes 8 w.toNat)
    | .cap _ _ => c) c0
  entries.foldl (fun c e => if e.1 < field b h.textOff 4 then overlay c (4 + 4 * e.1) (toBytes 4 e.2) else c) c1

/-- The symbols an object exports: name, section, S, and entry (R160). -/
def exportsOf (g : Nat) (syms : List SymRec) : List (List Byte × Nat × Nat × Nat) :=
  (syms.filter fun y => decide (y.bind = 1) && decide (y.sect ≠ 0)).map fun y => (y.name, y.sect, if y.sect = 2 then g + y.value else y.value, y.entry)

/-- The code capability a GOT slot receives (R168). Log 43 (DEDUCED). -/
def gotCap (c : Ctx) (own : Cap) (syms : List SymRec) (k : Nat) : Cap :=
  match syms[k]? with
  | some y => if y.sect = 0 then (match exported c y.name with
      | some (o, _) => o.code
      | none => nullCap) else own
  | none => nullCap

/-- An object placed (R168, R170): image, capability slots, code, GOT, and the record of it. `p` is the code region's first granule. -/
def placeObject (s : State) (ctx : Nat) (b : List Byte) (h : ObjHeader) (g p : Nat) (shared : List Patch) (sel : List (Nat × Option (Nat × VarRec × List Patch)))
    (syms : List SymRec) (rels : List RelRec) : State × Nat :=
  let c := ctxAt s ctx
  let base := localOf (capBase c.c0)
  let l := p * 2 ^ 21
  let own := codeCap l h.textSize (col0 c.colours)
  let entries := sel.map fun x => (x.1, match x.2 with
    | some v => v.2.1.codeOff
    | none => 0xFFFFFFF8)
  let code := codeImage b h (shared ++ sel.flatMap fun x => match x.2 with
    | some v => v.2.2
    | none => []) entries
  let s1 := ownGranules s p ((h.textSize + 2 ^ 21 - 1) / 2 ^ 21) (col0 c.colours)
  let s2 := otherWrite (h.imgSize + 1) s1 (base + g) ((b.drop h.imgOff).take h.imgSize) false 0
  let s3 := otherWrite (code.length + 1) s2 l code false 0
  let s4 := shared.foldl (fun s x => match x with
    | .cap off k => putCap s (base + g + off) k
    | .word _ _ => s) s3
  let gots := gotSymbols rels
  let s5 := ((List.range (min h.gotCount gots.length)).zip gots).foldl (fun s x => putCap s (base + g - 16 * (h.gotCount - x.1)) (gotCap c own syms x.2)) s4
  let o : Object := { handle := c.nextHandle, lo := g - 16 * h.gotCount, hi := g + h.imgSize, gbase := g, code := own, entries := field b h.textOff 4, time := homeMax s5,
                      kernels := kernelInfos sel, exports := exportsOf g syms }
  (updCtx s5 ctx fun c => { c with objects := c.objects ++ [o], nextHandle := c.nextHandle + 1 }, c.nextHandle)

/-- The loader (R168): the state, and the load's result; none where no granule is free for the code. A record whose OWNER is neither a variant record nor 0xFFFF is
of no owner that is tried, and is not computed. Log 21 (DESIGN CHOICE), 43 (DEDUCED). -/
def loadObject (s : State) (ctx : Nat) (b : List Byte) : Option (State × LoadResult) :=
  let c := ctxAt s ctx
  match checkHeader b with
  | .error st => some (s, loadFail st 0 0)
  | .ok h =>
    match chooseG c (occupied s ctx c) h with
    | none => some (s, loadFail 0x03 0 0)
    | some g =>
      let vars := variantsOf b h
      let syms := symbolsOf b h
      let rels := relocsOf b h
      match ownerPatches c b g h vars syms rels 0xFFFF with
      | .error (n, st, _) => some (s, loadFail 0x04 n st)
      | .ok shared =>
        let entries := (vars.map (·.entry)).eraseDups
        let tries := entries.map fun e => (e, selectKernel (tryVariant s ctx b g h vars syms rels) (tryOrder vars e))
        match freeGranules s (Config.place s.free) ((h.textSize + 2 ^ 21 - 1) / 2 ^ 21) with
        | none => none
        | some p =>
          let r := placeObject (bump s) ctx b h g p shared (tries.map fun t => (t.1, t.2.2)) syms rels
          some (r.1, { status := 0, handle := r.2, record := 0, reason := 0, report := sortBy (·.1) (tries.flatMap fun t => t.2.1),
                         kernels := tries.map fun t => (t.1, if t.2.2.isSome then 0 else 0x20) })

/-- The report of a load: a record of 16 bytes for each variant, as many as fit (R403). -/
def reportBytes (l : List (Nat × Nat × Nat × Int)) (n : Nat) : List Byte :=
  (l.take (n / 16)).flatMap fun x => toBytes 4 x.1 ++ toBytes 4 x.2.1 ++ toBytes 4 x.2.2.1 ++ toBytes 4 (BitVec.ofInt 32 x.2.2.2).toNat

/-- OBJECT_UNLOAD (R172): the object leaves the context's set; its code region and its range are marked for revocation. Not while the revocation set has no
room. Log 44 (DEDUCED). -/
def execObjectUnload (ctx object : Nat) (s : State) : Result :=
  .next (
    let c := ctxAt s ctx
    match c.objects.find? fun o => o.handle = object with
    | none => s
    | some o =>
      if 255 ≤ s.rake.entries.length then s
      else
        let mark := fun (base len : Nat) (whose : Option Nat) =>
          ({ base := base, len := len, relocate := false, delta := 0, colour := BitVec.ofNat 12 (col0 c.colours), pass := waitingPass s.rake false,
             unloads := whose } : RakeEntry)
        let new := [mark (capBase o.code) (capLen o.code) none, mark ((capBase c.c0 + o.lo) % 2 ^ 52) (o.hi - o.lo) (some ctx)].filter fun e => decide (e.len ≠ 0)
        updRake (updCtx s ctx fun c => { c with objects := c.objects.filter fun x => decide (x.handle ≠ object) }) fun r => { r with entries := r.entries ++ new })

end Sys2Proof.Machine
end

