-- ==== Sys2Proof/Machine/Admin.lean ====
section
/-! DEFINITION. The admin commands (R399 to R405, R412, R416, R429, R434, R435, R439, R441, R442). -/

namespace Sys2Proof.Machine

/-- Colours of a function's set (R400): a VF's own, and for the PF every colour that no VF holds. -/
def fnColour (s : State) (fn c : Nat) : Bool :=
  decide (1 ≤ c) && decide (c ≤ 4095) && (if fn = 0 then !(s.host.funcs.any fun f => decide (f.1 ≠ 0) && f.2.colours.contains c) else (funcAt s fn).colours.contains c)

/-- Another function holds a colour (R400). -/
def heldElsewhere (s : State) (fn c : Nat) : Bool := (List.range 64).any fun f => decide (f ≠ fn) && fnColour s f c

/-- A colour list keeps R400 for a function: slot 0 is valid and no other function's, every valid slot is of the set.
Log 45 (DESIGN CHOICE). -/
def coloursOk (s : State) (fn : Nat) (w : DWord) : Bool :=
  w.getLsbD 48 && (validColours w).all (fnColour s fn) && !heldElsewhere s fn (col0 w)

/-- The host address of the command at HEAD of a function's admin ring (R402, R438). Log 45 (DESIGN CHOICE). -/
def adminSlot (f : Func) : Nat := f.adminBase.toNat / 64 * 64 + 64 * (f.adminHead.toNat % max 1 f.adminSize.toNat)

/-- The command at HEAD of a function's admin ring is read from the ring (R402, R438, R442): the ring is enabled and holds one, firmware runs, no command is in
progress. What host memory holds there comes with the event. Log 45 (DESIGN CHOICE). -/
def adminTake (s : State) (fn : Nat) : Option State :=
  let f := funcAt s fn
  if 64 ≤ fn ∨ !fnEnabled s fn ∨ !f.adminCtl.getLsbD 0 ∨ f.adminHead = f.adminTail ∨ s.host.migration.isSome ∨ !s.boot.usable then none
  else some (updFunc (send s (.hostRead fn (adminSlot f) 64)) fn fun f => { f with adminHead := f.adminHead + 1 })

/-- The completion of a command (R402, R415). -/
def complete (s : State) (fn cid status data : Nat) : State := raiseEvent s fn (eventBytes 0x01 status cid 0 data)

/-- The opcodes that name a command (R402, R403, R441). -/
def adminCodes : List Nat := [1, 2, 3, 4, 5, 6, 7, 8, 9, 0x0A, 0x0B, 0x40, 0x41, 0x42, 0x43, 0x44]

/-- Bytes that a command does not name are zero (R403). -/
def reservedZero (b : List Byte) (named : List (Nat × Nat)) : Bool :=
  (List.range 64).all fun i => decide (i = 0) || decide (i = 2) || decide (i = 3) || (named.any fun r => decide (r.1 ≤ i) && decide (i < r.1 + r.2)) || decide (b.getD i 0 = 0)

/-- A command's CID (R403). -/
def cidOf (b : List Byte) : Nat := field b 2 2

/-- An admin command (R402, R403): taken from the ring, its reserved bytes tested, then its own effect, a status and a result. An opcode that no command uses
gives status 0x01. A body that answers none completes later. Log 45 (DESIGN CHOICE). -/
def adminCmd (s : State) (fn : Nat) (cmd : List Byte) (code : Nat) (pfOnly : Bool) (named : List (Nat × Nat)) (body : State → State × Option (Nat × Nat)) : Result :=
  .next (
    let b := (cmd ++ List.replicate 64 0).take 64
    match adminTake s fn with
    | none => s
    | some s1 =>
      if field b 0 1 ≠ code then (if adminCodes.contains (field b 0 1) then s else complete s1 fn (cidOf b) 0x01 0)
      else if !reservedZero b named then complete s1 fn (cidOf b) 0x01 0
      else if pfOnly ∧ fn ≠ 0 then complete s1 fn (cidOf b) 0x03 0
      else
        match body s1 with
        | (s2, some (st, data)) => complete s2 fn (cidOf b) st data
        | (s2, none) => s2)

/-- A context of a function (R399). -/
def ownCtx (s : State) (fn k : Nat) : Bool := decide (k < 256) && decide ((ctxAt s k).state ≠ .free) && decide ((ctxAt s k).func = fn)

/-- The command is done, or refused with a status. -/
def done (s : State) : State × Option (Nat × Nat) := (s, some (0, 0))
def refusedCmd (s : State) (st : Nat) : State × Option (Nat × Nat) := (s, some (st, 0))

/-- ADMIN_DB (R402): the new tail. -/
def execAdminDb (fn : Nat) (tail : Word) (s : State) : Result :=
  .next (if fn < 64 then updFunc s fn fun f => { f with adminTail := tail } else s)

/-- The globals capability of a new context over granules that firmware chooses (R12, R17): KIND 0, LD, ST, LDC, STC and ATM, the context's COL0.
Log 21 (DESIGN CHOICE). -/
def globalsCap (g n colour : Nat) : Cap :=
  match canonLen (n * 2 ^ 21) with
  | some (ls, l) => { bits := capBits (BitVec.ofNat 52 (globalOf (g * 2 ^ 21))) (BitVec.ofNat 2 ls) (BitVec.ofNat 34 l) 0x03B (BitVec.ofNat 12 colour) 0 0 0 0, tag := true }
  | none => nullCap

/-- CTX_CREATE (R400, R402 to R404): a free record, a save area in granules of colour 0, and globals in granules of COL0.
Log 21 (DESIGN CHOICE), 45 (DESIGN CHOICE). -/
def execCtxCreate (fn : Nat) (cmd : List Byte) (s : State) : Result :=
  adminCmd s fn cmd 0x01 false [(8, 8), (16, 4), (20, 2), (24, 8)] fun s =>
    let cols := BitVec.ofNat 64 (field cmd 8 8)
    let n := (field cmd 24 8 + 2 ^ 21 - 1) / 2 ^ 21
    if cols.extractLsb' 52 12 ≠ 0 then refusedCmd s 0x01
    else if !coloursOk s fn cols then refusedCmd s 0x05
    else
      match (List.range 256).find? (fun k => decide ((ctxAt s k).state = .free)), freeGranules s (Config.place s.free) n with
      | some k, some g =>
        let s1 := ownGranules (bump s) g n 0
        let m := Config.freeNat s1.free % 512 + 1
        match freeGranules s1 (Config.place s1.free) m with
        | none => refusedCmd s 0x02
        | some h =>
          let s2 := ownGranules (bump s1) h m (col0 cols)
          (updCtx s2 k fun _ => { ctxFree with state := .idle, func := fn, colours := cols, phmargin := BitVec.ofNat 32 (field cmd 16 4), quota := field cmd 20 2,
                                               saveBase := globalOf (g * 2 ^ 21), saveLen := n * 2 ^ 21, c0 := globalsCap h m (col0 cols) }, some (0, k))
      | _, _ => refusedCmd s 0x02

/-- CTX_HANDLER (R384, R403, R404). -/
def execCtxHandler (fn : Nat) (cmd : List Byte) (s : State) : Result :=
  adminCmd s fn cmd 0x02 false [(8, 1), (16, 4), (20, 2)] fun s =>
    let k := field cmd 8 1
    let c := ctxAt s k
    if !ownCtx s fn k then refusedCmd s 0x03
    else if c.state = .halted ∨ c.state = .lost then refusedCmd s 0x04
    else
      match c.objects.find? fun o => o.handle = field cmd 16 4 with
      | none => refusedCmd s 0x03
      | some o =>
        if o.entries ≤ field cmd 20 2 then refusedCmd s 0x01
        else done (updCtx s k fun c => { c with handler := o.code, hentry := field cmd 20 2 })

/-- Requests of some colours in flight are answered void (R412): their stores write nothing. -/
def voidColours (s : State) (cols : List Nat) : State :=
  updNet s fun n => { n with stores := n.stores.filter fun p => !cols.contains (capColour p.cap), acks := n.acks.filter fun a => !cols.contains a.colour,
                             renews := n.renews.filter fun r => !cols.contains r.colour, wbs := n.wbs.filter fun w => !cols.contains w.colour,
                             held := n.held.filter fun h => match h with
                               | .store p => !cols.contains (capColour p.cap)
                               | .renew r => !cols.contains r.colour
                               | .back w => !cols.contains w.colour
                               | .mail _ _ => true
                               | .ingress _ => true
                               | .window _ _ _ _ _ _ => true
                               | .lane _ _ _ => true }

/-- What of a context is on its way is dropped. -/
def dropFlight (s : State) (k : Nat) : State :=
  let mine := fun (sh : Nat) => match sheaf? s sh with
    | some sf => decide (sf.ctx = k)
    | none => false
  updNet s fun n =>
    { n with stores := n.stores.filter fun p => decide (p.who.ctx ≠ k), acks := n.acks.filter fun a => decide (a.who.ctx ≠ k),
             csends := n.csends.filter fun m => !mine m.sh, crecvs := n.crecvs.filter fun m => !mine m.sh,
             peerReqs := n.peerReqs.filter fun r => decide (r.ln = queueLane) || !mine r.sh, pcieReqs := n.pcieReqs.filter fun r => !mine r.sh,
             pcieWrites := n.pcieWrites.filter fun p => decide (p.who.ctx ≠ k),
             packets := n.packets.filter fun p => match Tab.at? s.launches p.launch with
               | some l => decide (l.ctx ≠ k)
               | none => true,
             held := n.held.filter fun h => match h with
               | .store p => decide (p.who.ctx ≠ k)
               | .mail _ m => !mine m.sh
               | .lane sh _ _ => !mine sh
               | .renew _ => true
               | .back _ => true
               | .ingress _ => true
               | .window _ _ _ _ _ _ => true }

/-- Cluster units forget lines of some colours, and updates of a context. -/
def dropUnits (s : State) (cols : List Nat) : State :=
  { s with clusters := s.clusters.map fun u => (u.1, { u.2 with lines := u.2.lines.filter fun l => !cols.contains l.2.colour }) }

/-- Queues destroyed (R412): their pending bits, marks and requests go with them, and a launch that one of them made ends as no queue's command. -/
def dropQueues (s : State) (p : Nat → QueueSt → Bool) : State :=
  let gone := (s.host.queues.filter fun q => p q.1 q.2).map (·.1)
  let keep := fun (o : Option Nat) => o.filter fun n => !gone.contains n
  let s1 := gone.foldl dropQueue s
  { s1 with host := { s1.host with queues := (s1.host.queues.filter fun q => !p q.1 q.2).map fun q => (q.1, { q.2 with marked := keep q.2.marked }) },
            launches := s1.launches.map fun l => (l.1, { l.2 with queue := keep l.2.queue }) }

/-- Granules written to zero with their tags, and set free (R412). -/
def wipeGranules (s : State) (p : Nat → BitVec 16 → Bool) : State :=
  let gs := (s.granules.filter fun g => p g.1 g.2).map (·.1)
  let s1 := gs.foldl (fun s g => setGranule s g 0) s
  { s1 with mem := s1.mem.filter (fun e => !gs.contains (e.1 / 2 ^ 21)), tags := s1.tags.filter fun t => !gs.contains (t.1 / 131072) }

/-- A context leaves without save (R412): nothing of it stays on the device; its record is FREE. Log 46 (DEDUCED). -/
def dropContext (s : State) (k : Nat) : State :=
  let s1 := leaveCores (dropFlight s k) k
  let s2 := { s1 with launches := s1.launches.filter fun l => decide (l.2.ctx ≠ k) }
  let s3 := { s2 with host := { s2.host with funcs := s2.host.funcs.map fun f => (f.1, { f.2 with windows := f.2.windows.filter fun w => decide (w.2.ctx ≠ k) }) } }
  updCtx s3 k fun _ => ctxFree

/-- A granule entry that a colour owns, in transit or not (R266). -/
def ownedBy (cols : List Nat) (e : BitVec 16) : Bool :=
  (decide (e.extractLsb' 14 2 = 1#2) || decide (e.extractLsb' 14 2 = 2#2)) && cols.contains (e.extractLsb' 0 12).toNat

/-- The granules of a context's save area. -/
def saveGranules (c : Ctx) (g : Nat) : Bool := decide (localOf c.saveBase / 2 ^ 21 ≤ g) && decide (g < (localOf c.saveBase + c.saveLen) / 2 ^ 21)

/-- CTX_DESTROY (R404, R412). -/
def execCtxDestroy (fn : Nat) (cmd : List Byte) (s : State) : Result :=
  adminCmd s fn cmd 0x03 false [(8, 1)] fun s =>
    let k := field cmd 8 1
    let c := ctxAt s k
    if !ownCtx s fn k then refusedCmd s 0x03
    else if !(decide (c.state = .idle) || decide (c.state = .saved) || decide (c.state = .halted) || decide (c.state = .lost)) then refusedCmd s 0x04
    else
      let cols := (validColours c.colours).filter fun x => !(s.ctxs.any fun d => decide (d.1 ≠ k) && decide (d.2.state ≠ .free) && decide (d.2.func = fn) &&
        (validColours d.2.colours).contains x)
      let s1 := dropQueues (dropContext (dropUnits (voidColours s cols) cols) k) fun _ q => decide (q.ctx = k)
      done (wipeGranules s1 fun g e => ownedBy cols e || saveGranules c g)

/-- OBJ_LOAD (R168, R171, R403, R404): `file` is what host memory holds. Log 43 (DEDUCED). -/
def execObjLoad (fn : Nat) (cmd file : List Byte) (s : State) : Result :=
  adminCmd s fn cmd 0x04 false [(8, 1), (16, 8), (24, 4), (32, 8), (40, 4)] fun s =>
    let k := field cmd 8 1
    let c := ctxAt s k
    if !ownCtx s fn k then refusedCmd s 0x03
    else if c.state = .halted ∨ c.state = .lost then refusedCmd s 0x04
    else
      match loadObject (send s (.hostRead fn (field cmd 16 8) (field cmd 24 4))) k (file.take (field cmd 24 4)) with
      | none => refusedCmd s 0x02
      | some (s1, r) =>
        let b := reportBytes r.report (field cmd 40 4)
        let s2 := if field cmd 32 8 = 0 ∨ b.isEmpty then s1 else send s1 (.hostWrite fn (field cmd 32 8) b)
        let low := if r.status = 0x04 then r.record + r.reason * 2 ^ 40 else r.handle
        (s2, some (0, low + r.status * 2 ^ 32))

/-- The place of a ring (R403, R407): an offset of the context's `c0`, or a host address. -/
def ringPlace (c : Ctx) (kind addr n : Nat) : Option Nat :=
  if kind = 0 then (if c.c0.tag ∧ addr + n ≤ capLen c.c0 then some ((capBase c.c0 + addr) % 2 ^ 52) else none)
  else if kind = 1 then (if addr + n ≤ 2 ^ 41 then some (globalOf (2 ^ 42 + addr)) else none)
  else none

/-- RING (R403): a data capability with LD and the context's COL0. -/
def ringCap (base n colour : Nat) : Cap :=
  match canonLen n with
  | some (ls, l) => { bits := capBits (BitVec.ofNat 52 base) (BitVec.ofNat 2 ls) (BitVec.ofNat 34 l) 0x001 (BitVec.ofNat 12 colour) 0 0 0 0, tag := true }
  | none => nullCap

/-- A power of two within bounds. -/
def powerIn (n lo hi : Nat) : Bool := (List.range 17).any fun k => decide (n = 2 ^ k) && decide (lo ≤ n) && decide (n ≤ hi)

/-- Q_CREATE (R403, R407). -/
def execQCreate (fn : Nat) (cmd : List Byte) (s : State) : Result :=
  adminCmd s fn cmd 0x05 false [(8, 2), (10, 1), (11, 1), (12, 4), (16, 1), (24, 8)] fun s =>
    let q := field cmd 8 2
    let k := field cmd 10 1
    let n := field cmd 12 4
    let c := ctxAt s k
    if !ownCtx s fn k then refusedCmd s 0x03
    else if 16384 ≤ q ∨ 7 < field cmd 11 1 ∨ !powerIn n 2 65536 ∨ 1 < field cmd 16 1 then refusedCmd s 0x01
    else
      match queueAt s q, ringPlace c (field cmd 16 1) (field cmd 24 8) (128 * n) with
      | some x, _ => refusedCmd s (if x.func = fn then 0x02 else 0x03)
      | none, none => refusedCmd s 0x01
      | none, some base =>
        let x : QueueSt := { ring := ringCap base (128 * n) (col0 c.colours), size := n, head := 0, tail := 0, ctx := k, prio := field cmd 11 1, state := 0, func := fn,
                             waited := 0, pending := false, slot := none, marked := none, raw := none, waiting := none, answered := none, buf := [],
                             launch := none }
        done { s with host := { s.host with queues := Tab.put s.host.queues q x } }

/-- Q_DESTROY (R403). -/
def execQDestroy (fn : Nat) (cmd : List Byte) (s : State) : Result :=
  adminCmd s fn cmd 0x06 false [(8, 2)] fun s =>
    match queueAt s (field cmd 8 2) with
    | some x => if x.func = fn then done (dropQueues s fun q _ => decide (q = field cmd 8 2)) else refusedCmd s 0x03
    | none => refusedCmd s 0x03

/-- The sites of a kind on a die (R263, R324, R416, R423): its slices, its links to the other dies, its cores' feed queues, and its cores' runner FIFOs.
Log 53 (DESIGN CHOICE). -/
def monSites (kind : Nat) : Nat := if kind = 0 then 64 else if kind = 1 then 8 else if kind = 2 then 448 else 56

/-- MON_SET (R403, R416). -/
def execMonSet (fn : Nat) (cmd : List Byte) (s : State) : Result :=
  adminCmd s fn cmd 0x07 false [(8, 1), (9, 1), (10, 1), (11, 1), (12, 2), (14, 2)] fun s =>
    let key := field cmd 9 1 * 16 + field cmd 8 1
    if 15 < field cmd 8 1 ∨ 7 < field cmd 9 1 ∨ 3 < field cmd 10 1 ∨ 1 < field cmd 11 1 ∨ monSites (field cmd 10 1) ≤ field cmd 12 2 then refusedCmd s 0x01
    else if !fnColour s fn (field cmd 14 2) then refusedCmd s 0x05
    else
      match Tab.at? s.host.monitors key with
      | some m => if m.func ≠ fn then refusedCmd s 0x02 else bind s key
      | none => bind s key
where
  bind (s : State) (key : Nat) : State × Option (Nat × Nat) :=
    let m : Monitor := { func := fn, kind := field cmd 10 1, quantity := field cmd 11 1, site := field cmd 12 2, colour := field cmd 14 2, min := 2 ^ 32 - 1, max := 0, bins := [] }
    done { s with host := { s.host with monitors := Tab.put s.host.monitors key m } }

/-- CNT_CLEAR (R403). -/
def execCntClear (fn : Nat) (cmd : List Byte) (s : State) : Result :=
  adminCmd s fn cmd 0x08 false [(8, 1), (9, 1), (10, 1)] fun s =>
    let k := field cmd 8 1
    if !ownCtx s fn k then refusedCmd s 0x03
    else done (updCtx s k fun c => { c with ovf := c.ovf &&& ~~~(BitVec.ofNat 8 (field cmd 9 1)),
                                            cnt := c.cnt.filter fun x => !(field cmd 10 1).testBit x.1 })

/-- APERTURE (R439, R441). -/
def execAperture (fn : Nat) (cmd : List Byte) (s : State) : Result :=
  adminCmd s fn cmd 0x09 false [(8, 1), (9, 1), (10, 2), (16, 8), (24, 8)] fun s =>
    let w := field cmd 8 1
    let k := field cmd 9 1
    let o := field cmd 16 8
    let n := field cmd 24 8
    if 15 < w ∨ 1023 < field cmd 10 2 then refusedCmd s 0x01
    else if !ownCtx s fn k then refusedCmd s 0x03
    else if n = 0 then done (updFunc s fn fun f => { f with windows := Tab.drop f.windows w })
    else if 2 ^ 32 < n ∨ capLen (ctxAt s k).c0 < o + n ∨ (capNarrow (ctxAt s k).c0 o n).isNone then refusedCmd s 0x01
    else done (updFunc s fn fun f => { f with windows := Tab.put f.windows w { ctx := k, off := o, len := n, mask := BitVec.ofNat 10 (field cmd 10 2), refusals := 0 } })

/-- MON_READ (R403, R416): minimum, maximum and the 16 bins, of the function's own point. -/
def execMonRead (fn : Nat) (cmd : List Byte) (s : State) : Result :=
  adminCmd s fn cmd 0x0A false [(8, 1), (9, 1), (16, 8)] fun s =>
    if 15 < field cmd 8 1 ∨ 7 < field cmd 9 1 then refusedCmd s 0x01
    else
      match Tab.at? s.host.monitors (field cmd 9 1 * 16 + field cmd 8 1) with
      | some m =>
        if m.func ≠ fn then refusedCmd s 0x03
        else done (send s (.hostWrite fn (field cmd 16 8) (toBytes 4 m.min ++ toBytes 4 m.max ++ (List.range 16).flatMap fun i => toBytes 4 (Tab.get 0 m.bins i))))
      | none => refusedCmd s 0x03

/-- The code of a context's state (R403). -/
def ctxCode (x : CtxState) : Nat :=
  match x with
  | .free => 0
  | .idle => 1
  | .running => 2
  | .stopping => 3
  | .stopped => 4
  | .saving => 5
  | .saved => 6
  | .restoring => 7
  | .halted => 8
  | .lost => 9

/-- The 192 bytes of CTX_QUERY (R403). -/
def queryBytes (c : Ctx) : List Byte :=
  toBytes 1 (ctxCode c.state) ++ toBytes 1 c.func ++ [c.ovf] ++ toBytes 1 (if c.handler.tag then 1 else 0) ++ toBytes 4 c.phmargin.toNat ++ toBytes 8 c.colours.toNat ++
  toBytes 2 c.quota ++ toBytes 2 c.hentry ++ toBytes 4 c.loss ++ toBytes 8 c.saveBase ++ toBytes 8 c.saveLen ++
  ((List.range 8).flatMap fun k => toBytes 8 (Tab.get 0 c.cnt k)) ++ ((List.range 8).flatMap fun k => toBytes 4 (Tab.get 0 c.csel k).toNat) ++
  [c.haltrec.reason, c.haltrec.cause] ++ toBytes 2 c.haltrec.sheaf.toNat ++ toBytes 4 c.haltrec.finfo.toNat ++ toBytes 4 c.haltrec.fpc.toNat ++ toBytes 4 0 ++
  toBytes 8 c.haltrec.mask.toNat ++ toBytes 32 0

/-- CTX_QUERY (R403). -/
def execCtxQuery (fn : Nat) (cmd : List Byte) (s : State) : Result :=
  adminCmd s fn cmd 0x0B false [(8, 1), (16, 8)] fun s =>
    let k := field cmd 8 1
    if !ownCtx s fn k then refusedCmd s 0x03 else done (send s (.hostWrite fn (field cmd 16 8) (queryBytes (ctxAt s k))))

/-- VF_COLOURS (R400, R402, R403): a change that would break R400 for a context is refused. Log 45 (DESIGN CHOICE). -/
def execVfColours (fn : Nat) (cmd : List Byte) (colours : List Nat) (s : State) : Result :=
  adminCmd s fn cmd 0x40 true [(8, 1), (9, 1), (16, 8)] fun s =>
    let v := field cmd 8 1
    let l := (colours.take (field cmd 9 1)).eraseDups
    if v < 1 ∨ 63 < v ∨ 64 < field cmd 9 1 ∨ l.any (fun c => decide (4095 < c)) then refusedCmd s 0x01
    else if l.contains 0 then refusedCmd s 0x05
    else
      let s1 := updFunc (send s (.hostRead fn (field cmd 16 8) (2 * field cmd 9 1))) v fun f => { f with colours := l }
      if s1.ctxs.all fun c => decide (c.2.state = .free) || coloursOk s1 c.2.func c.2.colours then done s1 else refusedCmd s 0x05

/-- An entry of the quantum table that QTAB_WRITE refuses (R405). -/
def qtRefused (s : State) (e : QWord) : Bool :=
  let l := qtList e
  let fns := l.map (·.1)
  qtV e && (decide (qtLen e = 0) || decide (qtSlots e < 1) || decide (8 < qtSlots e)) || decide (fns.eraseDups.length ≠ fns.length) || decide (64 < (l.map (·.2)).sum) ||
    (List.range fns.length).any fun i => (List.range i).any fun j => (funcAt s (fns.getD i 0)).colours.any fun c => fnColour s (fns.getD i 0) c && fnColour s (fns.getD j 0) c

/-- QTAB_WRITE (R405): reserved bits read as zero. -/
def execQtabWrite (fn : Nat) (cmd : List Byte) (s : State) : Result :=
  adminCmd s fn cmd 0x41 true [(8, 1), (16, 16)] fun s =>
    let e := BitVec.ofNat 128 (field cmd 16 16) &&& ~~~(BitVec.ofNat 128 (127 * 2 ^ 56))
    if 63 < field cmd 8 1 ∨ qtRefused s e then refusedCmd s 0x01
    else done { s with host := { s.host with qtab := Tab.set 0 s.host.qtab (field cmd 8 1) e } }

/-- PCT_WRITE (R429, R441): LOCAL is never 0; reserved bits read as zero. -/
def execPctWrite (fn : Nat) (cmd : List Byte) (s : State) : Result :=
  adminCmd s fn cmd 0x43 true [(8, 2), (16, 8)] fun s =>
    let e := BitVec.ofNat 64 (field cmd 16 8 % 2 ^ 44)
    if 1023 < field cmd 8 2 ∨ (e.getLsbD 43 ∧ pctLocal e = 0) then refusedCmd s 0x01
    else done { s with fabric := { s.fabric with pct := Tab.set 0 s.fabric.pct (field cmd 8 2) e } }

/-- The output of ATTEST (R441, R442). -/
def attestBytes (b : Boot) (nonce : List Byte) : List Byte :=
  let m := toBytes 32 b.measure.toNat
  toBytes 4 b.log.length ++ toBytes 4 0 ++ m ++ ((List.range 2420).map fun i => Config.signByte (nonce ++ m) i) ++ toBytes 4 0 ++ b.log.flatMap fun d => toBytes 32 d.toNat

/-- ATTEST (R441, R442). -/
def execAttest (fn : Nat) (cmd : List Byte) (s : State) : Result :=
  adminCmd s fn cmd 0x44 false [(8, 32), (40, 8), (48, 4)] fun s =>
    if field cmd 48 4 < 2464 + 32 * s.boot.log.length then refusedCmd s 0x01
    else done (send s (.hostWrite fn (field cmd 40 8) (attestBytes s.boot ((cmd ++ List.replicate 64 0).drop 8 |>.take 32))))

/-- The granules of a context's colours, lowest first (R434). -/
def ctxGranules (s : State) (c : Ctx) : List Nat := (s.granules.filter fun g => ownedBy (validColours c.colours) g.2).map (·.1)

/-- CTX_MIGRATE (R434, R435, R441): the command begins; it completes once step 7 is done. Log 48 (DESIGN CHOICE). -/
def execCtxMigrate (fn : Nat) (cmd mask : List Byte) (queues : List Nat) (s : State) : Result :=
  adminCmd s fn cmd 0x42 true [(8, 1), (9, 1), (10, 1), (11, 1), (12, 2), (14, 1), (16, 8), (24, 8), (32, 8), (40, 2)] fun s =>
    let k := field cmd 8 1
    let c := ctxAt s k
    let base := field cmd 16 8
    let gs := ctxGranules s c
    let lo := gs.headD 0
    let dies := gs.map fun g => (localOf base / 2 ^ 21 + (g - lo)) * 2 ^ 21 / 2 ^ 39
    let here := field cmd 9 1 = 0
    let peers := if field cmd 24 8 = 0 then [] else keptPeers s (maskPeers (ofBytes (mask.take 64)))
    if c.state = .free then refusedCmd s 0x03
    else if 1 < field cmd 9 1 ∨ base % 2 ^ 21 ≠ 0 ∨ 2 ^ 52 ≤ base then refusedCmd s 0x01
    else if here ∧ (regionOf s.fabric.number base ≠ .hbm ∨ dies.any (fun d => decide (d < field cmd 10 1) || decide (field cmd 11 1 < d) || decide (7 < d))) then refusedCmd s 0x01
    else if !here ∧ (510 < field cmd 12 2 ∨ 63 < field cmd 14 1 ∨ (routeOf s (field cmd 12 2)).isEmpty) then refusedCmd s 0x01
    else if !here ∧ Config.freeBool s.free then refusedCmd (bump s) 0x05
    else if c.state = .halted ∨ c.state = .lost then refusedCmd s 0x04
    else if here ∧ gs.any (fun g => decide (Tab.get 0 s.granules (localOf base / 2 ^ 21 + (g - lo)) ≠ 0#16)) then refusedCmd s 0x02
    else
      let m : Migration := { fn := fn, cid := cidOf cmd, ctx := k, peer := if here then none else some (field cmd 12 2, field cmd 14 1), base := base, mask := peers,
                             queues := queues.take (field cmd 40 2), held := false, pass := none }
      ({ s with host := { s.host with migration := some m } }, none)

/-- The watch entries on the lines of a granule that leaves its home are struck (R275, R434). -/
def strikeGranule (s : State) (g : Nat) : State :=
  { s with cores := s.cores.map fun c => (c.1, { c.2 with watch := c.2.watch.map fun w => if w.line / 16384 = g then { w with struck := true } else w }) }

/-- Every granule that a migration moves is set to in transit, so that accesses to it are held at its home (R27, R434).
Log 48 (DESIGN CHOICE). -/
def holdGranules (s : State) (gs : List Nat) : State := gs.foldl (fun s g => setGranule s g (Tab.get 0 s.granules g &&& 0x0FFF#16 ||| 0x8000#16)) s

/-- A granule moved with its bytes and tags to another, of the same owner (R434); what was held at it meets a free granule.
Log 48 (DESIGN CHOICE). -/
def moveGranule (s : State) (g d : Nat) : State :=
  let e := Tab.get 0 s.granules g &&& 0x0FFF#16 ||| 0x4000#16
  let bytes := s.mem.filter fun x => decide (x.1 / 2 ^ 21 = g)
  let tags := s.tags.filter fun x => decide (x.1 / 131072 = g)
  let s1 := setGranule (setGranule (strikeGranule s g) g 0) d e
  { s1 with mem := bytes.foldl (fun m x => Tab.set 0 m (x.1 - g * 2 ^ 21 + d * 2 ^ 21) x.2) s1.mem,
            tags := tags.foldl (fun t x => Tab.set false t (x.1 - g * 131072 + d * 131072) x.2) s1.tags }

/-- A capability of the device's own records that names the moved range (R434). -/
def moveCap (p : Pass) (c : Cap) : Cap := passCap p c

/-- Firmware's own records of a context after its move that no pass of R332 reaches: its globals, handler, objects, code, signals and rings (R434). -/
def moveRecords (s : State) (k : Nat) (p : Pass) : State :=
  let s1 := updCtx s k fun c => { c with c0 := moveCap p c.c0, handler := moveCap p c.handler, objects := c.objects.map fun o => { o with code := moveCap p o.code } }
  let moveLaunch := fun (l : Launch) =>
    { l with code := moveCap p l.code, signal := moveCap p l.signal,
             runner := l.runner.map fun r => { r with ovf := moveCap p r.ovf } }
  let moveQueue := fun (q : QueueSt) => { q with ring := moveCap p q.ring }
  let s2 := { s1 with launches := s1.launches.map fun (l : Nat × Launch) => (l.1, if l.2.ctx = k then moveLaunch l.2 else l.2) }
  let s3 := { s2 with host := { s2.host with queues := s2.host.queues.map fun (q : Nat × QueueSt) => (q.1, if q.2.ctx = k then moveQueue q.2 else q.2) } }
  let th := fun (x : Thread) => { x with code := moveCap p x.code }
  updCtx s3 k fun c => { c with image := c.image.map fun i => { i with sheaves := i.sheaves.map fun e => (e.1,
    { e.2 with lanes := e.2.lanes.map fun l => (l.1, th l.2), subs := e.2.subs.map fun b => (b.1, { b.2 with savedCode := moveCap p b.2.savedCode }) }) } }

/-- The ranges of a migration's relocate pass: one for each colour (R434). -/
def migrateRanges (s : State) (c : Ctx) (base : Nat) : List SweepRange :=
  let gs := ctxGranules s c
  let lo := gs.headD 0
  let hi := gs.getLastD 0
  (validColours c.colours).map fun col =>
    { base := globalOf (lo * 2 ^ 21), len := (hi + 1 - lo) * 2 ^ 21, relocate := true, delta := BitVec.ofNat 52 (base + 2 ^ 52 - globalOf (lo * 2 ^ 21)), colour := BitVec.ofNat 12 col }

/-- Steps 4 to 6 of R434 on this device: the granules and the save area move, held accesses meet their old granules, and the relocate pass is queued.
Log 48 (DESIGN CHOICE). -/
def migrateHere (s : State) (m : Migration) : State :=
  let c := ctxAt s m.ctx
  let gs := ctxGranules s c
  let lo := gs.headD 0
  let rs := migrateRanges s c m.base
  let p : Pass := { number := 0, relocate := true, ranges := rs, peers := [], swept := false, cursor := 0, leases := 0, origin := none, ctx := none }
  if 256 < s.rake.entries.length + rs.length then s
  else
    let mark := updRake s fun r => { r with entries := r.entries ++ rs.map fun x =>
      { base := x.base, len := x.len, relocate := true, delta := x.delta, colour := x.colour, pass := none, unloads := none } }
    match queuePass mark true m.mask none with
    | (_, none) => s
    | (s1, some n) =>
      let s2 := gs.foldl (fun s g => moveGranule s g (localOf m.base / 2 ^ 21 + (g - lo))) s1
      let k := c.saveLen / 2 ^ 21
      let s3 := match freeGranules s2 (Config.place s2.free) k with
        | some d => updCtx ((List.range k).foldl (fun s i => moveGranule s (localOf c.saveBase / 2 ^ 21 + i) (d + i)) (bump s2)) m.ctx fun c => { c with saveBase := globalOf (d * 2 ^ 21) }
        | none => s2
      let s4 := updCtx (moveRecords s3 m.ctx p) m.ctx fun c => { c with state := .saved }
      { s4 with host := { s4.host with migration := some { m with pass := some n } } }

/-- A context moved to a peer (R434, R435): its granules are sent and set free; it is re-created there, and its queues here are destroyed.
Log 48 (DESIGN CHOICE). -/
def migrateAway (s : State) (m : Migration) (peer fn : Nat) : State :=
  let c := ctxAt s m.ctx
  let gs := ctxGranules s c
  let bytes := s.mem.filter fun x => gs.contains (x.1 / 2 ^ 21)
  let tags := (s.tags.filter fun x => gs.contains (x.1 / 131072) && x.2).map (·.1)
  let rs := migrateRanges s c m.base
  if 256 < s.rake.entries.length + rs.length then s
  else
    let mark := updRake s fun r => { r with entries := r.entries ++ rs.map fun x =>
      { base := x.base, len := x.len, relocate := true, delta := x.delta, colour := x.colour, pass := none, unloads := none } }
    match queuePass mark true m.mask none with
    | (_, none) => s
    | (s1, some n) =>
      let s2 := wipeGranules (send (gs.foldl strikeGranule s1) (.peerMigrate peer fn m.base bytes tags m.queues)) fun g _ => gs.contains g || saveGranules c g
      let s3 := dropQueues (dropContext s2 m.ctx) fun _ q => decide (q.ctx = m.ctx)
      { s3 with host := { s3.host with migration := some { m with pass := some n } } }

/-- A command of one of a context's queues is in progress (R434). -/
def queuesBusy (s : State) (k : Nat) : Bool := s.host.queues.any fun q => decide (q.2.ctx = k) && inProgress q.2

/-- The migration in progress takes its next step (R434): commands begun complete, the context is stopped and saved, its granules are held, its memory moves, and
the relocate pass ends.
Log 48 (DESIGN CHOICE). -/
def migrateStep (s : State) : State :=
  match s.host.migration with
  | none => s
  | some m =>
    match m.pass with
    | some n => if passState s.rake n = 0 then complete { s with host := { s.host with migration := none } } m.fn m.cid 0 0 else s
    | none =>
      if queuesBusy s m.ctx ∧ (ctxAt s m.ctx).state ≠ .halted ∧ (ctxAt s m.ctx).state ≠ .lost then s
      else
        match (ctxAt s m.ctx).state with
        | .running => updCtx s m.ctx fun c => { c with state := .stopping, why := some .migration, acks := [] }
        | .idle => go s m
        | .saved => go s m
        | .free => complete { s with host := { s.host with migration := none } } m.fn m.cid 0x04 0
        | .halted => complete { s with host := { s.host with migration := none } } m.fn m.cid 0x04 0
        | .lost => complete { s with host := { s.host with migration := none } } m.fn m.cid 0x04 0
        | _ => s
where
  go (s : State) (m : Migration) : State :=
    if !m.held then
      let s1 := holdGranules s (ctxGranules s (ctxAt s m.ctx))
      { s1 with host := { s1.host with migration := some { m with held := true } } }
    else
      match m.peer with
      | none => migrateHere s m
      | some (p, fn) => migrateAway s m p fn

end Sys2Proof.Machine
end

