-- ==== Sys2Proof/Machine/Ecc.lean ====
section
/-! DEFINITION. Uncorrectable ECC errors (R380, R391, R392): in what a word reads, in a transfer, and in a save area. -/

namespace Sys2Proof.Machine

/-- The registers that a register field reads. -/
def useReads (u : Use) : List Nat :=
  match u with
  | .src x w => span x.reg w
  | .code r w => span r w
  | .both r w => span r w
  | .gOnly r => [r.toNat]
  | _ => []
where
  span (r : BitVec 8) (w : Wd) : List Nat := (List.range (match w with
    | .one => 1
    | .quad => 4
    | _ => 2)).map fun i => r.toNat + i

/-- The register fields of a word. -/
def wordUses (i : Instr) : List Use :=
  match i with
  | .pairWord x y _ => slotUses x ++ slotUses y
  | _ => (wordChk i).uses

/-- The accumulator blocks that a word reads (R327, R366, R369). -/
def blockReads (e : Env) (i : Instr) : List Nat :=
  let named := fun (r : BitVec 8) (f64 : Bool) => match namedBlocks (coreAt e.s (coreOf e.sh)) e.sf (lead8 e r) f64 with
    | .ok l => l
    | .error _ => []
  match i with
  | .mma _ o => match teamOf e.s e.sf with
    | some t => named o.x0 (decide ((tileAt e.s t.2.core (t.2.tbase + o.x1.toNat)).fmt = 14#4))
    | none => []
  | .accrd _ o => named o.x1 (o.t = 14#4)
  | .accst _ o => named o.x1 (o.t = 14#4)
  | _ => []

/-- The memory that a word reads in a lane: whether it is scratch, and the address or the scratch offset of its first byte, with their number. Words of local HBM
are LD, LDW, LDC and the atomics, words of scratch LDS and the atomics (R391). -/
def memoryReads (e : Env) (w : DWord) : Option (Bool × Nat × Nat) :=
  let o := readMF w
  let op := (w.extractLsb' 56 8).toNat
  let fn := (w.extractLsb' 52 4).toNat
  let n := szBytes o.sz
  let global := fun (k : Access) => match accessAddr e (memCap e o) k (memOff e o) n n with
    | .ok a => if regionOf e.s.fabric.number a = .hbm then some (false, a, n) else none
    | .error _ => none
  if op = 0x19 ∨ op = 0x18 ∧ fn = 7 then global (accAtomic true)
  else if op = 0x18 ∧ (fn = 0 ∨ fn = 2) then global accLoad
  else if op = 0x18 ∧ fn = 3 then global accLoadCap
  else if op = 0x1A ∨ op = 0x18 ∧ (fn = 5 ∨ fn = 8) then
    (match scratchAddr e o n with
    | .ok _ => some (true, (memOff e o).toNat, n)
    | .error _ => none)
  else none

/-- A site that an error in some data may have (R379): a data cache lies in scratch banks, a stack cache holds lines of stack capabilities. -/
def siteFits (e : Env) (w : DWord) (scratch : Bool) (site : Nat) : Bool :=
  if scratch then decide (site = 2) else decide (site ≤ 2) || (decide (site = 3) && decide (capKind (memCap e (readMF w)) = 4))

/-- ECC_UNCORRECTABLE with its site (R379), at an address or a scratch offset (R380). -/
def eccFault (site : BitVec 8) (a : Nat) (scr : Bool) : FaultInfo := { mkFault causeEcc 0 a with detail := site.setWidth 16, scr := scr }

/-- The fault of a lane that would receive the data at the word it is about to issue (R391); an error that its word does not read is none. -/
def eccLane (e : Env) (d : EccData) (site : BitVec 8) : Option FaultInfo :=
  let w := peekWord e.s e.th
  match d with
  | .fetch => if site.toNat ≤ 1 then some (eccFault site e.th.pc.toNat false) else none
  | d =>
    match decode e.sf.allocRegs e.sf.allocPreds w with
    | .error _ => none
    | .ok i =>
      if !(match i.guard with
        | some h => guardTrue e.th h
        | none => true) then none
      else
        match d with
        | .access k => (memoryReads e w).bind fun x =>
          if k < x.2.2 ∧ siteFits e w x.1 site.toNat then some (eccFault site (x.2.1 + k) x.1) else none
        | .register r => if site = 5#8 ∧ r.toNat < 192 ∧ (wordUses i).any (fun u => (useReads u).contains r.toNat) then some (eccFault site 0 false) else none
        | .block b => if site = 4#8 ∧ (blockReads e i).contains b then some (eccFault site 0 false) else none
        | .fetch => none

/-- An error that every lane of the issuing group receives: in the word, or in the operand of a word-scope operation. -/
def eccShared (d : EccData) : Bool :=
  match d with
  | .fetch => true
  | .block _ => true
  | _ => false

/-- The lanes that would receive the data, of the group about to issue that the first lane of a mask belongs to, with their faults (R391).
Log 40 (DESIGN CHOICE). -/
def eccLanes (s : State) (sh : Nat) (mask : Word) (d : EccData) (site : BitVec 8) : List ((Nat × Nat) × LaneRes) :=
  match sheaf? s sh with
  | none => []
  | some sf =>
    match leadOf sf mask with
    | none => []
    | some (_, lead) =>
      if sf.forming.isSome || !mayGoOn s sf lead || (fetchCheck s sf lead).isSome then []
      else
        let l := maskLanes sh (if eccShared d then groupMask sf lead else groupMask sf lead &&& mask)
        l.filterMap fun x => (envOf s l l x).bind fun e => (eccLane e d site).map fun f => (x, LaneRes.fault f)

/-- ECC_UNCORRECTABLE (R391, R392): the lanes that would receive the data form one parked sub-sheaf (R381); an engine's transfer stops as a check failure stops it
(R313, R318); a context whose save area holds the error is lost. Log 40 (DESIGN CHOICE). -/
def execEccUncorrectable (target : EccTarget) (s : State) : Result :=
  .next (match target with
    | .lanes sh mask d site => resumeAll s (eccLanes s sh mask d site)
    | .transfer core =>
      match (coreAt s core).copyq with
      | .tile _ _ i _ c off stride _ _ :: _ =>
        stopTransfer s core i causeEcc (((capBase c : Int) + off + (tileAt s core i).prog * stride) % (2 ^ 52 : Int)).toNat
      | .command ctx launch src dst sig soff doff len done tags hint _ :: _ => setHead s core (.command ctx launch src dst sig soff doff len done tags hint true)
      | [] => s
    | .save ctx reason => if (ctxAt s ctx).state = .saving ∧ 1 ≤ reason.toNat ∧ reason.toNat ≤ 5 then loseContext s ctx reason.toNat else s
    | .restore ctx =>
      if (ctxAt s ctx).state = .restoring then
        let s1 := loseContext s ctx 0x06
        { s1 with host := { s1.host with grants := Tab.drop s1.host.grants ctx } }
      else s)

end Sys2Proof.Machine
end

