-- ==== Sys2Proof/Machine/Host.lean ====
section
/-! DEFINITION. The host's side of the functions (R411 to R416, R437 to R440, R445): VF enable and reset, the event registers, BAR0 writes, the memory
aperture, counter overflow and monitor samples. -/

namespace Sys2Proof.Machine

/-- The VF enable register takes a value (R411): the running contexts of a VF whose bit is cleared are stopped, and a VF whose bit is set again takes part from its
next quantum on; bit 0 is reserved. -/
def setVfEn (s : State) (value : DWord) : State :=
  let v := value &&& ~~~1#64
  let back := (List.range 64).filter fun f => v.getLsbD f && !s.host.vfEn.getLsbD f
  let s1 := { s with host := { s.host with vfEn := v, idle := s.host.idle ++ back } }
  s1.ctxs.foldl (fun s c =>
    if c.2.state = .running ∧ !fnEnabled s1 c.2.func then updCtx s c.1 fun c => { c with state := .stopping, why := some .vfDisable, acks := [] } else s) s1

/-- VF_EN (R411). -/
def execVfEn (value : DWord) (s : State) : Result := .next (setVfEn s value)

/-- VF_RESET (R412): requests of the VF's colours are answered void, its contexts leave without save, its queues are destroyed, its granules are zero and free,
its monitors cleared. Log 47 (DESIGN CHOICE). -/
def execVfReset (vf : Nat) (s : State) : Result :=
  .next (if vf < 1 ∨ 63 < vf then s
    else
      let cols := (funcAt s vf).colours
      let ks := (s.ctxs.filter fun c => decide (c.2.func = vf) && decide (c.2.state ≠ .free)).map (·.1)
      let saves := ks.map fun k => ctxAt s k
      let s1 := ks.foldl dropContext (dropUnits (voidColours s cols) cols)
      let s2 := wipeGranules (dropQueues s1 fun _ q => decide (q.func = vf)) fun g e => ownedBy cols e || saves.any fun c => saveGranules c g
      { s2 with host := { s2.host with monitors := s2.host.monitors.filter fun m => decide (m.2.func ≠ vf) } })

/-- EVT_HEAD (R414, R438): room for held events. -/
def evtHead (s : State) (fn : Nat) (value : Word) : State := flushEvents 256 (updFunc s fn fun f => { f with evtHead := value }) fn

/-- EVT_HEAD (R414, R438). -/
def execEvtHead (fn : Nat) (value : Word) (s : State) : Result := .next (if fn < 64 then evtHead s fn value else s)

/-- EVT_CTL (R438): EN alone is kept; set, it lets held events be written. -/
def evtCtl (s : State) (fn : Nat) (value : Word) : State := flushEvents 256 (updFunc s fn fun f => { f with evtCtl := value &&& 1 }) fn

/-- EVT_CTL (R438). -/
def execEvtCtl (fn : Nat) (value : Word) (s : State) : Result := .next (if fn < 64 then evtCtl s fn value else s)

/-- One half of a 64-bit register. -/
def getHalf (r : DWord) (hi : Bool) : Word := if hi then r.extractLsb' 32 32 else r.setWidth 32

/-- APSTAT of a window (R438). -/
def apstat (f : Func) (w : Nat) : DWord :=
  match Tab.at? f.windows w with
  | some x => BitVec.ofNat 64 (1 + x.ctx % 256 * 2 ^ 8 + x.mask.toNat * 2 ^ 16 + x.refusals % 2 ^ 32 * 2 ^ 32)
  | none => 0

/-- The status register of a port (R425). -/
def portStatus (p : Port) : DWord :=
  BitVec.ofNat 64 (p.partner % 512 * 2 ^ 31 + p.epoch % 256 * 2 ^ 8 + (if p.sw then 8 else 0) + p.state % 8)

/-- What 32 bits of BAR0 of a function read (R7, R425, R438): a write-only register, a register of the PF in a VF and an offset that is not listed read 0. -/
def barReadWord (s : State) (fn off : Nat) : Word :=
  let f := funcAt s fn
  if off = 0x0 then BitVec.ofNat 32 (fn % 2 ^ 16 + 0x5358 * 2 ^ 16)
  else if off = 0x4 then Config.revision.setWidth 32
  else if off = 0x200 ∨ off = 0x204 then (if fn = 0 then getHalf s.host.vfEn (decide (off = 0x204)) else 0)
  else if off = 0x1008 ∨ off = 0x100C then getHalf f.adminBase (decide (off = 0x100C))
  else if off = 0x1010 then f.adminSize
  else if off = 0x1014 then f.adminHead
  else if off = 0x1018 then f.adminCtl
  else if off = 0x1100 ∨ off = 0x1104 then getHalf f.evtBase (decide (off = 0x1104))
  else if off = 0x1108 then f.evtSize
  else if off = 0x110C then f.evtTail
  else if off = 0x1110 then f.evtHead
  else if off = 0x1114 then f.evtCtl
  else if off = 0x1118 then f.evtDrop
  else if 0x2000 ≤ off ∧ off < 0x2080 ∧ off % 4 = 0 then getHalf (apstat f ((off - 0x2000) / 8)) (decide (off % 8 = 4))
  else if 0x4000 ≤ off ∧ off < 0x4120 ∧ off % 4 = 0 ∧ fn = 0 then getHalf (portStatus (portAt s ((off - 0x4000) / 8))) (decide (off % 8 = 4))
  else 0

/-- A read of BAR0 by the host (R437, R438): what it returns, all ones where it is not of 4 or 8 naturally aligned bytes; EVT_DROP is cleared by a read of it. -/
def barRead (s : State) (fn off width : Nat) : State × List Byte :=
  if !(decide (width = 4) || decide (width = 8)) ∨ off % width ≠ 0 then (s, List.replicate width 0xFF)
  else
    let b := toBytes 4 (barReadWord s fn off).toNat ++ (if width = 8 then toBytes 4 (barReadWord s fn (off + 4)).toNat else [])
    (if off = 0x1118 then updFunc s fn fun f => { f with evtDrop := 0 } else s, b)

/-- EVT_DROP (R438): a read returns the count and clears it. -/
def execEvtDrop (fn : Nat) (s : State) : Result :=
  .next (if fn < 64 then
      let r := barRead s fn 0x1118 4
      send r.1 (.barData fn r.2)
    else s)

/-- One half of a 64-bit register replaced. -/
def setHalf (r : DWord) (hi : Bool) (w : Word) : DWord := if hi then w ++ r.setWidth 32 else r.extractLsb' 32 32 ++ w

/-- A 32-bit word written to BAR0 of a function (R438): read-only registers and offsets not listed keep nothing of it; ADMIN_BASE and ADMIN_SIZE change only
while EN is 0. -/
def barWord (s : State) (fn off : Nat) (w : Word) : State :=
  let f := funcAt s fn
  let open_ := !f.adminCtl.getLsbD 0
  if off = 0x200 then (if fn = 0 then setVfEn s (setHalf s.host.vfEn false w) else s)
  else if off = 0x204 then (if fn = 0 then setVfEn s (setHalf s.host.vfEn true w) else s)
  else if off = 0x1008 then (if open_ then updFunc s fn fun f => { f with adminBase := setHalf f.adminBase false w } else s)
  else if off = 0x100C then (if open_ then updFunc s fn fun f => { f with adminBase := setHalf f.adminBase true w } else s)
  else if off = 0x1010 then (if open_ then updFunc s fn fun f => { f with adminSize := w } else s)
  else if off = 0x1018 then updFunc s fn fun f => { f with adminCtl := w &&& 1 }
  else if off = 0x1100 then updFunc s fn fun f => { f with evtBase := setHalf f.evtBase false w }
  else if off = 0x1104 then updFunc s fn fun f => { f with evtBase := setHalf f.evtBase true w }
  else if off = 0x1108 then updFunc s fn fun f => { f with evtSize := w }
  else if off = 0x1110 then evtHead s fn w
  else if off = 0x1114 then evtCtl s fn w
  else s

/-- REGISTER_WRITE (R7, R437, R438): 4 or 8 bytes, naturally aligned; ADMIN_DB takes its full width alone. -/
def execRegisterWrite (fn off width : Nat) (value : DWord) (s : State) : Result :=
  .next (if 64 ≤ fn ∨ !(decide (width = 4) || decide (width = 8)) ∨ off % width ≠ 0 then s
    else if off = 0x1000 then (if width = 4 then updFunc s fn fun f => { f with adminTail := value.setWidth 32 } else s)
    else
      let s1 := barWord s fn off (value.setWidth 32)
      if width = 8 then barWord s1 fn (off + 4) (value.extractLsb' 32 32) else s1)

/-- The capability of an aperture window (R439): `c0` narrowed, its permissions masked. -/
def windowCap (s : State) (w : Aperture) : Cap :=
  match capNarrow (ctxAt s w.ctx).c0 w.off w.len with
  | some c => capField c 30 10 (capPerm c &&& w.mask).toNat
  | none => nullCap

/-- The sizes R25 aligns an access of the host at. Log 46 (DEDUCED). -/
def windowAlign (n : Nat) : Nat := if [1, 2, 4, 8, 16].contains n then n else 1

/-- An access through a window checked by R25 with the context's colours (R439): its cause, or its address. A closed window covers nothing.
Log 46 (DEDUCED). -/
def windowCheck (s : State) (fn win off size : Nat) (k : Access) : Except Byte (Nat × Aperture × Cap) :=
  match Tab.at? (funcAt s fn).windows win with
  | none => .error causeBounds
  | some w =>
    let c := windowCap s w
    match checkCap s.fabric.number (ctxAt s w.ctx).colours c k off size (windowAlign size) with
    | .error x => .error x
    | .ok a => if regionOf s.fabric.number a ≠ .hbm then .error causePerm else .ok (a, w, c)

/-- A refused access (R439, R445): counted for the window, and told to the host. -/
def windowRefused (s : State) (fn win off : Nat) (cause : Byte) : State :=
  let s1 := updFunc s fn fun f => { f with windows := f.windows.map fun w => if w.1 = win then (w.1, { w.2 with refusals := min (2 ^ 32 - 1) (w.2.refusals + 1) }) else w }
  postEvent s1 fn 0x07 (win + cause.toNat * 256) off

/-- The lines of a read made at their homes. -/
def homeReads (s : State) (l n : Nat) : State := (List.range ((l + n - 1) / 128 - l / 128 + 1)).foldl (fun s i => (homeRead s (l / 128 + i) 0 0).1) s

/-- An access of the host held at a granule in transit (R27, R434). Log 46 (DEDUCED). -/
def heldWindow (s : State) (a fn win off size : Nat) (data : Option (List Byte)) : State :=
  updNet s fun n => { n with held := n.held ++ [.window (localOf a / 2 ^ 21) fn win off size data] }

/-- APERTURE_READ (R439): data without tags; a refused read completes with all ones. One at a granule in transit is held there.
Log 46 (DEDUCED). -/
def execApertureRead (fn win off size : Nat) (s : State) : Result :=
  .next (if 64 ≤ fn ∨ 15 < win ∨ size = 0 ∨ 4096 < size then s
    else
      let ones := Out.barData fn (List.replicate size 0xFF)
      match windowCheck s fn win off size accLoad with
      | .error x => send (windowRefused s fn win off x) ones
      | .ok (a, _, c) =>
        match granulesCheck s (localOf a) size (capColour c) with
        | .transit => heldWindow s a fn win off size none
        | .fail => send (windowRefused s fn win off causeGranule) ones
        | .pass => send (homeReads s (localOf a) size) (.barData fn (readMem s.mem (localOf a) size)))

/-- APERTURE_WRITE (R439): a write by another party, which clears tags; a refused write is discarded.
Log 46 (DEDUCED). -/
def execApertureWrite (fn win off : Nat) (data : List Byte) (s : State) : Result :=
  .next (if 64 ≤ fn ∨ 15 < win ∨ data.isEmpty then s
    else
      match windowCheck s fn win off data.length accStore with
      | .error x => windowRefused s fn win off x
      | .ok (a, _, c) =>
        match granulesCheck s (localOf a) data.length (capColour c) with
        | .transit => heldWindow s a fn win off data.length (some data)
        | .fail => windowRefused s fn win off causeGranule
        | .pass => otherWrite (data.length + 1) s (localOf a) data false 0)

/-- COUNTER_OVERFLOW (R413 to R415). -/
def execCounterOverflow (ctx k : Nat) (s : State) : Result :=
  .next (
    let v := Tab.get 0 (ctxAt s ctx).cnt k
    if 8 ≤ k ∨ v < 2 ^ 48 then s
    else
      let s1 := updCtx s ctx fun c => { c with cnt := Tab.put c.cnt k (v - 2 ^ 48), ovf := c.ovf ||| BitVec.ofNat 8 (2 ^ k) }
      postEvent s1 (ctxAt s1 ctx).func 0x04 (ctx + (ctxAt s1 ctx).ovf.toNat * 256) 0)

/-- The bin of a sample (R416). -/
def binOf (v : Nat) : Nat := if v = 0 then 0 else min 15 (Nat.log2 v + 1)

/-- A monitor with one sample captured (R416). -/
def capture (m : Monitor) (v : Nat) : Monitor :=
  { m with min := min m.min v, max := max m.max v, bins := Tab.put m.bins (binOf v) (min (2 ^ 32 - 1) (Tab.get 0 m.bins (binOf v) + 1)) }

/-- The requests of a colour that are on their way to home slices: core, and line. -/
def requestsOf (s : State) (colour : Nat) : List (Nat × Nat) :=
  ((s.net.renews.filter fun r => decide (r.colour = colour)).map fun r => (r.core, r.line)) ++
    ((s.net.stores.filter fun p => decide (capColour p.cap = colour)).map fun p => (p.core, lineOf (localOf p.addr))) ++
    ((s.net.csends ++ s.net.crecvs).filter fun m => decide (capColour m.cap = colour)).map fun m => (coreOf m.sh, lineOf (localOf (capBase m.cap)))

/-- A context whose COL0 is a colour (R400). -/
def ctxColour (s : State) (k colour : Nat) : Bool := decide (col0 (ctxAt s k).colours = colour)

/-- The level of a site's queue in entries, where it holds anything of a colour (R416): a slice's requests, those that cross a link to another die, a feed queue, or
the arrival FIFOs of a core. Log 53 (DESIGN CHOICE). -/
def siteLevel (s : State) (die kind site colour : Nat) : Option Nat :=
  match kind with
  | 0 => some ((requestsOf s colour).filter fun r => decide (homeOf r.2 = die * 64 + site)).length
  | 1 => some ((requestsOf s colour).filter fun r => decide (dieOfCore r.1 = die) && decide (homeOf r.2 / 64 = site) && decide (site ≠ die)).length
  | 2 =>
    let f := (coreAt s (die * 56 + site / 8)).feeder
    if f.team.isSome && ctxColour s f.ctx colour then some (Tab.get [] f.queues (site % 8)).length else none
  | _ =>
    let mine := s.launches.filter fun l => ctxColour s l.2.ctx colour
    some ((mine.map fun l => match l.2.runner with
      | some r => ((r.fifos.filter fun f => decide (f.1 % 512 = die * 56 + site)).map fun f => f.2.length).sum
      | none => 0).sum)

/-- What a monitor point captures in a cycle (R416): a queue's level; a latency in cycles the manual gives no rule for, so that which cycles have one, and its
value, are free. Log 53 (DESIGN CHOICE). -/
def sampleOf (s : State) (key : Nat) (m : Monitor) : Option Nat :=
  if m.quantity = 1 then siteLevel s (key / 16) m.kind m.site m.colour
  else if Config.freeBool s.free then some (Config.freeNat (s.free + 1) % 2 ^ 32) else none

/-- The monitor points in a cycle (R416). Log 53 (DESIGN CHOICE). -/
def sampleMonitors (s : State) : State :=
  s.host.monitors.foldl (fun s m =>
    let s1 := { s with free := s.free + 2 }
    match sampleOf s m.1 m.2 with
    | some v => { s1 with host := { s1.host with monitors := Tab.put s1.host.monitors m.1 (capture m.2 v) } }
    | none => s1) s

end Sys2Proof.Machine
end

