-- ==== Sys2Proof/Machine/Fabric.lean ====
section
/-! DEFINITION. Fabric ports (R425 to R428, R430 to R432, R445), boot (R442, R443) and the thermal limits (R444). -/

namespace Sys2Proof.Machine

/-- A colour list that holds one colour. -/
def oneColour (c : Nat) : DWord := BitVec.ofNat 64 (c % 4096 + 2 ^ 48)

/-- The capability of an inbound access as the port maps it, and the colour list it is tested against (R430, R431): an empty list where no entry is found. -/
def inboundCap (s : State) (r : IngressReq) : Cap × DWord :=
  match ingress s r.peer r.cap with
  | some (col, m) =>
    let c := capField { bits := r.cap.bits, tag := true } 18 12 col
    (capField c 30 10 (capPerm c &&& m).toNat, oneColour col)
  | none => ({ bits := r.cap.bits, tag := true }, 0)

/-- The capability or the data that an inbound access carries, as its sender had it: tagged where its CODE verifies (R29, R432). -/
def sentCap (r : IngressReq) : Cap :=
  match r.carried with
  | some w => { bits := w.bits, tag := w.codeOk }
  | none => { bits := if r.op = .csend then r.data2 else r.data, tag := false }

/-- The kind of an inbound access (R25, R431): a tagged capability that is stored asks for STC (R22). -/
def ingressAccess (r : IngressReq) : Access :=
  match r.op with
  | .load => accLoad
  | .store => accStore
  | .storeCheck => accStore
  | .loadCap => accLoadCap
  | .storeCap => accStoreCap (sentCap r)
  | .atom _ => accAtomic false
  | .cas => accAtomic false
  | .csend => accSend (sentCap r)
  | .crecv => accRecv
  | .sigwait => accLoad
  | .sigdone => accLoad

/-- The alignment of an inbound access (R26): its size, and 16 for one larger than 16 bytes. -/
def accessAlign (n : Nat) : Nat := if 16 < n then 16 else if [1, 2, 4, 8, 16].contains n then n else 1

/-- The bytes that an inbound access is checked for: the header of a mailbox, a granule, or its size. -/
def ingressSize (r : IngressReq) : Nat :=
  match r.op with
  | .csend => 64
  | .crecv => 64
  | .loadCap => 16
  | .storeCap => 16
  | _ => r.size

/-- An inbound access that writes what it carries. -/
def ingressStores (op : IngressOp) : Bool :=
  match op with
  | .store => true
  | .storeCheck => true
  | .storeCap => true
  | _ => false

/-- The bytes of data that the answer to an inbound access holds beside a capability. -/
def ingressBytes (r : IngressReq) : Nat :=
  match r.op with
  | .load => r.size
  | .atom _ => r.size
  | .cas => r.size
  | .crecv => 16
  | .csend => 1
  | .sigwait => r.size
  | _ => 0

/-- The answer to an inbound access: its flits are counted (R413), and a capability in it as one that crosses (R428). -/
def ingressReply (s : State) (r : IngressReq) (ans : PeerAnswer) : State :=
  let m := (portFor s r.peer (capBase { bits := r.cap.bits, tag := true } + r.off)).getD 0
  let s1 := countFabric (send s (.peerReply m r.peer ans)) 10 (flits (answerBytes (ingressBytes r) ans))
  if ans.cap.isSome then crossed s1 m 1 else s1

/-- The sender record that an inbound CSEND leaves (R138): its COLOUR mapped by the peer colour table, 0 without a mapping. -/
def mappedSender (s : State) (r : IngressReq) : DWord :=
  let col := (r.sender.extractLsb' 9 12).toNat
  let local_ := ((pctFind s fun x => pctPeer x == r.peer && pctRemote x == col).map pctLocal).getD 0
  r.sender &&& ~~~(BitVec.ofNat 64 (4095 * 512)) ||| BitVec.ofNat 64 (local_ % 4096 * 512)

/-- What an inbound CSEND or STC carries, as it arrives (R432). Log 51 (DEDUCED). -/
def arrived (s : State) (r : IngressReq) : Cap :=
  match r.carried with
  | some x => arriving s r.peer x
  | none => sentCap r

/-- A refusal travels back in the reply (R431). Log 14 (DEDUCED). -/
def ingressRefuse (s : State) (r : IngressReq) (cause reason : Byte) : State :=
  ingressReply s r { time := 0, data := 0, cap := none, refused := some (cause, reason) }

/-- An inbound access at its home (R273, R274, R430 to R432): what it does, its time, the value and the capability it returns.
Log 50 (DEDUCED), 51 (DEDUCED). -/
def ingressEffect (s : State) (r : IngressReq) (c : Cap) (l : Nat) : State × Nat × Nat × Option Cap :=
  let pc := r.time.toNat
  let read := fun (n : Nat) => ofBytes (readMem s.mem l n)
  let rmw := fun (x : Rmw) =>
    match x.next r.size (read r.size) with
    | some v => let w := homeWrite s pc l (toBytes r.size v) false 0; (w.1, w.2, read r.size, (none : Option Cap))
    | none => let t := homeRead s (lineOf l) pc 0; (t.1, t.2, read r.size, none)
  match r.op with
  | .load => let t := homeRead s (lineOf l) pc 0; (t.1, t.2, read r.size, none)
  | .loadCap =>
    let t := homeRead s (lineOf l) pc 0
    (t.1, t.2, read 16, some (rakeFilter s { bits := BitVec.ofNat 128 (read 16), tag := Tab.get false s.tags (l / 16) }))
  | .store => let w := homeWrite s pc l (toBytes r.size r.data.toNat) false 0; (w.1, w.2, 0, none)
  | .storeCheck => (s, 0, 0, none)
  | .storeCap =>
    let v := arrived s r
    let w := homeWrite s pc l (toBytes 16 v.bits.toNat) v.tag 0
    (w.1, w.2, 0, none)
  | .atom k => rmw (.op k.toNat (r.data.toNat % 2 ^ (8 * r.size)))
  | .cas => rmw (.cas (r.data.toNat % 2 ^ (8 * r.size)) (r.data2.toNat % 2 ^ (8 * r.size)))
  | .csend =>
    let m := mailSend s pc c (arrived s r) (r.data.setWidth 64) (mappedSender s r)
    (m.1, m.2.1, if m.2.2 then 1 else 0, none)
  | .crecv =>
    let m := mailRecv s pc c
    (m.1, m.2.1, m.2.2.2.1.toNat + m.2.2.2.2.toNat * 2 ^ 64, some m.2.2.1)
  | .sigwait =>
    let t := homeRead s (lineOf l) pc 0
    (updNet t.1 fun n => { n with sigs := n.sigs ++ [(l, r)] }, t.2, read r.size, none)
  | .sigdone => (s, 0, 0, none)

/-- A capability that CSEND carries fails at the port: CODE or no entry (R139, R432). -/
def carriedFails (s : State) (r : IngressReq) : Bool :=
  match r.op, r.carried with
  | .csend, some x => !x.codeOk || (ingress s r.peer x).isNone
  | _, _ => false

/-- A wait of a peer that has been registered at a line of local HBM ends (R241). Log 65 (DESIGN CHOICE). -/
def endSig (s : State) (r : IngressReq) : State :=
  let a := localOf (capBase { bits := r.cap.bits, tag := true } + r.off)
  match s.net.sigs.find? fun x => decide (x.1 = a) && decide (x.2.peer = r.peer) with
  | some x => updNet s fun n => { n with sigs := n.sigs.erase x }
  | none => s

/-- The waits of peers registered on a line are answered afresh after a write to it (R241); one whose granule has left its colour is refused, one at a granule in
transit is answered later (R27). -/
def peerSignals (s : State) (line : Nat) : State :=
  (s.net.sigs.filter fun x => decide (lineOf x.1 = line)).foldl (fun s x =>
    let c := (inboundCap s x.2).1
    match granuleCheck s x.1 (capColour c) with
    | .transit => s
    | .fail => ingressRefuse (updNet s fun n => { n with sigs := n.sigs.erase x }) x.2 causeGranule 0x74
    | .pass =>
      let t := homeRead s line x.2.time.toNat 0
      ingressReply t.1 x.2 { time := BitVec.ofNat 64 t.2, data := BitVec.ofNat 128 (ofBytes (readMem s.mem x.1 x.2.size)), cap := none, refused := none }) s

/-- INGRESS_ACCESS (R431, R432): CODE, the tests of R25, GranuleCheck, then the effect; the first failure is the one reported. An access at a granule in transit
is held there (R27). Its flits are counted (R413). Log 51 (DEDUCED). -/
def ingressAt (s : State) (r : IngressReq) : State :=
    if r.op = .sigdone then endSig s r
    else if !r.cap.codeOk then ingressRefuse s r causeTag 0x76
    else
      let x := inboundCap s r
      match checkCap s.fabric.number x.2 x.1 (ingressAccess r) r.off (ingressSize r) (accessAlign (ingressSize r)) with
      | .error c => ingressRefuse s r c 0x76
      | .ok a =>
        if regionOf s.fabric.number a ≠ .hbm then ingressRefuse s r causePerm 0x76
        else
          match granulesCheck s (localOf a) (ingressSize r) (capColour x.1) with
          | .transit => updNet s fun n => { n with held := n.held ++ [.ingress r] }
          | .fail => ingressRefuse s r causeGranule (if ingressStores r.op then 0x75 else 0x74)
          | .pass =>
            if (r.op = .csend ∨ r.op = .crecv) ∧ mailShort s x.1 then ingressRefuse s r causeBounds 0x76
            else if carriedFails s r then ingressRefuse s r causeColour 0x76
            else
              let e := ingressEffect (countSlice s (lineOf (localOf a)) (capColour x.1)) r x.1 (localOf a)
              ingressReply e.1 r { time := BitVec.ofNat 64 e.2.1, data := BitVec.ofNat 128 e.2.2.1, cap := e.2.2.2.map (egress s r.peer), refused := none }

/-- INGRESS_ACCESS (R431, R432). Log 51 (DEDUCED). -/
def execIngressAccess (req : IngressReq) (s : State) : Result :=
  .next (ingressAt (countFabric s 11 (flits (wireBytes req.op req.size req.carried.isSome))) req)

/-- The state with a port changed. -/
def updPort (s : State) (k : Nat) (f : Port → Port) : State := { s with fabric := { s.fabric with ports := Tab.put s.fabric.ports k (f (portAt s k)) } }

/-- The accesses outstanding on a port are answered void with reason 0x77 (R427). Log 14 (DEDUCED), 50 (DEDUCED). -/
def voidPort (s : State) (port : Nat) : State :=
  let mine := s.net.peerReqs.filter fun r => decide (r.port = port)
  mine.foldl (fun s r => refuse s r causeGranule 0x77) (updNet s fun n => { n with peerReqs := n.peerReqs.filter fun r => decide (r.port ≠ port) })

/-- PORT_STATE_CHANGE (R425, R427, R445): a port that leaves state 3 voids what is outstanding on it, and the PF is told. -/
def execPortStateChange (port state : Nat) (s : State) : Result :=
  .next (if 36 ≤ port ∨ 4 < state ∨ (portAt s port).state = state then s
    else
      let was := (portAt s port).state
      let s1 := updPort s port fun p => { p with state := state, partner := if state = 0 then 0x1FF else p.partner, sw := p.sw && decide (state ≠ 0) }
      if was = 3 then postEvent (voidPort s1 port) 0 0x09 (port + state * 256) 0 else s1)

/-- The routes once a port is joined to a partner (R426): the port leads to the partner alone, or to every peer that a switch reaches.
Log 49 (DESIGN CHOICE). -/
def rerouted (t : Tab (List Nat)) (port partner : Nat) : Tab (List Nat) :=
  let peers := if partner = 0x1FF then (List.range 511).filter (Config.behindSwitch port) else [partner]
  peers.foldl (fun t p => Tab.put t p (Tab.get [] t p ++ [port])) (t.map fun e => (e.1, e.2.filter fun k => decide (k ≠ port)))

/-- KEY_AGREEMENT (R425, R426, R428): a port whose partner signs is up under a new key and the next epoch, both accepted for 1,024 cycles; else it stays in
state 4. The partner 0x1FF is a switch. Log 49 (DESIGN CHOICE). -/
def execKeyAgreement (port partner : Nat) (signed : Bool) (s : State) : Result :=
  .next (
    let p := portAt s port
    if 36 ≤ port ∨ 511 < partner ∨ !(decide (p.state = 2) || decide (p.state = 3)) then s
    else if !signed then
      (if p.state = 3 then postEvent (voidPort (updPort s port fun p => { p with state := 4 }) port) 0 0x09 (port + 4 * 256) 0 else updPort s port fun p => { p with state := 4 })
    else
      let s1 := updPort s port fun p => { p with state := 3, partner := partner, sw := decide (partner = 0x1FF), epoch := p.epoch + 1, grace := some (s.cycle + 1024), crossed := 0 }
      { s1 with fabric := { s1.fabric with routes := rerouted s1.fabric.routes port partner } })

/-- EPOCH_GRACE_END (R428). Log 50 (DEDUCED). -/
def execEpochGraceEnd (port : Nat) (s : State) : Result := .next (if port < 36 then updPort s port fun p => { p with grace := none } else s)

/-- THERMAL_STOP (R444, R445): at 115 °C every running context is stopped, and a thermal event is raised; the temperature comes in tenths of a degree.
Log 52 (DEDUCED). -/
def execThermalStop (die temp : Nat) (s : State) : Result :=
  .next (if 8 ≤ die ∨ temp < 1150 then s
    else
      let s1 := updDie s die fun d => { d with temp := temp, hot := true }
      let s2 := s1.ctxs.foldl (fun s c => if c.2.state = .running then updCtx s c.1 fun c => { c with state := .stopping, why := some .thermal, acks := [] } else s) s1
      postEvent s2 0 0x08 die temp)

/-- THERMAL_RESUME (R444, R445): below 95 °C contexts may be restored at the next quantum. Log 52 (DEDUCED). -/
def execThermalResume (die temp : Nat) (s : State) : Result :=
  .next (if 8 ≤ die ∨ 950 ≤ temp ∨ !(dieAt s die).hot then s
    else postEvent (updDie s die fun d => { d with temp := temp, hot := false }) 0 0x08 (die + 256) temp)

/-- The digest of a firmware image verifies (R442). -/
def imageOk (image sig : List Byte) : Bool := Config.verify (Config.sha3 image) sig

/-- The measurement of the stages that run (R442). -/
def measureStages (l : List (BitVec 256)) : BitVec 256 := l.foldl (fun m d => Config.sha3 (toBytes 32 m.toNat ++ toBytes 32 d.toNat)) 0

/-- Every granule of a die poisoned (R443). -/
def poisonDie (s : State) (d : Nat) : State :=
  { s with granules := (s.granules.filter fun e => decide (e.1 < d * 262144)) ++ ((List.range 262144).map fun i => (d * 262144 + i, 0xC000#16)) ++
                       s.granules.filter fun e => decide ((d + 1) * 262144 ≤ e.1) }

/-- A step of a unit written OK or FAIL in the boot record (R443). -/
def bootMark (t : Tab BootMark) (step unit : Nat) (ok : Bool) : Tab BootMark := Tab.put t (step * 64 + unit) (if ok then .ok else .fail)

/-- The boot record up to the training of the bridges, without which the boot stops (R443): steps are die firmware 0, HBM training 1, core test 2, bridge
training 3. Log 49 (DESIGN CHOICE). -/
def earlyRecord (old : Tab BootMark) (b : BootInput) : Tab BootMark :=
  let t1 := (List.range 8).foldl (fun t d => bootMark (bootMark t 0 d true) 1 d (!b.absentStackDies.contains d)) old
  let t2 := (List.range 64).foldl (fun t c => bootMark t 2 c (!b.sixCoreClusters.contains c)) t1
  bootMark t2 3 0 b.bridgesOk

/-- The boot record after a boot (R443): then port training 4, where a skipped port keeps its entry, and PCIe training 5. Log 49 (DESIGN CHOICE). -/
def bootRecord (old : Tab BootMark) (b : BootInput) : Tab BootMark :=
  let t := (List.range 36).foldl (fun t p => if (Tab.at? old (4 * 64 + p)).any (fun m => decide (m ≠ BootMark.ok)) then t else bootMark t 4 p (!b.failedPorts.contains p)) (earlyRecord old b)
  bootMark t 5 0 true

/-- A port that training skips or that fails (R443): it stays in state 4. -/
def portFails (old : Tab BootMark) (b : BootInput) (p : Nat) : Bool :=
  b.failedPorts.contains p || (Tab.at? old (4 * 64 + p)).any (fun m => decide (m ≠ BootMark.ok))

/-- BOOT (R425, R442, R443): the image of slot A, else of slot B; without either only the PF is presented. The stages are measured, the steps recorded, absent
stacks' dies poisoned, six-core clusters noted, ports trained to key agreement, and the fabric number given by firmware.
Log 49 (DESIGN CHOICE). -/
def execBoot (input : BootInput) (s : State) : Result :=
  .next (if s.boot.done then s
    else if !imageOk input.imageA input.sigA ∧ !imageOk input.imageB input.sigB then
      { s with boot := { s.boot with done := true, usable := false } }
    else if !input.bridgesOk then { s with boot := { s.boot with done := true, usable := false, record := earlyRecord s.boot.record input } }
    else
      let dies := (List.range 8).filter fun d => input.absentStackDies.contains d
      let s1 := dies.foldl poisonDie s
      let s2 := (List.range 36).foldl (fun s p => updPort s p fun x => { x with state := if portFails s1.boot.record input p then 4 else 2 }) s1
      { s2 with
        free := s2.free + 1,
        fabric := { s2.fabric with number := Config.freeNat s2.free % 511 },
        boot := { done := true, usable := true, measure := measureStages input.stages, log := input.stages, sixCore := (List.range 64).filter fun c => input.sixCoreClusters.contains c,
                  absent := dies, record := bootRecord s1.boot.record input } })

end Sys2Proof.Machine
end

