-- ==== Sys2Proof/Machine/Lane.lean ====
section
/-! DEFINITION. LANE (R226 to R234): shuffles, votes, ballots, and the reduction tree of R52. -/

namespace Sys2Proof.Machine

/-- The participating lanes of a lane's gang, ascending, each as the word sees it, by gang position (R226).
Log 60 (DEDUCED). -/
def gangParts (e : Env) : List (Nat × Env) :=
  e.parts.filterMap fun a =>
    match envOf e.s e.acts e.parts a with
    | some x =>
      if e.sf.width = 64 ∨ (a.1 = e.sh ∧ gangBase e.sf.width a.2 = gangBase e.sf.width e.ln) then some (gangPos x.sf a.2, x) else none
    | none => none

/-- A LANE word: every lane's writes from what the lanes held before it (R227). -/
def laneOp (h : Guard) (f : Env → List (Nat × Env) → Wr) (s : State) : Result :=
  .next (computeOk h (fun e => f e (gangParts e)) s)

/-- The gang position of a lane. -/
def posOf (e : Env) : Nat := gangPos e.sf e.ln

/-- SHFL (R231). -/
def execShfl (h : Guard) (o : Tri) (s : State) : Result :=
  laneOp h (fun e ps =>
    let t := o.t.toNat
    let i := (src e o.b 0).toNat
    let from_ := if e.sf.width ≤ i then none else (ps.filter fun x => x.1 ≤ i).getLast?
    wrT o.d t (match from_ with
      | some x => srcT x.2 o.a t
      | none => srcT e o.c t)) s

/-- SHFLP (R231): the highest-numbered lane that pushes to this one wins. -/
def execShflp (h : Guard) (o : Tri) (s : State) : Result :=
  laneOp h (fun e ps =>
    match (ps.filter fun x => (src x.2 o.b 0).toNat = posOf e).getLast? with
    | some x => wrT o.d o.t.toNat (srcT x.2 o.a o.t.toNat)
    | none => wrNone) s

/-- VANY (R232). -/
def execVany (h : Guard) (o : Tri) (s : State) : Result :=
  laneOp h (fun _ ps => wrPred o.d.toNat (ps.any fun x => pReg x.2.th o.a.reg.toNat)) s

/-- VALL (R232). -/
def execVall (h : Guard) (o : Tri) (s : State) : Result :=
  laneOp h (fun _ ps => wrPred o.d.toNat (ps.all fun x => pReg x.2.th o.a.reg.toNat)) s

/-- The mask of one half of the gang's lanes that satisfy a condition (R233). -/
def halfMask (ps : List (Nat × Env)) (half : Nat) (p : Env → Bool) : Word :=
  maskOf ((ps.filter fun x => decide (x.1 / 32 = half) && p x.2).map fun x => x.1 % 32)

/-- The half a lane reports: its own, or with H = 1 the other (R233). -/
def halfOf (e : Env) (o : Tri) : Nat := if o.b.num % 2 = 1 then 1 - posOf e / 32 else posOf e / 32

/-- BALLOT (R233). -/
def execBallot (h : Guard) (o : Tri) (s : State) : Result :=
  laneOp h (fun e ps =>
    let p := fun (x : Env) => pReg x.th o.a.reg.toNat
    if o.t = 14#4 then wrPair o.d (halfMask ps 1 p ++ halfMask ps 0 p) else wrReg o.d (halfMask ps (halfOf e o) p)) s

/-- MATCH (R233). -/
def execMatchm (h : Guard) (o : Tri) (s : State) : Result :=
  laneOp h (fun e ps =>
    let key := fun (x : Env) => srcT x o.a o.t.toNat
    wrReg o.d (halfMask ps (halfOf e o) fun x => key x == key e)) s

/-- One node of the tree of R52: the operation of the control byte on a type (R234). -/
def reduceNode (op t rm : Nat) (ftz : Bool) (a b : DWord) : DWord × Word :=
  if isFloat t then
    match op with
    | 0 => perElem2 t (addBits t rm ftz) a b
    | 1 => perElem2 t (minMaxBits false t ftz) a b
    | _ => perElem2 t (minMaxBits true t ftz) a b
  else
    let x := a.setWidth 32
    let y := b.setWidth 32
    let r : Word := match op with
      | 0 => opAdd t x y
      | 1 => opMin t x y
      | 2 => opMax t x y
      | 3 => x &&& y
      | 4 => x ||| y
      | _ => x ^^^ y
    (r.setWidth 64, 0)

/-- The tree over 2^k positions: the lower half is the left operand (R52). -/
def treeValue (f : DWord → DWord → DWord × Word) : Nat → List DWord → DWord × Word
  | 0, l => (l.headD 0, 0)
  | k + 1, l =>
    let a := treeValue f k (l.take (2 ^ k))
    let b := treeValue f k (l.drop (2 ^ k))
    let r := f a.1 b.1
    (r.1, a.2 ||| b.2 ||| r.2)

/-- The combination of positions 0 to i: aligned blocks by the bits of i + 1, largest first, joined left to right (R52). -/
def scanFrom (f : DWord → DWord → DWord × Word) (n : Nat) : Nat → List DWord → Option (DWord × Word) → Option (DWord × Word)
  | 0, l, acc =>
    if n % 2 = 1 then
      let v := treeValue f 0 l
      match acc with
      | none => some v
      | some a => let r := f a.1 v.1; some (r.1, a.2 ||| v.2 ||| r.2)
    else acc
  | k + 1, l, acc =>
    if n / 2 ^ (k + 1) % 2 = 1 then
      let v := treeValue f (k + 1) (l.take (2 ^ (k + 1)))
      let acc' := match acc with
        | none => some v
        | some a => let r := f a.1 v.1; some (r.1, a.2 ||| v.2 ||| r.2)
      scanFrom f n k (l.drop (2 ^ (k + 1))) acc'
    else scanFrom f n k l acc

/-- SCAN's value at a position (R52). -/
def scanValue (f : DWord → DWord → DWord × Word) (i : Nat) (l : List DWord) : DWord × Word :=
  (scanFrom f (i + 1) 6 l none).getD (0, 0)

/-- The values of the W positions: a lane that does not participate gives the identity, C of the lowest participating lane (R234). -/
def positions (o : Tri) (w : Nat) (ps : List (Nat × Env)) : List DWord :=
  let id := match ps.head? with
    | some x => srcT x.2 o.c o.t.toNat
    | none => 0
  (List.range w).map fun k => match ps.find? (fun x => x.1 = k) with
    | some x => srcT x.2 o.a o.t.toNat
    | none => id

/-- What REDUX and SCAN write in a lane (R234): `value` gives a position's result; the flags of every node the word evaluates go to every participating lane. -/
def reduceWr (o : Tri) (value : (DWord → DWord → DWord × Word) → Nat → Nat → List DWord → DWord × Word) (e : Env) (ps : List (Nat × Env)) : Wr :=
  let frm := match ps.head? with
    | some x => x.2.th.spr.frm
    | none => 0
  let f := reduceNode (o.b.num % 8) o.t.toNat (frmRM frm) (frmFTZ frm)
  let l := positions o e.sf.width ps
  let all := ps.map fun x => (x.1, value f e.sf.width x.1 l)
  let flags := all.foldl (fun acc x => acc ||| x.2.2) 0
  match all.find? (fun x => x.1 = posOf e) with
  | some x => wrFlags (wrT o.d o.t.toNat x.2.1) flags
  | none => wrNone

/-- A reduction word (R234). -/
def reduceWord (h : Guard) (o : Tri) (value : (DWord → DWord → DWord × Word) → Nat → Nat → List DWord → DWord × Word) (s : State) : Result :=
  laneOp h (reduceWr o value) s

/-- REDUX (R234). -/
def execRedux (h : Guard) (o : Tri) (s : State) : Result :=
  reduceWord h o (fun f w _ l => treeValue f (Nat.log2 w) l) s

/-- SCAN (R234). -/
def execScan (h : Guard) (o : Tri) (s : State) : Result :=
  reduceWord h o (fun f _ i l => scanValue f i l) s

end Sys2Proof.Machine
end

