-- ==== Sys2Proof/Machine/Sys.lean ====
section
/-! DEFINITION. SYS (R148 to R153, R385, R386): special registers, TRAP and BRK, ERET, counters, SLEEP and PARKQ. -/

namespace Sys2Proof.Machine

/-- The K-steps of the sheaf's MMA that an array of its core performs (R152, R328). -/
def kprogOf (s : State) (sh : Nat) : Nat :=
  let c := coreAt s (coreOf sh)
  let at1 := fun (a : ArraySt) => match a.queue with
    | .mma x _ _ _ _ :: _ => if x = sh then some a.steps else none
    | _ => none
  ((at1 c.array0).or (at1 c.array1)).getD 0

/-- The gather window of a thread's segment: 64 where the launch gives 0, and outside a runner launch (R14, R208). -/
def gatherOf (s : State) (sf : Sheaf) (th : Thread) : Nat :=
  match runnerOf s sf with
  | some r => match r.segs[th.seg]? with
    | some g => if g.gather = 0 then 64 else g.gather
    | none => 64
  | none => 64

/-- The mask of a lane's parked sub-sheaf in handler mode, else 0 (R385). -/
def flanesOf (sf : Sheaf) (th : Thread) : Word :=
  match th.park with
  | some p => if p.inHandler then ((Tab.at? sf.subs p.sub).map fun (b : Sub) => b.mask).getD 0 else 0
  | none => 0

/-- The value of a special register (R152, R153). -/
def sprRead (e : Env) (n : Nat) : DWord :=
  let p := e.th.spr
  let w : Word → DWord := fun x => x.setWidth 64
  match n with
  | 0x0000 => w p.frm
  | 0x0001 => w p.fexc
  | 0x0010 => w p.wrep
  | 0x0011 => w (p.wstat ||| BitVec.ofNat 32 (watchPending e.s e.sh e.ln % 16))
  | 0x0020 => w p.stklim
  | 0x0030 => w p.cause
  | 0x0031 => w p.faddr
  | 0x0032 => w p.faddrhi
  | 0x0033 => w p.fpc
  | 0x0034 => w (flanesOf e.sf e.th)
  | 0x0035 => w p.finfo
  | 0x0040 => BitVec.ofNat 64 (gatherOf e.s e.sf e.th % 2 ^ 16)
  | 0x0041 => w p.livelo
  | 0x0042 => w p.livehi
  | 0x0050 => w (ctxAt e.s e.sf.ctx).phmargin
  | 0x0070 => BitVec.ofNat 64 (kprogOf e.s e.sh % 2 ^ 16)
  | 0x0200 => (ctxAt e.s e.sf.ctx).colours
  | 0x0300 => BitVec.ofNat 64 e.s.cycle
  | 0x0301 => BitVec.ofNat 64 (coreAt e.s (coreOf e.sh)).pts
  | k =>
    if 0x0060 ≤ k ∧ k ≤ 0x0067 then w (Tab.get 0 e.sf.j (k - 0x0060))
    else if 0x0100 ≤ k ∧ k ≤ 0x0107 then w (Tab.get 0 (ctxAt e.s e.sf.ctx).csel (k - 0x0100))
    else 0

/-- A special register held per thread written, field by field (R149, R152, R153). -/
def sprWrite (p : Spr) (n : Nat) (v : Word) (handler : Bool) : Spr :=
  match n with
  | 0x0000 => { p with frm := v &&& 0x7#32 }
  | 0x0001 => { p with fexc := v &&& 0x3F#32 }
  | 0x0010 => { p with wrep := v &&& ~~~0x7#32 }
  | 0x0011 => { p with wstat := (p.wstat &&& ~~~v &&& 0x80000000#32) ||| (v &&& 0x00FF0000#32) }
  | 0x0020 => { p with stklim := v &&& ~~~0xF#32 }
  | 0x0033 => if handler then { p with fpc := v } else p
  | 0x0041 => { p with livelo := v }
  | 0x0042 => { p with livehi := v }
  | _ => p

/-- SRR (R149). -/
def execSrr (h : Guard) (o : SF) (s : State) : Result :=
  .next (compute (cfg h) (fun e =>
    let v := sprRead e o.num.toNat
    .ok (if sprWide o.num.toNat then wrPair o.d v else wrReg o.d (v.setWidth 32))) s)

/-- SRW (R149): a register held per sheaf and the counter selections take the value of the lowest-numbered lane that takes effect; a counter goes by its new
selection from the next cycle on. -/
def execSrw (h : Guard) (o : SF) (s : State) : Result :=
  .next (runWord (cfgNR h) (fun e s =>
    let n := o.num.toNat
    let v := src e o.a 0
    let lead := e.parts.head? = some (e.sh, e.ln)
    let s1 :=
      if 0x0060 ≤ n ∧ n ≤ 0x0067 then
        if lead then updSheaf s e.sh fun sf => { sf with j := Tab.set 0 sf.j (n - 0x0060) v } else s
      else if 0x0100 ≤ n ∧ n ≤ 0x0107 then
        if lead then updCtx s e.sf.ctx fun c => { c with csel := Tab.set 0 c.csel (n - 0x0100) (v &&& 0x8000FFFF#32) } else s
      else updThread s e.sh e.ln fun th => { th with spr := sprWrite th.spr n v (inHandler th) }
    (s1, .ok wrNone)) s)

/-- The fault of TRAP and BRK (R150): the code in the detail, and the following word as resume offset.
Log 23 (DEDUCED). -/
def trapFault (cause : Byte) (code : BitVec 16) : FaultInfo := { mkFault cause 0 0 with detail := code, after := true }

/-- TRAP (R150). -/
def execTrap (h : Guard) (o : SF) (s : State) : Result :=
  .next (runWord (cfgNR h) (fun _ s => (s, .fault (trapFault causeTrap o.num))) s)

/-- BRK (R150). -/
def execBrk (h : Guard) (o : SF) (s : State) : Result :=
  .next (runWord (cfgNR h) (fun _ s => (s, .fault (trapFault causeBreak o.num))) s)

/-- ERET (R386): the lanes that return leave their sub-sheaf. -/
def execEret (h : Guard) (_ : SF) (s : State) : Result :=
  .next (
    let lanes := activeLanes s
    let s1 := runWord { cfgNR h with handler := true } (fun e s => (s, leaveHandler e.sf e.th)) s
    (lanes.map (·.1)).eraseDups.foldl fixSubs s1)

/-- What PERF reads (R151, R413): 48 bits; the fabric events read 0 in a VF. -/
def counterRead (s : State) (ctx k : Nat) : DWord :=
  let c := ctxAt s ctx
  let ev := ((Tab.get 0 c.csel k).extractLsb' 0 16).toNat
  if c.func ≠ 0 ∧ (ev = 10 ∨ ev = 11) then 0 else BitVec.ofNat 64 (Tab.get 0 c.cnt k % 2 ^ 48)

/-- PERF (R151, R413). -/
def execPerf (h : Guard) (o : SF) (s : State) : Result :=
  .next (compute (cfg h) (fun e => .ok (wrPair o.d (counterRead e.s e.sf.ctx (o.num.toNat % 8)))) s)

/-- SLEEP (R151): held for Min(U32(a), 1,048,576) cycles. -/
def execSleep (h : Guard) (o : SF) (s : State) : Result :=
  .next (runWord (cfgNR h) (fun e s =>
    let n := min (src e o.a 1).toNat 1048576
    (s, if n = 0 then .ok wrNone else .hold (.sleep n))) s)

/-- SLEEP_END (R151): the counted cycles have passed. -/
def execSleepEnd (sh ln : Nat) (s : State) : Result :=
  .next (match thread? s sh ln with
    | some th => match th.hold with
      | some (.sleep 0) => resume s sh ln wrNone
      | _ => s
    | none => s)

/-- The parked lanes of a lane's gang among the lanes of one sheaf, gang-relative (R151). -/
def parkedIn (sf : Sheaf) (ln : Nat) : Word :=
  let b := gangBase sf.width ln
  let w := if 32 ≤ sf.width then 32 else sf.width
  maskOf ((sf.lanes.filter fun e => decide (e.2.status = .live) && e.2.park.isSome && decide (b ≤ e.1) && decide (e.1 < b + w)).map fun e => e.1 - b)

/-- PARKQ (R151). -/
def execParkq (h : Guard) (o : SF) (s : State) : Result :=
  .next (compute (cfgNR h) (fun e =>
    let own := parkedIn e.sf e.ln
    let other := match e.sf.pair with
      | some p => match sheaf? e.s p with
        | some sp => parkedIn sp 0
        | none => 0
      | none => 0
    .ok (if e.sf.half = 1 then wrPair o.d (own ++ other) else wrPair o.d (other ++ own))) s)

end Sys2Proof.Machine
end

