-- ==== Sys2Proof/Machine/Dispatch.lean ====
section
/-! DEFINITION. The dispatch of every instruction to its meaning, one arm per constructor. -/

namespace Sys2Proof.Machine

def exec (i : Instr) (s : State) : Host.Outcome State Fault Refusal :=
  match i with
  | .add h o => Sys2Proof.Machine.execAdd h o s
  | .sub h o => Sys2Proof.Machine.execSub h o s
  | .mul h o => Sys2Proof.Machine.execMul h o s
  | .mulh h o => Sys2Proof.Machine.execMulh h o s
  | .mulhu h o => Sys2Proof.Machine.execMulhu h o s
  | .mad h o => Sys2Proof.Machine.execMad h o s
  | .and h o => Sys2Proof.Machine.execAnd h o s
  | .or h o => Sys2Proof.Machine.execOr h o s
  | .xor h o => Sys2Proof.Machine.execXor h o s
  | .andn h o => Sys2Proof.Machine.execAndn h o s
  | .orn h o => Sys2Proof.Machine.execOrn h o s
  | .shl h o => Sys2Proof.Machine.execShl h o s
  | .shr h o => Sys2Proof.Machine.execShr h o s
  | .sar h o => Sys2Proof.Machine.execSar h o s
  | .rot h o => Sys2Proof.Machine.execRot h o s
  | .sel h o => Sys2Proof.Machine.execSel h o s
  | .min h o => Sys2Proof.Machine.execMin h o s
  | .max h o => Sys2Proof.Machine.execMax h o s
  | .abs h o => Sys2Proof.Machine.execAbs h o s
  | .clz h o => Sys2Proof.Machine.execClz h o s
  | .popc h o => Sys2Proof.Machine.execPopc h o s
  | .brev h o => Sys2Proof.Machine.execBrev h o s
  | .bfx h o => Sys2Proof.Machine.execBfx h o s
  | .bfi h o => Sys2Proof.Machine.execBfi h o s
  | .div h o => Sys2Proof.Machine.execDiv h o s
  | .rem h o => Sys2Proof.Machine.execRem h o s
  | .addc h o => Sys2Proof.Machine.execAddc h o s
  | .subb h o => Sys2Proof.Machine.execSubb h o s
  | .lop3 h o => Sys2Proof.Machine.execLop3 h o s
  | .prmt h o => Sys2Proof.Machine.execPrmt h o s
  | .mov h o => Sys2Proof.Machine.execMov h o s
  | .sad h o => Sys2Proof.Machine.execSad h o s
  | .addi h o => Sys2Proof.Machine.execAddi h o s
  | .andi h o => Sys2Proof.Machine.execAndi h o s
  | .ori h o => Sys2Proof.Machine.execOri h o s
  | .xori h o => Sys2Proof.Machine.execXori h o s
  | .shli h o => Sys2Proof.Machine.execShli h o s
  | .shri h o => Sys2Proof.Machine.execShri h o s
  | .sari h o => Sys2Proof.Machine.execSari h o s
  | .muli h o => Sys2Proof.Machine.execMuli h o s
  | .lih h o => Sys2Proof.Machine.execLih h o s
  | .icmp h o => Sys2Proof.Machine.execIcmp h o s
  | .fcmp h o => Sys2Proof.Machine.execFcmp h o s
  | .fclass h o => Sys2Proof.Machine.execFclass h o s
  | .plop3 h o => Sys2Proof.Machine.execPlop3 h o s
  | .p2g h o => Sys2Proof.Machine.execP2g h o s
  | .g2p h o => Sys2Proof.Machine.execG2p h o s
  | .fadd h o => Sys2Proof.Machine.execFadd h o s
  | .fsub h o => Sys2Proof.Machine.execFsub h o s
  | .fmul h o => Sys2Proof.Machine.execFmul h o s
  | .ffma h o => Sys2Proof.Machine.execFfma h o s
  | .fmin h o => Sys2Proof.Machine.execFmin h o s
  | .fmax h o => Sys2Proof.Machine.execFmax h o s
  | .fabs h o => Sys2Proof.Machine.execFabs h o s
  | .fneg h o => Sys2Proof.Machine.execFneg h o s
  | .frnd h o => Sys2Proof.Machine.execFrnd h o s
  | .fscl h o => Sys2Proof.Machine.execFscl h o s
  | .cvt h o => Sys2Proof.Machine.execCvt h o s
  | .packh h o => Sys2Proof.Machine.execPackh h o s
  | .packbl h o => Sys2Proof.Machine.execPackbl h o s
  | .packbh h o => Sys2Proof.Machine.execPackbh h o s
  | .packn h o => Sys2Proof.Machine.execPackn h o s
  | .unpk h o => Sys2Proof.Machine.execUnpk h o s
  | .dot4i h o => Sys2Proof.Machine.execDot4i h o s
  | .dot4u h o => Sys2Proof.Machine.execDot4u h o s
  | .dot8i h o => Sys2Proof.Machine.execDot8i h o s
  | .dot4f h o => Sys2Proof.Machine.execDot4f h o s
  | .dot8f h o => Sys2Proof.Machine.execDot8f h o s
  | .dot2h h o => Sys2Proof.Machine.execDot2h h o s
  | .frcp h o => Sys2Proof.Machine.execFrcp h o s
  | .frsq h o => Sys2Proof.Machine.execFrsq h o s
  | .fsqrt h o => Sys2Proof.Machine.execFsqrt h o s
  | .fexp2 h o => Sys2Proof.Machine.execFexp2 h o s
  | .flog2 h o => Sys2Proof.Machine.execFlog2 h o s
  | .fsin h o => Sys2Proof.Machine.execFsin h o s
  | .fcos h o => Sys2Proof.Machine.execFcos h o s
  | .ftanh h o => Sys2Proof.Machine.execFtanh h o s
  | .fdiv h o => Sys2Proof.Machine.execFdiv h o s
  | .bra h o => Sys2Proof.Machine.execBra h o s
  | .brx h o => Sys2Proof.Machine.execBrx h o s
  | .call h o => Sys2Proof.Machine.execCall h o s
  | .callc h o => Sys2Proof.Machine.execCallc h o s
  | .ret h o => Sys2Proof.Machine.execRet h o s
  | .retFar h o => Sys2Proof.Machine.execRetFar h o s
  | .loop h o => Sys2Proof.Machine.execLoop h o s
  | .jmark h o => Sys2Proof.Machine.execJmark h o s
  | .join h o => Sys2Proof.Machine.execJoin h o s
  | .yield h o => Sys2Proof.Machine.execYield h o s
  | .exit h o => Sys2Proof.Machine.execExit h o s
  | .nop h o => Sys2Proof.Machine.execNop h o s
  | .runb h o => Sys2Proof.Machine.execRunb h o s
  | .rune h o => Sys2Proof.Machine.execRune h o s
  | .enter h o => Sys2Proof.Machine.execEnter h o s
  | .leave h o => Sys2Proof.Machine.execLeave h o s
  | .shfl h o => Sys2Proof.Machine.execShfl h o s
  | .shflp h o => Sys2Proof.Machine.execShflp h o s
  | .vany h o => Sys2Proof.Machine.execVany h o s
  | .vall h o => Sys2Proof.Machine.execVall h o s
  | .ballot h o => Sys2Proof.Machine.execBallot h o s
  | .redux h o => Sys2Proof.Machine.execRedux h o s
  | .scan h o => Sys2Proof.Machine.execScan h o s
  | .matchm h o => Sys2Proof.Machine.execMatchm h o s
  | .rdvinit h o => Sys2Proof.Machine.execRdvinit h o s
  | .rdvarr h o => Sys2Proof.Machine.execRdvarr h o s
  | .rdvwait h o => Sys2Proof.Machine.execRdvwait h o s
  | .rdvaw h o => Sys2Proof.Machine.execRdvaw h o s
  | .sigwait h o => Sys2Proof.Machine.execSigwait h o s
  | .sigpost h o => Sys2Proof.Machine.execSigpost h o s
  | .phase h o => Sys2Proof.Machine.execPhase h o s
  | .live h o => Sys2Proof.Machine.execLive h o s
  | .hop h o => Sys2Proof.Machine.execHop h o s
  | .launch h o => Sys2Proof.Machine.execLaunch h o s
  | .lwait h o => Sys2Proof.Machine.execLwait h o s
  | .ld h o => Sys2Proof.Machine.execLd h o s
  | .st h o => Sys2Proof.Machine.execSt h o s
  | .ldw h o => Sys2Proof.Machine.execLdw h o s
  | .ldc h o => Sys2Proof.Machine.execLdc h o s
  | .stc h o => Sys2Proof.Machine.execStc h o s
  | .lds h o => Sys2Proof.Machine.execLds h o s
  | .sts h o => Sys2Proof.Machine.execSts h o s
  | .cas h o => Sys2Proof.Machine.execCas h o s
  | .cass h o => Sys2Proof.Machine.execCass h o s
  | .pref h o => Sys2Proof.Machine.execPref h o s
  | .atomAdd h o => Sys2Proof.Machine.execAtomAdd h o s
  | .atomMin h o => Sys2Proof.Machine.execAtomMin h o s
  | .atomMax h o => Sys2Proof.Machine.execAtomMax h o s
  | .atomMinu h o => Sys2Proof.Machine.execAtomMinu h o s
  | .atomMaxu h o => Sys2Proof.Machine.execAtomMaxu h o s
  | .atomAnd h o => Sys2Proof.Machine.execAtomAnd h o s
  | .atomOr h o => Sys2Proof.Machine.execAtomOr h o s
  | .atomXor h o => Sys2Proof.Machine.execAtomXor h o s
  | .atomXchg h o => Sys2Proof.Machine.execAtomXchg h o s
  | .atomFadd h o => Sys2Proof.Machine.execAtomFadd h o s
  | .atomFmin h o => Sys2Proof.Machine.execAtomFmin h o s
  | .atomFmax h o => Sys2Proof.Machine.execAtomFmax h o s
  | .atomInc h o => Sys2Proof.Machine.execAtomInc h o s
  | .atomsAdd h o => Sys2Proof.Machine.execAtomsAdd h o s
  | .atomsMin h o => Sys2Proof.Machine.execAtomsMin h o s
  | .atomsMax h o => Sys2Proof.Machine.execAtomsMax h o s
  | .atomsMinu h o => Sys2Proof.Machine.execAtomsMinu h o s
  | .atomsMaxu h o => Sys2Proof.Machine.execAtomsMaxu h o s
  | .atomsAnd h o => Sys2Proof.Machine.execAtomsAnd h o s
  | .atomsOr h o => Sys2Proof.Machine.execAtomsOr h o s
  | .atomsXor h o => Sys2Proof.Machine.execAtomsXor h o s
  | .atomsXchg h o => Sys2Proof.Machine.execAtomsXchg h o s
  | .atomsFadd h o => Sys2Proof.Machine.execAtomsFadd h o s
  | .atomsFmin h o => Sys2Proof.Machine.execAtomsFmin h o s
  | .atomsFmax h o => Sys2Proof.Machine.execAtomsFmax h o s
  | .atomsInc h o => Sys2Proof.Machine.execAtomsInc h o s
  | .fence h o => Sys2Proof.Machine.execFence h o s
  | .check h o => Sys2Proof.Machine.execCheck h o s
  | .wset h o => Sys2Proof.Machine.execWset h o s
  | .bankcfg h o => Sys2Proof.Machine.execBankcfg h o s
  | .cgetb h o => Sys2Proof.Machine.execCgetb h o s
  | .cgetl h o => Sys2Proof.Machine.execCgetl h o s
  | .cgetp h o => Sys2Proof.Machine.execCgetp h o s
  | .cgetc h o => Sys2Proof.Machine.execCgetc h o s
  | .cgetk h o => Sys2Proof.Machine.execCgetk h o s
  | .cgett h o => Sys2Proof.Machine.execCgett h o s
  | .cnarrow h o => Sys2Proof.Machine.execCnarrow h o s
  | .candp h o => Sys2Proof.Machine.execCandp h o s
  | .cseal h o => Sys2Proof.Machine.execCseal h o s
  | .cunseal h o => Sys2Proof.Machine.execCunseal h o s
  | .cmov h o => Sys2Proof.Machine.execCmov h o s
  | .cclrt h o => Sys2Proof.Machine.execCclrt h o s
  | .ctest h o => Sys2Proof.Machine.execCtest h o s
  | .csend h o => Sys2Proof.Machine.execCsend h o s
  | .crecv h o => Sys2Proof.Machine.execCrecv h o s
  | .csetu h o => Sys2Proof.Machine.execCsetu h o s
  | .tdef h o => Sys2Proof.Machine.execTdef h o s
  | .tfill h o => Sys2Proof.Machine.execTfill h o s
  | .tfillResume h o => Sys2Proof.Machine.execTfillResume h o s
  | .tdrain h o => Sys2Proof.Machine.execTdrain h o s
  | .tdrainResume h o => Sys2Proof.Machine.execTdrainResume h o s
  | .twait h o => Sys2Proof.Machine.execTwait h o s
  | .tstat h o => Sys2Proof.Machine.execTstat h o s
  | .tfree h o => Sys2Proof.Machine.execTfree h o s
  | .tgive h o => Sys2Proof.Machine.execTgive h o s
  | .fstart h o => Sys2Proof.Machine.execFstart h o s
  | .fpush h o => Sys2Proof.Machine.execFpush h o s
  | .fpop h o => Sys2Proof.Machine.execFpop h o s
  | .fwait h o => Sys2Proof.Machine.execFwait h o s
  | .fstop h o => Sys2Proof.Machine.execFstop h o s
  | .cmdrun h o => Sys2Proof.Machine.execCmdrun h o s
  | .cmdpoll h o => Sys2Proof.Machine.execCmdpoll h o s
  | .rkmark h o => Sys2Proof.Machine.execRkmark h o s
  | .rkmarkRelocate h o => Sys2Proof.Machine.execRkmarkRelocate h o s
  | .rkpass h o => Sys2Proof.Machine.execRkpass h o s
  | .rkpassRelocate h o => Sys2Proof.Machine.execRkpassRelocate h o s
  | .rkwait h o => Sys2Proof.Machine.execRkwait h o s
  | .rkstat h o => Sys2Proof.Machine.execRkstat h o s
  | .stmr h o => Sys2Proof.Machine.execStmr h o s
  | .mrwait h o => Sys2Proof.Machine.execMrwait h o s
  | .mma h o => Sys2Proof.Machine.execMma h o s
  | .accalloc h o => Sys2Proof.Machine.execAccalloc h o s
  | .accfree h o => Sys2Proof.Machine.execAccfree h o s
  | .acczero h o => Sys2Proof.Machine.execAcczero h o s
  | .accrd h o => Sys2Proof.Machine.execAccrd h o s
  | .accwr h o => Sys2Proof.Machine.execAccwr h o s
  | .accst h o => Sys2Proof.Machine.execAccst h o s
  | .bht h o => Sys2Proof.Machine.execBht h o s
  | .tqnt h o => Sys2Proof.Machine.execTqnt h o s
  | .ttrn h o => Sys2Proof.Machine.execTtrn h o s
  | .srr h o => Sys2Proof.Machine.execSrr h o s
  | .srw h o => Sys2Proof.Machine.execSrw h o s
  | .trap h o => Sys2Proof.Machine.execTrap h o s
  | .eret h o => Sys2Proof.Machine.execEret h o s
  | .brk h o => Sys2Proof.Machine.execBrk h o s
  | .perf h o => Sys2Proof.Machine.execPerf h o s
  | .sleep h o => Sys2Proof.Machine.execSleep h o s
  | .parkq h o => Sys2Proof.Machine.execParkq h o s
  | .pairWord x y z => Sys2Proof.Machine.execPairWord x y z s
  | .sheafChoice core quad => Sys2Proof.Machine.execSheafChoice core quad s
  | .yieldHoldEnd sh ln => Sys2Proof.Machine.execYieldHoldEnd sh ln s
  | .runCommit sh ln => Sys2Proof.Machine.execRunCommit sh ln s
  | .joinRelease sh ln => Sys2Proof.Machine.execJoinRelease sh ln s
  | .sleepEnd sh ln => Sys2Proof.Machine.execSleepEnd sh ln s
  | .phaseOverrun team => Sys2Proof.Machine.execPhaseOverrun team s
  | .asyncFaultDelivery sh ln => Sys2Proof.Machine.execAsyncFaultDelivery sh ln s
  | .sigwaitReload sh ln => Sys2Proof.Machine.execSigwaitReload sh ln s
  | .sigwaitHostPoll sh ln value => Sys2Proof.Machine.execSigwaitHostPoll sh ln value s
  | .ltimeTick core => Sys2Proof.Machine.execLtimeTick core s
  | .seasonBoundary => Sys2Proof.Machine.execSeasonBoundary s
  | .homeRenew pos => Sys2Proof.Machine.execHomeRenew pos s
  | .loadReply pos ans => Sys2Proof.Machine.execLoadReply pos ans s
  | .homeWrite pos => Sys2Proof.Machine.execHomeWrite pos s
  | .homeRead core addr => Sys2Proof.Machine.execHomeRead core addr s
  | .storeAck pos ans => Sys2Proof.Machine.execStoreAck pos ans s
  | .otherPartyWrite addr data => Sys2Proof.Machine.execOtherPartyWrite addr data s
  | .csendAtHome pos => Sys2Proof.Machine.execCsendAtHome pos s
  | .crecvAtHome pos => Sys2Proof.Machine.execCrecvAtHome pos s
  | .conditionalWriteback pos => Sys2Proof.Machine.execConditionalWriteback pos s
  | .writebackReply pos => Sys2Proof.Machine.execWritebackReply pos s
  | .writeLostAnswer pos => Sys2Proof.Machine.execWriteLostAnswer pos s
  | .granuleEntryWrite die granule entry => Sys2Proof.Machine.execGranuleEntryWrite die granule entry s
  | .heldAccessRecheck pos => Sys2Proof.Machine.execHeldAccessRecheck pos s
  | .eccUncorrectable target => Sys2Proof.Machine.execEccUncorrectable target s
  | .bankSwitchDone core bank => Sys2Proof.Machine.execBankSwitchDone core bank s
  | .stageSetDispatch cluster => Sys2Proof.Machine.execStageSetDispatch cluster s
  | .stealRequest thief => Sys2Proof.Machine.execStealRequest thief s
  | .stealReply thief => Sys2Proof.Machine.execStealReply thief s
  | .teamRetire team => Sys2Proof.Machine.execTeamRetire team s
  | .launchComplete launch => Sys2Proof.Machine.execLaunchComplete launch s
  | .runnerStart launch => Sys2Proof.Machine.execRunnerStart launch s
  | .runnerComplete launch => Sys2Proof.Machine.execRunnerComplete launch s
  | .travelDepart sh ln => Sys2Proof.Machine.execTravelDepart sh ln s
  | .packetRelay pos => Sys2Proof.Machine.execPacketRelay pos s
  | .ringToFifo launch seg core => Sys2Proof.Machine.execRingToFifo launch seg core s
  | .packetPlace launch seg core => Sys2Proof.Machine.execPacketPlace launch seg core s
  | .sheafRelease sh => Sys2Proof.Machine.execSheafRelease sh s
  | .depthBroadcast core => Sys2Proof.Machine.execDepthBroadcast core s
  | .cuttingAdd launch seg core => Sys2Proof.Machine.execCuttingAdd launch seg core s
  | .cuttingRemove launch seg slot => Sys2Proof.Machine.execCuttingRemove launch seg slot s
  | .copyRow core => Sys2Proof.Machine.execCopyRow core s
  | .tileTransferDone core => Sys2Proof.Machine.execTileTransferDone core s
  | .commandCopyDone core => Sys2Proof.Machine.execCommandCopyDone core s
  | .mmaComplete core array => Sys2Proof.Machine.execMmaComplete core array s
  | .arrayOpDone core array => Sys2Proof.Machine.execArrayOpDone core array s
  | .accallocGrant core => Sys2Proof.Machine.execAccallocGrant core s
  | .rakePassStart => Sys2Proof.Machine.execRakePassStart s
  | .rakeBatch => Sys2Proof.Machine.execRakeBatch s
  | .rakePeerReport peer => Sys2Proof.Machine.execRakePeerReport peer s
  | .rakePassComplete => Sys2Proof.Machine.execRakePassComplete s
  | .permitRequest core unit => Sys2Proof.Machine.execPermitRequest core unit s
  | .permitGrant die => Sys2Proof.Machine.execPermitGrant die s
  | .mrDelivery group line => Sys2Proof.Machine.execMrDelivery group line s
  | .mrSwitchSum group line sum => Sys2Proof.Machine.execMrSwitchSum group line sum s
  | .mrGroupInvalidate group => Sys2Proof.Machine.execMrGroupInvalidate group s
  | .handlerEntry sh sub => Sys2Proof.Machine.execHandlerEntry sh sub s
  | .stopRequest ctx why => Sys2Proof.Machine.execStopRequest ctx why s
  | .unitAck ctx die => Sys2Proof.Machine.execUnitAck ctx die s
  | .contextStopped ctx => Sys2Proof.Machine.execContextStopped ctx s
  | .save ctx => Sys2Proof.Machine.execSave ctx s
  | .restore ctx => Sys2Proof.Machine.execRestore ctx s
  | .quantumChange => Sys2Proof.Machine.execQuantumChange s
  | .queueMapping => Sys2Proof.Machine.execQueueMapping s
  | .queueKick fn queue tail => Sys2Proof.Machine.execQueueKick fn queue tail s
  | .queueCommandBegin queue host => Sys2Proof.Machine.execQueueCommandBegin queue host s
  | .queueNop queue => Sys2Proof.Machine.execQueueNop queue s
  | .queueLaunch queue => Sys2Proof.Machine.execQueueLaunch queue s
  | .queueWait queue host => Sys2Proof.Machine.execQueueWait queue host s
  | .queuePost queue => Sys2Proof.Machine.execQueuePost queue s
  | .adminDb fn tail => Sys2Proof.Machine.execAdminDb fn tail s
  | .ctxCreate fn cmd => Sys2Proof.Machine.execCtxCreate fn cmd s
  | .ctxHandler fn cmd => Sys2Proof.Machine.execCtxHandler fn cmd s
  | .ctxDestroy fn cmd => Sys2Proof.Machine.execCtxDestroy fn cmd s
  | .objLoad fn cmd file => Sys2Proof.Machine.execObjLoad fn cmd file s
  | .qCreate fn cmd => Sys2Proof.Machine.execQCreate fn cmd s
  | .qDestroy fn cmd => Sys2Proof.Machine.execQDestroy fn cmd s
  | .monSet fn cmd => Sys2Proof.Machine.execMonSet fn cmd s
  | .cntClear fn cmd => Sys2Proof.Machine.execCntClear fn cmd s
  | .aperture fn cmd => Sys2Proof.Machine.execAperture fn cmd s
  | .monRead fn cmd => Sys2Proof.Machine.execMonRead fn cmd s
  | .ctxQuery fn cmd => Sys2Proof.Machine.execCtxQuery fn cmd s
  | .vfColours fn cmd colours => Sys2Proof.Machine.execVfColours fn cmd colours s
  | .qtabWrite fn cmd => Sys2Proof.Machine.execQtabWrite fn cmd s
  | .ctxMigrate fn cmd mask queues => Sys2Proof.Machine.execCtxMigrate fn cmd mask queues s
  | .pctWrite fn cmd => Sys2Proof.Machine.execPctWrite fn cmd s
  | .attest fn cmd => Sys2Proof.Machine.execAttest fn cmd s
  | .vfEn value => Sys2Proof.Machine.execVfEn value s
  | .vfReset vf => Sys2Proof.Machine.execVfReset vf s
  | .evtHead fn value => Sys2Proof.Machine.execEvtHead fn value s
  | .evtDrop fn => Sys2Proof.Machine.execEvtDrop fn s
  | .registerWrite fn off width value => Sys2Proof.Machine.execRegisterWrite fn off width value s
  | .apertureRead fn win off size => Sys2Proof.Machine.execApertureRead fn win off size s
  | .apertureWrite fn win off data => Sys2Proof.Machine.execApertureWrite fn win off data s
  | .counterOverflow ctx k => Sys2Proof.Machine.execCounterOverflow ctx k s
  | .ingressAccess req => Sys2Proof.Machine.execIngressAccess req s
  | .portStateChange port state => Sys2Proof.Machine.execPortStateChange port state s
  | .keyAgreement port partner signed => Sys2Proof.Machine.execKeyAgreement port partner signed s
  | .epochGraceEnd port => Sys2Proof.Machine.execEpochGraceEnd port s
  | .thermalStop die temp => Sys2Proof.Machine.execThermalStop die temp s
  | .thermalResume die temp => Sys2Proof.Machine.execThermalResume die temp s
  | .boot input => Sys2Proof.Machine.execBoot input s
  | .stackCacheSpill core quad line fill => Sys2Proof.Machine.execStackCacheSpill core quad line fill s
  | .objectUnload ctx object => Sys2Proof.Machine.execObjectUnload ctx object s
  | .groupDescriptorSet group desc => Sys2Proof.Machine.execGroupDescriptorSet group desc s
  | .peerSweep peer pass ranges => Sys2Proof.Machine.execPeerSweep peer pass ranges s
  | .pcieCompletion pos ans => Sys2Proof.Machine.execPcieCompletion pos ans s
  | .pcieWriteDeparture pos => Sys2Proof.Machine.execPcieWriteDeparture pos s
  | .evtCtl fn value => Sys2Proof.Machine.execEvtCtl fn value s

end Sys2Proof.Machine
end

