-- ==== Sys2Proof/Machine/Ready.lean ====
section
/-! DEFINITION. Which PC groups are ready (R180): a group whose word would only wait is held at it, and is not among those a quadrant chooses from. -/

namespace Sys2Proof.Machine

/-- A lane held at a word that it issues again once it no longer waits. -/
def standsBy (th : Thread) : Bool := decide (th.hold = some .stall) || decide (th.hold = some .again)

/-- A lane that stands at its word: it may issue, or is held there. -/
def mayTry (th : Thread) : Bool := issuable { th with hold := if standsBy th then none else th.hold }

/-- The lanes of a sheaf that stand at a word with a lane. -/
def tryMask (sf : Sheaf) (lead : Thread) : Word := maskOf ((sf.lanes.filter fun e => mayTry e.2 && sameGroup lead e.2).map (·.1))

/-- The groups of a sheaf that stand at a word: leader, and mask. -/
def tryGroups (sf : Sheaf) : List (Thread × Word) :=
  sf.lanes.filterMap fun e =>
    if mayTry e.2 then
      let m := tryMask sf e.2
      if (List.range e.1).any fun k => m.getLsbD k then none else some (e.2, m)
    else none

/-- The lanes of a mask of a sheaf with what holds them changed. -/
def setHolds (s : State) (sh : Nat) (m : Word) (f : Thread → Option Hold) : State :=
  (maskLanes sh m).foldl (fun s x => updThread s x.1 x.2 fun th => { th with hold := f th }) s

/-- What the machine would be if a group issued its word now: none where it would execute nothing.
Log 13 (DEDUCED). -/
def trial (s : State) (sh : Nat) (m : Word) : Option State :=
  match issueGroup (setHolds s sh m fun _ => none) { sh := sh, mask := m, pairMask := 0, rest := 0, word := none } with
  | .nothing _ => none
  | .word i s1 =>
    match exec i s1 with
    | .next t => some t
    | _ => none

/-- Every lane of a mask is held at its word. -/
def allStandBy (s : State) (sh : Nat) (m : Word) : Bool :=
  (maskLanes sh m).all fun x => match thread? s x.1 x.2 with
    | some th => standsBy th
    | none => false

/-- A word that may have to wait: a memory, engine, system or control word; a LANE word waits for its pair alone (R180, R228). -/
def mayWait (w : DWord) : Bool := decide (unitOf w = 0) || decide (unitOf w = 7)

/-- A group is held at its word, or may issue it (R180). A port that would hold its request has held one in this season (R269). Log 13 (DEDUCED). -/
def refreshGroup (s : State) (sh : Nat) (sf : Sheaf) (x : Thread × Word) : State :=
  if !mayGoOn s sf x.1 || !mayWait (peekWord s x.1) then s
  else
    match trial s sh x.2 with
    | some t =>
      if allStandBy t sh x.2 then
        updCtx (setHolds s sh x.2 fun th => if standsBy th then th.hold else some (if th.word.isSome then .again else .stall)) sf.ctx fun c =>
          { c with heldPorts := (ctxAt t sf.ctx).heldPorts }
      else setHolds s sh x.2 fun _ => none
    | none => setHolds s sh x.2 fun _ => none

/-- The groups of a sheaf before a choice of its quadrant. -/
def refreshSheaf (s : State) (sh : Nat) : State :=
  match sheaf? s sh with
  | some sf => if sf.forming.isSome || !ctxRuns s sf then s else (tryGroups sf).foldl (fun s x => refreshGroup s sh sf x) s
  | none => s

/-- The groups of a quadrant before its choice (R180, R181). -/
def refreshQuad (s : State) (q : Nat) : State := (List.range 16).foldl (fun s slot => refreshSheaf s (q * 16 + slot)) s

end Sys2Proof.Machine
end

