-- ==== Sys2Proof/Machine/Clock.lean ====
section
/-! DEFINITION. The clock: the steps of other agents that are due, each run as the event of the opcode table it is, and what a cycle of the package does when no
word issues and nothing is due (R181, R194, R257, R269, R271, R310). -/

namespace Sys2Proof.Machine

/-- The answer of a peer that the agenda cannot give; home slices ignore it. -/
def noAnswer : PeerAnswer := { time := 0, data := 0, cap := none, refused := none }

/-- The bytes host memory holds are not the device's to state. -/
def hostBytes (s : State) (n : Nat) : List Byte := (List.range n).map fun i => Config.freeByte (s.free + i)

/-- The command of a queue at whatever its ring holds in host memory. -/
def beginCommand (q : Nat) (s : State) : Result := execQueueCommandBegin q (hostBytes s 128) { s with free := s.free + 128 }

/-- An acknowledgement at the head of its list: of a write that performed, or of one that was lost. -/
def ackStep (s : State) : Result :=
  match s.net.acks.head? with
  | some a => if a.lost then execWriteLostAnswer 0 s else execStoreAck 0 noAnswer s
  | none => .next s

/-- A due step is the event it names. Log 1 (DESIGN CHOICE). -/
def runDue (d : Due) (s : State) : Result :=
  match d with
  | .yieldHoldEnd sh ln => execYieldHoldEnd sh ln s
  | .runCommit sh ln => execRunCommit sh ln s
  | .joinRelease sh ln => execJoinRelease sh ln s
  | .sleepEnd sh ln => execSleepEnd sh ln s
  | .phaseOverrun t => execPhaseOverrun t s
  | .asyncFault sh ln => execAsyncFaultDelivery sh ln s
  | .sigwaitReload sh ln => execSigwaitReload sh ln s
  | .peerSignal n => .next (peerSignals s n)
  | .ingress r => .next (ingressAt s r)
  | .window fn win off size none => execApertureRead fn win off size s
  | .window fn win off _ (some b) => execApertureWrite fn win off b s
  | .ltimeTick k => execLtimeTick k s
  | .seasonBoundary => execSeasonBoundary s
  | .homeRenew => execHomeRenew 0 s
  | .loadReply => if s.net.replies.isEmpty then .next s else execLoadReply 0 noAnswer s
  | .homeWrite => execHomeWrite 0 s
  | .storeAck => ackStep s
  | .csendAtHome => execCsendAtHome 0 s
  | .crecvAtHome => execCrecvAtHome 0 s
  | .conditionalWriteback => execConditionalWriteback 0 s
  | .writebackReply => execWritebackReply 0 s
  | .heldRecheck i => execHeldAccessRecheck i s
  | .bankSwitchDone k b => execBankSwitchDone k b s
  | .stageSetDispatch c => execStageSetDispatch c s
  | .stealRequest c => execStealRequest c s
  | .stealReply c => execStealReply c s
  | .teamRetire t => execTeamRetire t s
  | .launchComplete l => execLaunchComplete l s
  | .runnerStart l => execRunnerStart l s
  | .runnerComplete l => execRunnerComplete l s
  | .travelDepart sh ln => execTravelDepart sh ln s
  | .packetRelay => execPacketRelay 0 s
  | .ringToFifo l g k => execRingToFifo l g k s
  | .packetPlace l g k => execPacketPlace l g k s
  | .sheafRelease sh => execSheafRelease sh s
  | .depthBroadcast k => execDepthBroadcast k s
  | .copyRow k => execCopyRow k s
  | .tileTransferDone k => execTileTransferDone k s
  | .commandCopyDone k => execCommandCopyDone k s
  | .mmaComplete k a => execMmaComplete k a s
  | .arrayOpDone k a => execArrayOpDone k a s
  | .accallocGrant k => execAccallocGrant k s
  | .rakePassStart => execRakePassStart s
  | .rakeBatch => execRakeBatch s
  | .rakePassComplete => execRakePassComplete s
  | .permitRequest k u => execPermitRequest k u s
  | .permitGrant d => execPermitGrant d s
  | .mrDelivery g l => execMrDelivery g l s
  | .handlerEntry sh b => execHandlerEntry sh b s
  | .stopRequest c w => execStopRequest c w s
  | .unitAck c d => execUnitAck c d s
  | .contextStopped c => execContextStopped c s
  | .save c => execSave c s
  | .restore c => execRestore c s
  | .quantumChange => execQuantumChange s
  | .queueMapping => execQueueMapping s
  | .migrate => .next (migrateStep s)
  | .queueCommandBegin q => beginCommand q s
  | .queueNop q => execQueueNop q s
  | .queueLaunch q => execQueueLaunch q s
  | .queueWait q => execQueueWait q (Config.freeDWord s.free) (bump s)
  | .queuePost q => execQueuePost q s
  | .counterOverflow c k => execCounterOverflow c k s
  | .epochGraceEnd p => execEpochGraceEnd p s

/-- An entry of a list of due steps where a condition holds. -/
def dueIf (b : Bool) (d : Due) : List Due := if b then [d] else []

/-- What is due for one lane: the end of a wait, a departure, the commit of a run, an asynchronous fault. -/
def laneDue (sh ln : Nat) (th : Thread) : List Due :=
  (match th.hold with
    | some (.yielded _) => [Due.yieldHoldEnd sh ln]
    | some .trailer => [Due.runCommit sh ln]
    | some (.join _) => [Due.joinRelease sh ln]
    | some (.sleep n) => dueIf (decide (n = 0)) (.sleepEnd sh ln)
    | some (.travel _ _) => [Due.travelDepart sh ln]
    | _ => []) ++ dueIf (decide (th.status = .live) && (!th.losses.isEmpty || th.overrun.isSome)) (.asyncFault sh ln)

/-- What is due for one sheaf: its lanes, and handler entries of its parked sub-sheaves. -/
def sheafDue (s : State) (sh : Nat) (sf : Sheaf) : List Due :=
  if ctxRuns s sf then sf.lanes.flatMap (fun l => laneDue sh l.1 l.2) ++ (sf.subs.filter fun b => !b.2.inHandler).map (fun b => Due.handlerEntry sh b.1) else []

/-- What is due among the messages on their way. -/
def netDue (n : Net) : List Due :=
  n.renews.map (fun _ => Due.homeRenew) ++ n.replies.map (fun _ => Due.loadReply) ++ n.stores.map (fun _ => Due.homeWrite) ++ n.acks.map (fun _ => Due.storeAck) ++
  n.csends.map (fun _ => Due.csendAtHome) ++ n.crecvs.map (fun _ => Due.crecvAtHome) ++ n.wbs.map (fun _ => Due.conditionalWriteback) ++
  n.wbReplies.map (fun _ => Due.writebackReply) ++ (List.range n.held.length).map Due.heldRecheck ++ n.packets.map (fun _ => Due.packetRelay)

/-- What is due on an array. -/
def arrayDue (k i : Nat) (a : ArraySt) : List Due :=
  match a.queue with
  | .mma _ _ _ _ _ :: _ => [Due.mmaComplete k i]
  | _ :: _ => [Due.arrayOpDone k i]
  | [] => []

/-- What is due on a core: bank switches, its engines, the queue of ACCALLOC, and permits. -/
def coreDue (s : State) (k : Nat) (c : CoreSt) : List Due :=
  (c.banks.filter fun b => b.2.switching.isSome).map (fun b => Due.bankSwitchDone k b.1) ++
  (match c.copyq with
    | .tile _ _ _ _ _ _ _ _ _ :: _ => [Due.copyRow k, Due.tileTransferDone k]
    | .command _ _ _ _ _ _ _ _ _ _ _ _ :: _ => [Due.copyRow k, Due.commandCopyDone k]
    | [] => []) ++ arrayDue k 0 c.array0 ++ arrayDue k 1 c.array1 ++ dueIf (!c.accq.isEmpty) (.accallocGrant k) ++
  [PermitUnit.copy, .array 0, .array 1].flatMap fun u => dueIf (needsPermit s k u) (.permitRequest k u)

/-- What is due for a launch: its end, and in runner mode its start, its rings and its arrival FIFOs. -/
def launchDue (s : State) (lid : Nat) (l : Launch) : List Due :=
  match l.runner with
  | none => dueIf (decide (l.left = 0)) (.launchComplete lid)
  | some r =>
    if !r.started then [Due.runnerStart lid]
    else
      (List.range r.segs.length).flatMap (fun i => (segAt r i).holders.flatMap fun k =>
        dueIf (!ringEmpty s r i) (.ringToFifo lid i k) ++ dueIf (!(fifoAt r i k).isEmpty) (.packetPlace lid i k)) ++
      (List.range r.segs.length).flatMap (fun i => (segAt r i).draining.flatMap fun k => dueIf (!(fifoAt r i k).isEmpty) (.packetPlace lid i k)) ++
      dueIf (decide (r.threads ≤ r.exits)) (.runnerComplete lid)

/-- What is due for a context: its stop, its save, its restore, counters that have passed 2^48 − 1. -/
def ctxDue (s : State) (k : Nat) (c : Ctx) : List Due :=
  (match c.state with
    | .stopping => (List.range 8).map (fun d => Due.unitAck k d) ++ [Due.contextStopped k]
    | .stopped => [Due.save k]
    | .saving => [Due.save k]
    | .restoring => [Due.restore k]
    | _ => dueIf (mayRestore s k) (.restore k)) ++
  (c.cnt.filter fun x => decide (2 ^ 48 ≤ x.2)).map fun x => Due.counterOverflow k x.1

/-- A wait of a queue is tested: on the host window every 1,024 cycles (R241, R408). -/
def waitDue (s : State) (c : Cap) : Bool := decide (regionOf s.fabric.number (capBase c) ≠ .host) || decide (s.cycle % 1024 = 0)

/-- What is due for a host queue. -/
def queueDue (s : State) (n : Nat) (q : QueueSt) : List Due :=
  if !mayBegin s q then []
  else
    match q.raw, q.waiting with
    | some c, _ => match field c.1 127 1 with
      | 0 => [Due.queueNop n]
      | 1 => [Due.queueLaunch n]
      | 2 => [Due.queueWait n]
      | _ => [Due.queuePost n]
    | none, some w => dueIf (waitDue s w.1) (.queueWait n)
    | none, none => dueIf (ringHolds q && !inProgress q && !migrating s q.ctx) (.queueCommandBegin n)

/-- The lines of a group that some member has contributed to. -/
def groupDue (g : Nat) (x : MrGroup) : List Due := ((x.contrib.flatMap fun m => m.2.map fun w => w.1 / 32).eraseDups).map fun l => Due.mrDelivery g l

/-- Every step of another agent that is due now: packets are placed before forming sheaves are released (R218, R255). Log 1 (DESIGN CHOICE). -/
def dueNow (s : State) : List Due :=
  netDue s.net ++ s.sheaves.flatMap (fun e => sheafDue s e.1 e.2) ++ s.cores.flatMap (fun e => coreDue s e.1 e.2) ++
  (s.teams.flatMap fun t => dueIf (overdue s t.2) (.phaseOverrun t.1) ++ dueIf ((teamLive s t.1).all fun x => decide (x.2.2.status ≠ LaneStatus.live)) (.teamRetire t.1)) ++
  s.launches.flatMap (fun l => launchDue s l.1 l.2) ++
  s.sheaves.flatMap (fun e => dueIf (ctxRuns s e.2 && e.2.forming.isSome) (.sheafRelease e.1)) ++
  (s.clusters.flatMap fun u => dueIf (!u.2.queue.isEmpty) (.stageSetDispatch u.1) ++ dueIf u.2.asking.isSome (.stealReply u.1)) ++
  ((List.range 64).flatMap fun u => dueIf (!s.launches.isEmpty && mayAsk s u) (.stealRequest u)) ++
  s.ctxs.flatMap (fun c => ctxDue s c.1 c.2) ++ s.host.queues.flatMap (fun q => queueDue s q.1 q.2) ++
  s.groups.flatMap (fun g => groupDue g.1 g.2) ++ (s.dies.flatMap fun d => dueIf (!d.2.permits.isEmpty) (.permitGrant d.1)) ++
  dueIf (s.rake.running.isNone && !s.rake.waiting.isEmpty) .rakePassStart ++
  (match s.rake.running with
    | some p => if p.swept then [Due.rakePassComplete] else [Due.rakeBatch]
    | none => []) ++
  dueIf s.host.migration.isSome .migrate

/-- A lane's wait at the end of a cycle: a sleep is one cycle shorter (R151). Log 20 (DEDUCED). -/
def cycleHold (h : Option Hold) : Option Hold :=
  match h with
  | some (.sleep n) => some (.sleep (n - 1))
  | x => x

/-- A sheaf at the end of a cycle. -/
def cycleSheaf (sf : Sheaf) : Sheaf := { sf with lanes := sf.lanes.map fun l => (l.1, { l.2 with hold := cycleHold l.2.hold }) }

/-- A lane held in SIGWAIT.EXT, or no longer live (R194). -/
def extHeld (th : Thread) : Bool :=
  decide (th.status ≠ LaneStatus.live) || (match th.hold with
    | some (.sigwait _ _ e) => e
    | _ => false)

/-- A resident team whose phase count rises this cycle (R194). -/
def phaseCounts (s : State) (tid : Nat) (t : Team) : Bool := t.phaseN.isSome && (teamLive s tid).any fun x => !extHeld x.2.2

/-- The cycles that units wait for a permit are counted for their contexts (R336, R413). -/
def countPermits (s : State) : State :=
  s.cores.foldl (fun s c => [PermitUnit.copy, .array 0, .array 1].foldl (fun s u => match permitWaits s c.1 u with
    | some k => countEvent s k 8 1
    | none => s) s) s

/-- The counters of a context in the next cycle go by what is selected then (R149). -/
def reselect (c : Ctx) : Ctx := { c with sel := c.csel }

/-- The cores that work is on: those with sheaves, feeders or engine requests. -/
def busyCores (s : State) : List Nat := s.cores.map (·.1)

/-- The work of a cycle that no instruction names: the clock, waits that count cycles, phase counts, feed programs, arrays, resident cycles and permit waits, loads of
signals in the host window, monitors (R194, R241, R310, R413, R416). Log 20 (DEDUCED). -/
def endCycle (s : State) : State :=
  let s1 := { s with cycle := s.cycle + 1, quadPtr := 0, sheaves := s.sheaves.map fun e => (e.1, if ctxRuns s e.2 then cycleSheaf e.2 else e.2),
                     teams := s.teams.map fun t => (t.1, if phaseCounts s t.1 t.2 then { t.2 with phaseCount := t.2.phaseCount + 1 } else t.2) }
  let s2 := (busyCores s1).foldl (fun s k =>
    let s1 := feedStep s k
    (List.range 2).foldl (fun s a => if arrayMay s k a then mmaStep s k a else s) s1) s1
  let s3 := sampleMonitors (pollHost (s2.ctxs.foldl (fun s c => countEvent s c.1 0 1) (countPermits s2)))
  { s3 with ctxs := s3.ctxs.map fun c => (c.1, reselect c.2) }

/-- What the clock makes due at a cycle: ticks of logical time every 32 cycles (R271), broadcasts of depths every 256 (R219), the end of an old epoch (R428), and
at a season boundary the change of the season, of the quantum and of the mapping of queues (R269, R406, R410).
Log 1 (DESIGN CHOICE), 20 (DEDUCED). -/
def clockDue (s : State) : List Due :=
  (if s.cycle % 32 = 0 then (List.range Config.cores).map Due.ltimeTick else []) ++
  (if s.cycle % 256 = 0 then ((s.launches.flatMap fun l => match l.2.runner with
    | some r => runnerCores r
    | none => []).eraseDups).map Due.depthBroadcast else []) ++
  (if s.cycle % Config.seasonCycles = 0 then
    [Due.seasonBoundary] ++ dueIf (decide (s.host.quantumEnd ≤ s.season + 1)) .quantumChange ++ [Due.queueMapping]
   else []) ++
  (s.fabric.ports.filter fun p => p.2.grace.any fun t => decide (t ≤ s.cycle)).map fun p => Due.epochGraceEnd p.1

/-- The quadrants a cycle visits, from a place on: those with a sheaf of a context whose threads may issue. -/
def nextQuad (s : State) : Option Nat :=
  (s.sheaves.filter fun e => decide (s.quadPtr ≤ quadOf e.1) && ctxRuns s e.2).foldl (fun acc e => some (match acc with
    | some q => min q (quadOf e.1)
    | none => quadOf e.1)) none

/-- The next place of a cycle: the choice of the next quadrant (R181), or the end of the cycle.
Log 1 (DESIGN CHOICE). -/
def tick (s : State) : Result :=
  match nextQuad s with
  | some q => execSheafChoice (q / 4) (q % 4) (refreshQuad { s with quadPtr := q + 1 } q)
  | none =>
    let s1 := endCycle s
    .next { s1 with agenda := s1.agenda ++ clockDue s1 ++ dueNow s1 }

end Sys2Proof.Machine
end

