-- ==== Sys2Proof/Machine/Setup.lean ====
section
/-! DEFINITION. A word placed where the next step fetches it: a resident thread whose code capability covers the word, chosen to issue. It stands for what the
host and the launch path do before a thread's first fetch (R15, R196 to R203, R401). -/

namespace Sys2Proof.Machine

/-- The local address the word is placed at: the start of the second 2 MiB granule. -/
def setupBase : Nat := 0x200000

/-- The colour of the granule the word lies in. -/
def setupColour : Nat := 1

/-- The code capability: 4096 bytes, LD and EX, kind CODE (R19, R21, R22). -/
def setupCode : Cap :=
  { bits := capBits (BitVec.ofNat 52 (Config.selfDevice * 2 ^ 43 + setupBase)) 0 4096 0x005#10 (BitVec.ofNat 12 setupColour) 1 0 0 0, tag := true }

/-- A context that runs, with the colour in slot 0 of `sr.colours` and no limit of flits (R24, R269, R401).
Log 8 (DEDUCED). -/
def setupCtx (c : Ctx) : Ctx := { c with state := .running, quota := 65535, colours := 0x0001000000000000#64 ||| BitVec.ofNat 64 setupColour }

/-- A launch of one gang of one thread in the largest allocation (R61, R173). -/
def setupLaunch : Launch :=
  { ctx := 1, code := setupCode, args := nullCap, signal := nullCap, stack := nullCap, entry := 0, n := 1, g := 1, w := 32, s := 1, regs := 192, preds := 48,
    scratch := 0, stksz := 0, accHint := 0, allocRegs := 192, allocPreds := 48, tiles := 0, left := 1, handle := none, queue := none, pts := 0, runner := none }

/-- Its team, on core 0 (R173, R198). -/
def setupTeam : Team :=
  { launch := 0, ctx := 1, core := 0, index := 0, stage := 0, gangs := 1, width := 32, sheaves := [0], sbase := 0, slen := 0, tbase := 0, tcount := 0,
    accHint := 0, rps := [], phaseN := none, phaseCount := 0 }

/-- Its thread, at offset 0 of the code capability. -/
def setupThread : Thread := { threadStart with code := setupCode }

/-- Its sheaf, with the one lane. -/
def setupSheaf : Sheaf := { sheafEmpty with ctx := 1, team := some 0, regs := 192, lanes := [(0, setupThread)] }

/-- The word in memory, its granule owned by the colour, its thread resident and its group first to issue.
Log 8 (DEDUCED). -/
def placeWord (s : State) (w : DWord) : State :=
  { s with mem := writeMem s.mem setupBase (wordBytes w)
           granules := Tab.put s.granules 1 (0x4000#16 ||| BitVec.ofNat 16 setupColour)
           ctxs := Tab.put s.ctxs 1 (setupCtx (ctxAt s 1))
           launches := Tab.put s.launches 0 setupLaunch
           teams := Tab.put s.teams 0 setupTeam
           sheaves := Tab.put s.sheaves 0 setupSheaf
           issue := { sh := 0, mask := 1, pairMask := 0, rest := 0, word := none } :: s.issue }

end Sys2Proof.Machine
end

