-- ==== Sys2Proof/Machine/Step.lean ====
section
/-! DEFINITION. One step of the machine: the next group chosen to issue issues its word; where none is chosen, the next due step of another agent is taken;
where none is due, the clock goes on (R9, R178 to R186). -/

namespace Sys2Proof.Machine

/-- A group issues: its word is executed, or nothing is (a parked group, a lane that waits). -/
def stepIssue (s : State) (g : Group) : Host.Outcome State Fault Refusal :=
  match issueGroup s g with
  | .nothing s1 => .next s1
  | .word i s1 => exec i s1

/-- The step of the machine. Log 1 (DESIGN CHOICE). -/
def step (s : State) : Host.Outcome State Fault Refusal :=
  match s.issue with
  | g :: rest => stepIssue { s with issue := rest } g
  | [] =>
    match s.agenda with
    | d :: rest => runDue d { s with agenda := rest }
    | [] => tick s

/-- The state with an instruction's word where the next step fetches it. Every instruction has 64 bits (R55).
Log 8 (DEDUCED). -/
def State.withFetchWord (s : State) (nbits w : Nat) : State := placeWord s (BitVec.ofNat 64 (w % 2 ^ nbits))

end Sys2Proof.Machine
end

