-- ==== Sys2Proof/Safety.lean ====
section
/-! DEFINITION. The terms the statements use: the canonical form of memory, the lanes a word acts in as it sees them, what a lane is after its word, and when a
word stays where it stands. -/

namespace Sys2Proof

/-- Canonical form of a table with a default: keys strictly rising and above a bound, no entry equal to the default. -/
def Tab.okFrom {α : Type} [DecidableEq α] (d : α) : Option Nat → Tab α → Bool
  | _, [] => true
  | b, (k, v) :: t => (match b with
      | none => true
      | some x => decide (x < k)) && decide (v ≠ d) && Tab.okFrom d (some k) t

namespace Machine

/-- The canonical form of a memory: addresses strictly rising, no listed byte zero. -/
def Memory.wf (m : Memory) : Bool := Tab.okFrom 0 none m

/-- The lane as a word with a guard sees it: the active lanes, and those of them whose guard is true (R57, R179). -/
def laneEnv (s : State) (h : Guard) (x : Nat × Nat) : Option Env :=
  envOf s (activeLanes s) ((activeLanes s).filter fun y => match thread? s y.1 y.2 with
    | some th => guardTrue th h
    | none => false) x

/-- A move of a lane's PC stays in place: the target is aligned, and a runner thread stays in its segment (R16, R119, R211). -/
def inPlace (s : State) (sf : Sheaf) (th : Thread) (target : Word) : Bool :=
  decide (target.toNat % 8 = 0) && (match runnerOf s sf with
    | none => true
    | some r => inHandler th || decide (segmentOf r target = some th.seg))

/-- A thread past its word with the word's writes made (R13, R16, R126): run temporaries last for a run only. -/
def retired (th : Thread) (w : Wr) : Thread := dropTemps (pastWord { applyWr th w with pc := th.pc + 8 })

/-- A thread that its word moved to a target, with the word's writes made. -/
def moved (th : Thread) (w : Wr) (target : Word) : Thread := dropTemps (pastWord { applyWr th w with pc := target })

/-- The group in focus begins its word: no lane of it has done its part before (R179). -/
abbrev fresh (s : State) : Prop := ∀ g, s.focus = some g → g.rest = 0 ∧ g.word = none

/-- The active lanes are distinct resident lanes, and begin their word. -/
abbrev lanesDistinct (s : State) : Prop := (activeLanes s).Nodup ∧ (∀ x ∈ activeLanes s, (thread? s x.1 x.2).isSome = true) ∧ fresh s

/-- The lanes in focus all go past a word: they are distinct, no rule of modes and runs stops one, the next word is in place, and a lane that takes effect
meets the word's own condition and writes nothing a run forbids (R57, R127, R128, R212). -/
def lanesGoOn (s : State) (k : WordCfg) (ok : Env → Prop) (w : Env → Wr) : Prop :=
  lanesDistinct s ∧ ∀ x ∈ activeLanes s, wordStop s k x.1 x.2 = none ∧ ∀ e, laneEnv s k.guard x = some e →
    inPlace s e.sf e.th (e.th.pc + 8) = true ∧ (guardTrue e.th k.guard = true → ok e ∧ runForbids e.th (w e) = false)

/-- What a word leaves that only writes registers: each lane in focus past the word with its writes made where its guard is true, every other lane as it was,
no s-register changed where no lane writes one, and everything outside the sheaves as it was. -/
def lanesWrote (s t : State) (h : Guard) (w : Env → Wr) : Prop :=
  t = { s with sheaves := t.sheaves, focus := none } ∧
    (∀ x ∈ activeLanes s, ∀ e, laneEnv s h x = some e → thread? t x.1 x.2 = some (retired e.th (if guardTrue e.th h then w e else wrNone))) ∧
    (∀ y, y ∉ activeLanes s → thread? t y.1 y.2 = thread? s y.1 y.2) ∧
    (∀ j, (sheaf? t j).map (fun sf => { sf with lanes := [], s := [] }) = (sheaf? s j).map (fun sf => { sf with lanes := [], s := [] })) ∧
    ((∀ x ∈ activeLanes s, ∀ e, laneEnv s h x = some e → ∀ r ∈ (w e).regs, r.1 < 0xC0 ∨ 0xE0 ≤ r.1) →
      ∀ j, (sheaf? t j).map (fun sf => sf.s) = (sheaf? s j).map (fun sf => sf.s))

/-- An instruction completes and writes registers alone, in every lane of its group. -/
def wordWrites (i : Instr) (k : WordCfg) (ok : Env → Prop) (w : Env → Wr) : Prop :=
  ∀ s, lanesGoOn s k ok w → ∃ t, exec i s = .next t ∧ lanesWrote s t k.guard w

/-- The lanes in focus are distinct, no rule of modes and runs stops one, the next word is in place, and a lane that takes effect meets the word's own
condition. -/
def lanesMay (s : State) (k : WordCfg) (ok : Env → Prop) : Prop :=
  lanesDistinct s ∧ ∀ x ∈ activeLanes s, wordStop s k x.1 x.2 = none ∧ ∀ e, laneEnv s k.guard x = some e →
    inPlace s e.sf e.th (e.th.pc + 8) = true ∧ (guardTrue e.th k.guard = true → ok e)

/-- An instruction completes and changes the threads of its lanes alone: each lane in focus whose guard is true becomes a given thread, the others go past the
word; every other lane and everything outside the sheaves is as it was. -/
def wordLeaves (i : Instr) (k : WordCfg) (ok : Env → Prop) (new : Env → Thread) : Prop :=
  ∀ s, lanesMay s k ok → ∃ t, exec i s = .next t ∧ t = { s with sheaves := t.sheaves, focus := none } ∧
    (∀ x ∈ activeLanes s, ∀ e, laneEnv s k.guard x = some e → thread? t x.1 x.2 = some (if guardTrue e.th k.guard then new e else retired e.th wrNone)) ∧
    (∀ y, y ∉ activeLanes s → thread? t y.1 y.2 = thread? s y.1 y.2) ∧
    ∀ j, (sheaf? t j).map (fun sf => { sf with lanes := [], s := [] }) = (sheaf? s j).map (fun sf => { sf with lanes := [], s := [] })

/-- A lane may move to a target in place, having made some writes. -/
def mayMove (e : Env) (w : Wr) (target : Word) : Prop := inPlace e.s e.sf e.th target = true ∧ runForbids e.th w = false

/-- One lane is the whole group in focus, its guard is true, it is in no run, and its launch is no runner launch. -/
abbrev oneLane (s : State) (h : Guard) (sh ln : Nat) (sf : Sheaf) (th : Thread) : Prop :=
  s.focus = some { sh := sh, mask := BitVec.ofNat 32 (2 ^ ln), pairMask := 0, rest := 0, word := none } ∧ ln < 32 ∧ sheaf? s sh = some sf ∧ Tab.at? sf.lanes ln = some th ∧
    guardTrue th h = true ∧ th.run = none ∧ th.word = none ∧ runnerOf s sf = none ∧ th.pc.toNat % 8 = 0

/-- The one lane as its word sees it. -/
def soloEnv (s : State) (sh ln : Nat) (sf : Sheaf) (th : Thread) : Env :=
  { s := s, sh := sh, ln := ln, sf := sf, th := th, acts := [(sh, ln)], parts := [(sh, ln)] }

/-- Nothing is on its way, no watched load waits, no cluster unit holds a line and the core's injection port does not hold the context back (R269): what a thread loads is
what memory holds, unless a copy serves it. -/
abbrev quiet (s : State) (core ctx : Nat) : Prop :=
  s.net = netEmpty ∧ (coreAt s core).watch = [] ∧ s.clusters = [] ∧ mayInject s core ctx = true

/-- Every lane but one is as it was. -/
def lanesKept (s t : State) (sh ln : Nat) : Prop := ∀ y, y ≠ (sh, ln) → thread? t y.1 y.2 = thread? s y.1 y.2

/-- What the sheaves hold beside lanes and scalar registers is as it was. -/
def sheavesKept (s t : State) : Prop :=
  ∀ j, (sheaf? t j).map (fun sf => { sf with lanes := [], s := [] }) = (sheaf? s j).map (fun sf => { sf with lanes := [], s := [] })

/-- The scalar registers are as they were unless the writes name one. -/
def scalarsKept (s t : State) (w : Wr) : Prop :=
  (∀ r ∈ w.regs, r.1 < 0xC0 ∨ 0xE0 ≤ r.1) → ∀ j, (sheaf? t j).map (fun sf => sf.s) = (sheaf? s j).map (fun sf => sf.s)

/-- A lane became a given thread, and no other lane and nothing its sheaves share changed. -/
def becomes (s t : State) (sh ln : Nat) (th : Thread) : Prop :=
  thread? t sh ln = some th ∧ lanesKept s t sh ln ∧ sheavesKept s t ∧ scalarsKept s t wrNone

/-- A lane went past its word with some writes, and no other lane changed. -/
def goesPast (e : Env) (t : State) (w : Wr) : Prop :=
  thread? t e.sh e.ln = some (retired e.th w) ∧ lanesKept e.s t e.sh e.ln ∧ sheavesKept e.s t ∧ scalarsKept e.s t w

/-- A lane stands at its word, held. -/
def waitsWith (e : Env) (t : State) (h : Hold) : Prop := becomes e.s t e.sh e.ln { e.th with hold := some h }

/-- A lane stands at its word, which has begun and waits with its group, held (R179). -/
def waitsBegun (e : Env) (t : State) (h : Hold) : Prop := ∃ id, becomes e.s t e.sh e.ln { e.th with word := some id, hold := some h }

/-- A lane that waited goes past its word with some writes. -/
def goesOn (s t : State) (sh ln : Nat) (th : Thread) (w : Wr) : Prop :=
  thread? t sh ln = some (retired { th with hold := none, word := none } w) ∧ lanesKept s t sh ln ∧ sheavesKept s t ∧ scalarsKept s t w

/-- The context records are as they were but for what they count of the packets that were sent and of the accesses that slices served (R269, R413). -/
def accounts (s t : State) : Prop := ∀ k, { ctxAt t k with cnt := [], spent := [] } = { ctxAt s k with cnt := [], spent := [] }

/-- One core became another, and no other core changed. -/
def coreBecomes (s t : State) (k : Nat) (c : CoreSt) : Prop := coreAt t k = c ∧ ∀ j, j ≠ k → coreAt t j = coreAt s j

/-- The cores are as they were but for one core's logical time and the copies that it holds. -/
def copiesOnly (s t : State) (k : Nat) : Prop :=
  { coreAt t k with pts := 0, dcache := [], atoms := [] } = { coreAt s k with pts := 0, dcache := [], atoms := [] } ∧ ∀ j, j ≠ k → coreAt t j = coreAt s j

/-- The request is a load of a signal (R241). -/
def signalWant (w : Want) : Bool :=
  match w with
  | .sig _ _ => true
  | .sigRest _ _ => true
  | _ => false

/-- The loads of a signal that a lane has out are given up (R241): nothing else that is on its way changes, and without one nothing is sent. -/
def signalsGivenUp (s t : State) (sh ln : Nat) : Prop :=
  let mine := fun (r : Req) => r.sh = sh ∧ r.ln = ln ∧ signalWant r.want = true
  t.net = { s.net with peerReqs := t.net.peerReqs, pcieReqs := t.net.pcieReqs, out := t.net.out } ∧
    (∀ r, r ∈ t.net.peerReqs ↔ r ∈ s.net.peerReqs ∧ ¬mine r) ∧ (∀ r, r ∈ t.net.pcieReqs ↔ r ∈ s.net.pcieReqs ∧ ¬mine r) ∧
    ((∀ r ∈ s.net.peerReqs, ¬mine r) → t.net.out = s.net.out)

/-- An instruction issued for one lane, where a condition holds, leads to a state the lane's own effect describes. -/
def aloneDoes (i : Instr) (h : Guard) (ok : Env → Prop) (after : Env → State → Prop) : Prop :=
  ∀ s sh ln sf th, oneLane s h sh ln sf th → ok (soloEnv s sh ln sf th) → ∃ t, exec i s = .next t ∧ after (soloEnv s sh ln sf th) t

/-- Every lane of a sheaf that is at a thread's word, where that word has begun, meets a condition (R179). -/
def wordmates (sf : Sheaf) (th : Thread) (p : Nat → Thread → Prop) : Prop := ∀ id ∈ th.word, ∀ l ∈ sf.lanes, l.2.word = some id → p l.1 l.2

/-- A lane that stands at a word outside runs and runner launches. -/
abbrev standsAt (s : State) (sh ln : Nat) (sf : Sheaf) (th : Thread) : Prop :=
  sheaf? s sh = some sf ∧ Tab.at? sf.lanes ln = some th ∧ th.run = none ∧ runnerOf s sf = none ∧ th.pc.toNat % 8 = 0

/-- A lane that stands at a word outside runs and runner launches, alone at it. -/
abbrev standing (s : State) (sh ln : Nat) (sf : Sheaf) (th : Thread) : Prop := standsAt s sh ln sf th ∧ wordmates sf th fun k _ => k = ln

/-- An event leads to a state that a relation describes. -/
def leadsTo (i : Instr) (s : State) (after : State → Prop) : Prop := ∃ t, exec i s = .next t ∧ after t

/-- A mask of the live parked lanes of a gang. -/
def parkBits (sf : Sheaf) (base : Nat) (m : Word) : Prop :=
  ∀ k, k < 32 → m.getLsbD k =
    (decide (k < sf.width) && sf.lanes.any fun x => decide (x.1 = base + k) && decide (x.2.status = LaneStatus.live) && x.2.park.isSome)

/-- The parked thread of a fault taken outside a run (R377 to R381): the cause, the address, the resume offset and `sr.finfo`, everything else as it was. -/
def parkedWith (th : Thread) (sub cause info addr : Nat) (fpc : Word) : Thread :=
  { th with t := [], hold := none, word := none, buf := [], park := some { sub := sub, inHandler := false },
            spr := { th.spr with cause := BitVec.ofNat 32 cause, faddr := BitVec.ofNat 32 (addr % 2 ^ 32), faddrhi := BitVec.ofNat 32 (addr / 2 ^ 32 % 2 ^ 20),
                                 fpc := fpc, finfo := BitVec.ofNat 32 info } }

/-- A lane parks: its thread, and the sub-sheaf that holds it with the code capability it was in. -/
def parks (s t : State) (sh ln : Nat) (sf : Sheaf) (th : Thread) (cause info addr : Nat) (fpc : Word) : Prop :=
  let sub := (Tab.firstFree sf.subs 64).getD 64
  thread? t sh ln = some (parkedWith th sub cause info addr fpc) ∧ lanesKept s t sh ln ∧
    (sheaf? t sh).map (fun x => { x with lanes := [] }) =
      some { sf with lanes := [], subs := Tab.put sf.subs sub { mask := BitVec.ofNat 32 (2 ^ ln), savedCode := th.code, inHandler := false } } ∧
    (∀ k, coreAt t k = { coreAt s k with watch := (coreAt s k).watch.filter fun w => !decide (k = coreOf sh ∧ w.sh = sh ∧ w.ln = ln ∧ w.inRun = true) }) ∧
    signalsGivenUp s t sh ln

/-- A lane parks at its word, and the machine is otherwise as it was. -/
def parksAlone (s t : State) (sh ln : Nat) (sf : Sheaf) (th : Thread) (cause info addr : Nat) (fpc : Word) : Prop :=
  parks s t sh ln sf th cause info addr fpc ∧ t = { s with sheaves := t.sheaves, cores := t.cores, net := t.net, focus := none }

/-- Bytes of a memory from an address became others, and no other byte changed. -/
def wroteBytes (m m' : Memory) (l : Nat) (b : List Byte) : Prop :=
  readMem m' l b.length = b ∧ ∀ x, x < l ∨ l + b.length ≤ x → readByte m' x = readByte m x

/-- No byte of a memory changed. -/
def keptBytes (m m' : Memory) : Prop := ∀ x, readByte m' x = readByte m x

/-- An access of a lane passes the checks of R25 at an address of local HBM whose granule belongs to the capability's colour (R25, R27). -/
def mayAccess (e : Env) (c : Cap) (k : Access) (off : Int) (size align a : Nat) : Prop :=
  accessAddr e c k off size align = .ok a ∧ regionOf e.s.fabric.number a = .hbm ∧ granuleCheck e.s (localOf a) (capColour c) = .pass

/-- No copy that the lane's core holds serves an access: of its data cache, or for a stack capability of its stack cache. -/
def noCopy (e : Env) (c : Cap) (a : Nat) : Prop :=
  Tab.at? (coreAt e.s (coreOf e.sh)).dcache (lineOf (localOf a)) = none ∧
    (capKind c = 4 → Tab.at? (quadAt e.s (quadOf e.sh)).stack (lineOf (localOf a)) = none)

/-- A structure of `n` granules passes its checks at an address of local HBM, its granules belong to the capability's colour, and the lane's core reads them at
their home with no quota to wait for (R25, R27, R246, R269). -/
def readsStruct (e : Env) (c : Cap) (k : Access) (n a : Nat) : Prop :=
  accessAddr e c k 0 (16 * n) 16 = .ok a ∧ localOf a + 16 * n ≤ 2 ^ 42 ∧ regionOf e.s.fabric.number a = .hbm ∧
    (∀ i, i < n → granuleCheck e.s (localOf a + 16 * i) (capColour c) = .pass) ∧ quiet e.s (coreOf e.sh) e.sf.ctx ∧ (coreAt e.s (coreOf e.sh)).dcache = [] ∧
    (ctxAt e.s e.sf.ctx).quota = 65535 ∧ e.th.buf = []

/-- The bytes and tags of a structure of `n` granules in local HBM (R246, R321). -/
def structAt (e : Env) (a n : Nat) : List Byte × List Bool :=
  granuleBytes ((List.range n).map fun i => capOfBytes e.s (readMem e.s.mem (localOf a + 16 * i) 16) (Tab.get false e.s.tags (localOf a / 16 + i)))

/-- What a lane's reads of local HBM change beside its sheaf: the copies and the time of its core, the leases of homes, and the counts of its context. -/
def readsOnly (e : Env) (t : State) : Prop :=
  t = { e.s with sheaves := t.sheaves, slices := t.slices, cores := t.cores, ctxs := t.ctxs, nextId := t.nextId, focus := none } ∧ accounts e.s t

/-- The bytes of memory at a global address of local HBM. -/
def bytesAt (s : State) (a n : Nat) : List Byte := readMem s.mem (localOf a) n

/-- What an atomic leaves its lane: the old value and its flags, or nothing with `.N` (R145, R146). -/
def oldValue (d : BitVec 8) (n old : Nat) (keep : Bool) (flags : Word) : Wr :=
  if keep then wrNone else wrFlags (if n = 8 then wrPair d (BitVec.ofNat 64 old) else wrReg d (BitVec.ofNat 32 old)) flags

/-- A value of `n` bytes as a signed number. -/
def signedValue (n x : Nat) : Int := if x < 2 ^ (8 * n - 1) then x else (x : Int) - 2 ^ (8 * n)

/-- The new value of each operation of R146 on `n` bytes, and its flags. -/
def atomTable (n : Nat) : List (Nat → Nat → Nat × Word) :=
  let w := 2 ^ (8 * n)
  let t := if n = 8 then 14 else 2
  [fun x v => ((x + v) % w, 0), fun x v => (if signedValue n x ≤ signedValue n v then x else v, 0), fun x v => (if signedValue n x ≤ signedValue n v then v else x, 0),
   fun x v => (if x ≤ v then x else v, 0), fun x v => (if x ≤ v then v else x, 0), fun x v => (x &&& v, 0), fun x v => (x ||| v, 0), fun x v => (x ^^^ v, 0),
   fun _ v => (v, 0), fun x v => addBits t 0 false x v, fun x v => minMaxBits false t false x v, fun x v => minMaxBits true t false x v,
   fun x v => (if v ≤ x then 0 else x + 1, 0)]

/-- An access of scratch at an offset within the team's allocation that meets no tile of ENGINE (R303, R315). -/
def mayScratch (e : Env) (o : MF) (n a : Nat) : Prop :=
  0 ≤ memOff e o ∧ memOff e o + n ≤ (scratchOf e.s e.sf).2 ∧ (memOff e o).toNat % n = 0 ∧ a = (scratchOf e.s e.sf).1 + (memOff e o).toNat ∧
    engineTouches e.s (coreOf e.sh) a n = false ∧ quiet e.s (coreOf e.sh) e.sf.ctx

/-- Bytes of a core's scratch became others, their granules lost their tags, and nothing else of any core changed (R28, R304). -/
def wroteScratch (e : Env) (t : State) (a : Nat) (b : List Byte) : Prop :=
  let k := coreOf e.sh
  wroteBytes (coreAt e.s k).scratch (coreAt t k).scratch a b ∧
    (∀ g, Tab.get false (coreAt t k).stags g = if a / 16 ≤ g ∧ g ≤ (a + b.length - 1) / 16 then false else Tab.get false (coreAt e.s k).stags g) ∧
    { coreAt t k with scratch := [], stags := [] } = { coreAt e.s k with scratch := [], stags := [] } ∧ ∀ j, j ≠ k → coreAt t j = coreAt e.s j

/-- A mailbox in local HBM with its ring: HEAD, TAIL and SIZE as R138 wants them, `n` entries in it. -/
def mailbox (s : State) (c : Cap) (head tail size n : Nat) : Prop :=
  let l := localOf (capBase c)
  ofBytes (readMem s.mem l 4) = head ∧ ofBytes (readMem s.mem (l + 4) 4) = tail ∧ ofBytes (readMem s.mem (l + 8) 4) = size ∧
    (∃ k, k < 20 ∧ size = 2 ^ (k + 1)) ∧ (tail + 2 ^ 32 - head) % 2 ^ 32 = n ∧ n ≤ size ∧ 64 + 32 * size ≤ capLen c ∧ capBase c % 16 = 0

/-- An entry was written at a mailbox's TAIL, which went on by one, and no other byte changed (R138, R139). -/
def mailPut (s t : State) (c carried : Cap) (tail size : Nat) (word record : DWord) : Prop :=
  let l := localOf (capBase c)
  let a := l + 64 + 32 * (tail % size)
  readMem t.mem a 32 = toBytes 16 carried.bits.toNat ++ toBytes 8 word.toNat ++ toBytes 8 record.toNat ∧ Tab.get false t.tags (a / 16) = carried.tag ∧
    readMem t.mem (l + 4) 4 = toBytes 4 ((tail + 1) % 2 ^ 32) ∧
    ∀ x, (x < a ∨ a + 32 ≤ x) → (x < l + 4 ∨ l + 8 ≤ x) → readByte t.mem x = readByte s.mem x

/-- What a CRECV takes from a mailbox's HEAD (R138, R140). -/
def mailEntry (s : State) (c : Cap) (head size : Nat) : Cap × DWord × DWord :=
  let a := localOf (capBase c) + 64 + 32 * (head % size)
  (rakeFilter s { bits := BitVec.ofNat 128 (ofBytes (readMem s.mem a 16)), tag := Tab.get false s.tags (a / 16) },
   BitVec.ofNat 64 (ofBytes (readMem s.mem (a + 16) 8)), BitVec.ofNat 64 (ofBytes (readMem s.mem (a + 24) 8)))

/-- The tables of sheaves and lanes list no number twice. -/
def tidy (s : State) : Prop := (s.sheaves.map (·.1)).Nodup ∧ ∀ e ∈ s.sheaves, (e.2.lanes.map (·.1)).Nodup

/-- Every lane that waits for something goes on with its writes, and every other lane but those of a list is as it was. -/
def wakes (s t : State) (but : List (Nat × Nat)) (waits : Nat → Nat → Thread → Option Wr) : Prop :=
  ∀ e ∈ s.sheaves, ∀ l ∈ e.2.lanes, (e.1, l.1) ∉ but → thread? t e.1 l.1 = some (match waits e.1 l.1 l.2 with
    | some w => retired { l.2 with hold := none, word := none } w
    | none => l.2)

/-- The lanes that wait for something stand at their words outside runs and runner launches, each with all lanes of its word. -/
def waitersStand (s : State) (waits : Nat → Nat → Thread → Option Wr) : Prop :=
  tidy s ∧ ∀ e ∈ s.sheaves, ∀ l ∈ e.2.lanes, (waits e.1 l.1 l.2).isSome = true →
    standsAt s e.1 l.1 e.2 l.2 ∧ wordmates e.2 l.2 fun k u => (waits e.1 k u).isSome = true

/-- The lanes of a team held at a rendezvous point since before its latest completion (R192). -/
def rdvFreed (s : State) (team i turns : Nat) (sh _ln : Nat) (th : Thread) : Option Wr :=
  if (sheaf? s sh).bind (fun sf => sf.team) = some team then
    (match th.hold with
      | some (.rdv j n) => if j = i ∧ n ≠ turns then some wrNone else none
      | _ => none)
  else none

/-- A lane's word names tile `k` of its team: entry `i` of its core, whose value is `x`, held by a thread with no transfer over it (R314, R342). -/
def namesTile (e : Env) (id : Nat) (team : Team) (k i : Nat) (x : Tile) : Prop :=
  e.sf.team = some id ∧ Tab.at? e.s.teams id = some team ∧ e.sh < feederBase ∧ k < team.tcount ∧ i = team.tbase + k ∧ x = tileAt e.s team.core i ∧
    x.engine = false ∧ ∀ y ∈ (coreAt e.s team.core).tiles, y.1 ≠ i → y.2.engine = true → tilesOverlap x y.2 = false

/-- One entry of a core's tile table and its copy queue changed, and nothing else of any core. -/
def tileBecomes (s t : State) (core i : Nat) (x : Tile) (q : List CopyReq) : Prop :=
  tileAt t core i = x ∧ (∀ j, j ≠ i → tileAt t core j = tileAt s core j) ∧ (coreAt t core).copyq = (coreAt s core).copyq ++ q ∧
    { coreAt t core with tiles := [], copyq := [] } = { coreAt s core with tiles := [], copyq := [] } ∧ ∀ j, j ≠ core → coreAt t j = coreAt s j

/-- A tagged capability whose BASE lies in a range of a pass. -/
def inSweep (p : Pass) (c : Cap) : Bool := c.tag && p.ranges.any fun r => decide (r.base ≤ capBase c) && decide (capBase c < r.base + r.len)

/-- A word on a group's window (R337, R360): the group is valid, its byte lies in it, and the type agrees. -/
def onGroup (e : Env) (c : Cap) (off g byte : Nat) (t : Option Nat) : Prop :=
  ∃ a, accessAddr e c accMr off 4 4 = .ok a ∧ regionOf e.s.fabric.number a = .windows ∧ g = localOf a / 2 ^ 30 % 1024 ∧ byte = localOf a % 2 ^ 30 ∧
    (groupAt e.s g).valid = true ∧ byte < 128 * (groupAt e.s g).desc.lines ∧ ∀ v, t = some v → groupT (groupAt e.s g).desc.type = some v

/-- The lanes held in MRWAIT on a group for which a condition holds. -/
def mrWaits (g : Nat) (p : Nat → Word → Bool) (_sh _ln : Nat) (th : Thread) : Option Wr :=
  match th.hold with
  | some (.mr x m target) => if x = g ∧ p m target = true then some wrNone else none
  | _ => none

/-- Lanes of a sheaf held on an array's operation, among those of a mask. -/
def arrayHeld (sh : Nat) (mask : Word) (w : Wr) (x ln : Nat) (th : Thread) : Option Wr :=
  if x = sh ∧ ln < 32 ∧ mask.getLsbD ln = true ∧ th.hold = some .array then some w else none

/-- Lanes of a sheaf held in ACCALLOC, among those of a mask. -/
def accHeldLanes (sh : Nat) (mask : Word) (w : Wr) (x ln : Nat) (th : Thread) : Option Wr :=
  if x = sh ∧ ln < 32 ∧ mask.getLsbD ln = true ∧ th.hold = some .acc then some w else none

/-- The lanes of a context held on a handle that names no launch any more. -/
def launchFreed (s t : State) (ctx : Nat) (sh _ln : Nat) (th : Thread) : Option Wr :=
  if (sheaf? s sh).map (fun sf => sf.ctx) = some ctx then
    (match th.hold with
      | some (.lwait h) => if namedLaunch t ctx h = none then some wrNone else none
      | _ => none)
  else none

/-- The thread a packet makes on arrival in lane `n` of its sheaf (R216, R224): what the packet carries, everything else as at thread start. -/
def arrives (s : State) (l : Launch) (p : Packet) (n : Nat) (u : Thread) : Prop :=
  u.status = .live ∧ u.pc = p.tpc ∧ u.seg = p.seg ∧ u.tid = p.tid ∧ u.gangid = p.gangid ∧ u.teamid = p.teamid ∧ u.lane = n % l.w ∧ u.code = capOpen l.code ∧
    u.spr = p.spr ∧ (∀ i, i < 189 → gReg u i = Tab.get 0 p.g i) ∧ gReg u 189 = p.g189 ∧ gReg u 190 = p.g190 ∧ gReg u 191 = p.g191 ∧
    (∀ k, Tab.get false u.p k = (decide (k < 16) && p.pred.getLsbD k)) ∧ (∀ k c, Tab.at? p.c k = some c → cReg u k = rakeFilter s c) ∧
    (∀ k, Tab.at? p.c k = none → cReg u k = nullCap) ∧ u.t = [] ∧ u.run = none ∧ u.hold = none ∧ u.park = none

/-- The runner side of a launch became another, and nothing else of the launches changed. -/
def runnerBecomes (s t : State) (id : Nat) (l : Launch) (r : Runner) : Prop :=
  Tab.at? t.launches id = some { l with runner := some r } ∧ ∀ j, j ≠ id → Tab.at? t.launches j = Tab.at? s.launches j

/-- One context record became another, and no other record changed. -/
def ctxBecomes (s t : State) (k : Nat) (c : Ctx) : Prop := ctxAt t k = c ∧ ∀ j, j ≠ k → ctxAt t j = ctxAt s j

/-- A context record that a stop request has met (R392). -/
def stopping (c : Ctx) (why : StopReason) : Ctx := { c with state := .stopping, why := some why, acks := [] }

/-- A context has no runner launch. -/
def noRunner (s : State) (k : Nat) : Prop := ∀ e ∈ s.launches, e.2.ctx = k → e.2.runner = none

/-- No lane waits in LWAIT or MRWAIT, which a restore tests again (R398). -/
def noAcquire (l : Tab Sheaf) : Prop := ∀ e ∈ l, ∀ x ∈ e.2.lanes, (match x.2.hold with
  | some (.lwait _) => false
  | some (.mr _ _ _) => false
  | _ => true) = true

/-- One queue became another, and no other queue changed. -/
def queueBecomes (s t : State) (q : Nat) (x : QueueSt) : Prop := queueAt t q = some x ∧ ∀ j, j ≠ q → queueAt t j = queueAt s j

/-- A queue whose command is complete, where no pending queue has marked it (R408). -/
def queueDone (s t : State) (q : Nat) (x : QueueSt) : Prop := queueBecomes s t q { x with raw := none, waiting := none, launch := none, answered := none, buf := [], state := 0 }

/-- A queue in error: STATE 2, nothing in progress, and the host told with its HEAD (R408, R414). -/
def queueFails (s t : State) (q : Nat) (x : QueueSt) : Prop :=
  ∃ s1, queueBecomes s s1 q { x with raw := none, waiting := none, launch := none, answered := none, buf := [], state := 2 } ∧ s1 = { s with host := s1.host } ∧ s1.host.funcs = s.host.funcs ∧
    t = postEvent s1 x.func 0x06 q x.head

/-- A queue holds a command in progress of a kind and may carry it on; nothing has marked it (R408, R410). -/
def queueAtCommand (s : State) (q : Nat) (x : QueueSt) (b : List Byte) (tags : Byte) (kind : Nat) : Prop :=
  queueAt s q = some x ∧ mayBegin s x = true ∧ x.marked = none ∧ x.raw = some (b, tags) ∧ field b 127 1 = kind

/-- A function's admin ring holds a command at HEAD that the master takes now, of a code, with its reserved bytes zero (R402, R403, R438, R442). -/
def adminWaits (s : State) (fn : Nat) (cmd : List Byte) (code : Nat) (named : List (Nat × Nat)) : Prop :=
  cmd.length = 64 ∧ field cmd 0 1 = code ∧ reservedZero cmd named = true ∧ fn < 64 ∧ fnEnabled s fn = true ∧ (funcAt s fn).adminCtl.getLsbD 0 = true ∧
    (funcAt s fn).adminHead ≠ (funcAt s fn).adminTail ∧ s.host.migration = none ∧ s.boot.usable = true

/-- The state in which a command has been taken: it has been read from the ring, and ADMIN_HEAD counts it. -/
def adminTaken (s : State) (fn : Nat) : State := updFunc (send s (.hostRead fn (adminSlot (funcAt s fn)) 64)) fn fun f => { f with adminHead := f.adminHead + 1 }

/-- A command, once taken, has its effect and raises its completion with a status and a result (R402, R415). -/
def commandDoes (i : Instr) (s : State) (fn : Nat) (cmd : List Byte) (st data : Nat) (effect : State → State → Prop) : Prop :=
  ∃ u, exec i s = .next (raiseEvent u fn (eventBytes 0x01 st (field cmd 2 2) 0 data)) ∧ effect (adminTaken s fn) u

/-- A command is refused with a status and has no effect (R402). -/
def commandFails (i : Instr) (s : State) (fn : Nat) (cmd : List Byte) (st : Nat) : Prop := commandDoes i s fn cmd st 0 fun a b => b = a

/-- An effect on the context records alone. -/
def ctxEffect (k : Nat) (c : Ctx) (a b : State) : Prop := ctxBecomes a b k c ∧ b = { a with ctxs := b.ctxs }

/-- An effect that sends one message to the host and changes nothing else. -/
def tellsHost (o : Out) (a b : State) : Prop := b = { a with net := { a.net with out := a.net.out ++ [o] } }

/-- An effect on one queue alone. -/
def queueGone (q : Nat → QueueSt → Prop) (a b : State) : Prop :=
  (∀ n x, queueAt b n = some x → ∃ y, queueAt a n = some y ∧ ¬ q n y ∧ x = { y with marked := x.marked }) ∧
    ∀ n y, queueAt a n = some y → ¬ q n y → ∃ m, queueAt b n = some { y with marked := m }

end Machine

end Sys2Proof
end

