-- ==== Sys2Proof/Certificates/Slice0/Obligations.lean ====
section
/-! DEFINITION. The statements for the provers. -/

open Sys2Proof Sys2Proof.Machine

/-! ### Words that compute -/

/-- IALU, IMISC, IIMM and LIH complete in every lane of their group: the destination takes the operation on the operands R62 reads, and nothing else
changes (R84, R89 to R97). -/
def Obligations.IntegerWordsComplete : Prop :=
  ∀ (h : Guard) (o : Tri) (m : I12) (u : I20),
    let two := fun (i : Instr) (f : Nat → Word → Word → Word) =>
      wordWrites i (cfg h) (fun _ => True) fun e => wrReg o.d (f o.t.toNat (src e o.a o.t.toNat) (src e o.b o.t.toNat))
    let one := fun (i : Instr) (f : Nat → Word → Word) => wordWrites i (cfg h) (fun _ => True) fun e => wrReg o.d (f o.t.toNat (src e o.a o.t.toNat))
    let imm := fun (i : Instr) (f : Word → Word → Word) => wordWrites i (cfg h) (fun _ => True) fun e => wrReg m.d (f (src e m.a 0) (m.imm.signExtend 32))
    two (.add h o) opAdd ∧ two (.sub h o) opSub ∧ two (.mul h o) opMul ∧ two (.mulh h o) opMulh ∧ two (.mulhu h o) opMulhu ∧
    wordWrites (.mad h o) (cfg h) (fun _ => True) (fun e =>
      wrReg o.d (opAdd o.t.toNat (opMul o.t.toNat (src e o.a o.t.toNat) (src e o.b o.t.toNat)) (src e o.c o.t.toNat))) ∧
    two (.and h o) (fun _ a b => a &&& b) ∧ two (.or h o) (fun _ a b => a ||| b) ∧ two (.xor h o) (fun _ a b => a ^^^ b) ∧
    two (.andn h o) (fun _ a b => a &&& ~~~b) ∧ two (.orn h o) (fun _ a b => a ||| ~~~b) ∧
    two (.shl h o) opShl ∧ two (.shr h o) opShr ∧ two (.sar h o) opSar ∧ two (.rot h o) (fun _ a b => a.rotateLeft (b.toNat % 32)) ∧
    wordWrites (.sel h o) (cfg h) (fun _ => True) (fun e =>
      wrT o.d o.t.toNat (srcT e (if pReg e.th (ctlByte o % 64) != decide (128 ≤ ctlByte o) then o.a else o.b) o.t.toNat)) ∧
    two (.min h o) opMin ∧ two (.max h o) opMax ∧ one (.abs h o) opAbs ∧ one (.clz h o) (fun _ => opClz) ∧ one (.popc h o) (fun _ => opPopc) ∧
    one (.brev h o) (fun _ => opBrev) ∧
    wordWrites (.bfx h o) (cfg h) (fun _ => True) (fun e => wrReg o.d (opBfx o.t.toNat (src e o.a o.t.toNat) (src e o.b 0) (src e o.c 0))) ∧
    wordWrites (.bfi h o) (cfg h) (fun _ => True) (fun e => wrReg o.d (opBfi (readCode e o.d.toNat) (src e o.a 0) (src e o.b 0) (src e o.c 0))) ∧
    two (.div h o) opDiv ∧ two (.rem h o) opRem ∧
    wordWrites (.addc h o) (cfg h) (fun _ => True) (fun e =>
      let v := (src e o.a 1).toNat + (src e o.b 1).toNat + (if pReg e.th (ctlByte o % 64) then 1 else 0)
      wrBoth (wrReg o.d (BitVec.ofNat 32 v)) (wrPred (ctlByte o % 64) (decide (2 ^ 32 ≤ v)))) ∧
    wordWrites (.subb h o) (cfg h) (fun _ => True) (fun e =>
      let v : Int := ((src e o.a 1).toNat : Int) - (src e o.b 1).toNat - (if pReg e.th (ctlByte o % 64) then 1 else 0)
      wrBoth (wrReg o.d (BitVec.ofInt 32 v)) (wrPred (ctlByte o % 64) (decide (v < 0)))) ∧
    wordWrites (.lop3 h o) (cfg h) (fun _ => True) (fun e => wrReg o.d (opLop3 (ctlByte o) (readCode e o.d.toNat) (src e o.a 0) (src e o.b 0))) ∧
    wordWrites (.prmt h o) (cfg h) (fun _ => True) (fun e => wrReg o.d (opPrmt (src e o.a 0) (src e o.b 0) (src e o.c 0))) ∧
    wordWrites (.mov h o) (cfg h) (fun _ => True) (fun e => wrT o.d o.t.toNat (srcT e o.a o.t.toNat)) ∧
    wordWrites (.sad h o) (cfg h) (fun _ => True) (fun e => wrReg o.d (opSad o.t.toNat (src e o.a o.t.toNat) (src e o.b o.t.toNat) (src e o.c 0))) ∧
    imm (.addi h m) (fun a v => a + v) ∧ imm (.andi h m) (fun a v => a &&& v) ∧ imm (.ori h m) (fun a v => a ||| v) ∧ imm (.xori h m) (fun a v => a ^^^ v) ∧
    imm (.shli h m) (opShl 0) ∧ imm (.shri h m) (opShr 0) ∧ imm (.sari h m) (opSar 0) ∧ imm (.muli h m) (fun a v => a * v) ∧
    wordWrites (.lih h u) (cfg h) (fun _ => True) (fun _ => wrReg u.d (BitVec.ofNat 32 (u.imm.toNat * 4096)))

/-- Integer results (R54): sums, differences, products and shifts keep the low bits of the exact result in each element, and no carry leaves an element; ADDC and
SUBB leave theirs in a predicate; division rounds towards zero, a remainder takes the sign of the dividend, and the borderline cases are fixed and never fault. -/
def Obligations.IntegerArithmetic : Prop :=
  (∀ t ∈ [0, 1, 5, 6, 7, 8, 11, 13], ∀ (x y : Word) (k : Nat), k < 32 / elemWidth t →
    let w := elemWidth t
    let el := fun (v : Word) => v.toNat / 2 ^ (w * k) % 2 ^ w
    el (opAdd t x y) = (el x + el y) % 2 ^ w ∧
    (el (opSub t x y) : Int) = ((el x : Int) - el y) % 2 ^ w ∧
    el (opMul t x y) = el x * el y % 2 ^ w ∧
    el (opMulhu t x y) = el x * el y / 2 ^ w ∧
    el (opShl t x y) = el x * 2 ^ (el y % w) % 2 ^ w ∧
    el (opShr t x y) = el x / 2 ^ (el y % w) ∧
    (el (opSar t x y) : Int) = (if 2 ^ (w - 1) ≤ el x then (el x : Int) - 2 ^ w else el x) / 2 ^ (el y % w) % 2 ^ w ∧
    el (opMin t x y) = (if intOf t (el x) ≤ intOf t (el y) then el x else el y) ∧
    el (opMax t x y) = (if intOf t (el x) ≤ intOf t (el y) then el y else el x)) ∧
  (∀ (h : Guard) (o : Tri),
    wordWrites (.addc h o) (cfg h) (fun _ => True) (fun e =>
      let v := (src e o.a 1).toNat + (src e o.b 1).toNat + (if pReg e.th (ctlByte o % 64) then 1 else 0)
      wrBoth (wrReg o.d (BitVec.ofNat 32 (v % 2 ^ 32))) (wrPred (ctlByte o % 64) (decide (2 ^ 32 ≤ v)))) ∧
    wordWrites (.subb h o) (cfg h) (fun _ => True) (fun e =>
      let v : Int := ((src e o.a 1).toNat : Int) - (src e o.b 1).toNat - (if pReg e.th (ctlByte o % 64) then 1 else 0)
      wrBoth (wrReg o.d (BitVec.ofInt 32 v)) (wrPred (ctlByte o % 64) (decide (v < 0)))) ∧
    wordWrites (.div h o) (cfg h) (fun _ => True) (fun e => wrReg o.d (opDiv o.t.toNat (src e o.a o.t.toNat) (src e o.b o.t.toNat))) ∧
    wordWrites (.rem h o) (cfg h) (fun _ => True) (fun e => wrReg o.d (opRem o.t.toNat (src e o.a o.t.toNat) (src e o.b o.t.toNat)))) ∧
  ∀ x : Word, opDiv 0 x 0 = 0xFFFFFFFF#32 ∧ opDiv 1 x 0 = 0xFFFFFFFF#32 ∧ opRem 0 x 0 = x ∧ opRem 1 x 0 = x ∧
    opDiv 0 0x80000000#32 0xFFFFFFFF#32 = 0x80000000#32 ∧ opRem 0 0x80000000#32 0xFFFFFFFF#32 = 0#32 ∧
    ∀ y : Word, y ≠ 0 → opDiv 1 x y = BitVec.ofNat 32 (x.toNat / y.toNat) ∧ opRem 1 x y = BitVec.ofNat 32 (x.toNat % y.toNat) ∧
      opDiv 0 x y = BitVec.ofInt 32 (x.toInt.tdiv y.toInt) ∧ opRem 0 x y = BitVec.ofInt 32 (x.toInt.tmod y.toInt)

/-- PRED completes in every lane (R98 to R102): comparisons combined with the old predicate, classes by mask, predicate logic by lookup, and moves of the
predicates that lie in the kernel's allocation. -/
def Obligations.PredicateWordsComplete : Prop :=
  ∀ (h : Guard) (o : Tri),
    wordWrites (.icmp h o) (cfg h) (fun _ => True) (fun e =>
      wrPred o.d.toNat (combine (ctlByte o) (pReg e.th o.d.toNat)
        (intCond (ctlByte o) (intOf o.t.toNat (src e o.a o.t.toNat).toNat) (intOf o.t.toNat (src e o.b o.t.toNat).toNat)))) ∧
    wordWrites (.fcmp h o) (cfg h) (fun _ => True) (fun e =>
      let r := compareBits o.t.toNat (ctlByte o % 8) (frmFTZ e.th.spr.frm) (srcT e o.a o.t.toNat).toNat (srcT e o.b o.t.toNat).toNat
      wrFlags (wrPred o.d.toNat (combine (ctlByte o) (pReg e.th o.d.toNat) r.1)) r.2) ∧
    wordWrites (.fclass h o) (cfg h) (fun _ => True) (fun e => wrPred o.d.toNat ((ctlByte o).testBit (classOf o.t.toNat (srcT e o.a o.t.toNat).toNat))) ∧
    wordWrites (.plop3 h o) (cfg h) (fun _ => True) (fun e =>
      let b := fun (n : Nat) => if pReg e.th n then 1 else 0
      wrPred o.d.toNat ((ctlByte o).testBit (4 * b o.a.reg.toNat + 2 * b o.b.reg.toNat + b o.d.toNat))) ∧
    wordWrites (.p2g h o) (cfg h) (fun _ => True) (fun e =>
      wrReg o.d (maskOf (((predGroup e (ctlByte o % 2)).filter fun x => pReg e.th x.2).map (·.1)))) ∧
    wordWrites (.g2p h o) (cfg h) (fun _ => True) (fun e =>
      { wrNone with preds := ((predGroup e (ctlByte o % 2)).filter fun x => (src e o.b 0).getLsbD x.1).map fun x => (x.2, (src e o.a 0).getLsbD x.1) })

/-- FALU and SFU complete in every lane (R48, R103 to R105, R113 to R115): the destination takes the elements' results by `sr.frm`, and the flags of every
element are ORed into `sr.fexc`.
The model's own readings in it: log entry 11. -/
def Obligations.FloatWordsComplete : Prop :=
  ∀ (h : Guard) (o : Tri),
    let t := o.t.toNat
    let rm := fun (e : Env) => frmRM e.th.spr.frm
    let fz := fun (e : Env) => frmFTZ e.th.spr.frm
    let two := fun (i : Instr) (f : Nat → Nat → Bool → Nat → Nat → Nat × Word) =>
      wordWrites i (cfg h) (fun _ => True) fun e => wrFloat o.d t (perElem2 t (f t (rm e) (fz e)) (srcT e o.a t) (srcT e o.b t))
    let one := fun (i : Instr) (f : Nat → Nat → Bool → Nat → Nat × Word) =>
      wordWrites i (cfg h) (fun _ => True) fun e => wrFloat o.d t (perElem t (f t (rm e) (fz e)) (srcT e o.a t))
    two (.fadd h o) addBits ∧ two (.fsub h o) subBits ∧ two (.fmul h o) mulBits ∧ two (.fdiv h o) divBits ∧
    wordWrites (.ffma h o) (cfg h) (fun _ => True) (fun e =>
      wrFloat o.d t (perElem3 t (fmaBits t (rm e) (fz e)) (srcT e o.a t) (srcT e o.b t) (srcT e o.c t))) ∧
    two (.fmin h o) (fun t _ ftz => minMaxBits false t ftz) ∧ two (.fmax h o) (fun t _ ftz => minMaxBits true t ftz) ∧
    one (.fabs h o) (fun t _ _ a => (a % 2 ^ (typeWidth t - 1), 0)) ∧ one (.fneg h o) (fun t _ _ a => (a ^^^ 2 ^ (typeWidth t - 1), 0)) ∧
    one (.frnd h o) (fun t rm ftz => integralBits t (if ctlByte o % 8 = 4 then rm else ctlByte o % 8) ((ctlByte o).testBit 3) ftz) ∧
    wordWrites (.fscl h o) (cfg h) (fun _ => True) (fun e => wrFloat o.d t
      (if t = 3 ∨ t = 4 then perElem2 t (fun a k => scaleBits t (rm e) (fz e) a (intOf 5 k)) (srcT e o.a t) ((src e o.b 5).setWidth 64)
       else perElem t (fun a => scaleBits t (rm e) (fz e) a (intOf 0 (src e o.b 0).toNat)) (srcT e o.a t))) ∧
    one (.frcp h o) (fun t rm ftz a => divBits t rm ftz ((fmtOf t).bias * 2 ^ (fmtOf t).mw) a) ∧ one (.fsqrt h o) sqrtBits ∧
    one (.frsq h o) (fun t _ ftz => frsqBits t ftz) ∧ one (.fexp2 h o) (fun t _ ftz => exp2Bits t ftz) ∧ one (.flog2 h o) (fun t _ ftz => flog2Bits t ftz) ∧
    one (.fsin h o) (fun t _ ftz => fsinBits t ftz) ∧ one (.fcos h o) (fun t _ ftz => fcosBits t ftz) ∧ one (.ftanh h o) (fun t _ ftz => ftanhBits t ftz)

/-- CONV and pair words complete in every lane where no element traps (R106 to R112, R116, R117): conversions and packs by the control byte of R64, PACKBL and
PACKBH keeping the other half of the destination, UNPK's exact value, the dot products, and both slots of a pair from the operands before either writes.
The model's own readings in it: log entries 67 and 68. -/
def Obligations.ConversionWordsComplete : Prop :=
  ∀ (h : Guard) (o : Tri) (x y : Slot) (z : BitVec 1),
    let t := o.t.toNat
    let conv := fun (k : Nat) (e : Env) (l : List Nat) => convertAll (stype o) t (rmodeOf o) (policyOf o) (frmFTZ e.th.spr.frm) k l
    let word := fun (i : Instr) (k : Nat) (from_ : Env → List Nat) (to_ : Env → List Nat → Wr) =>
      ∀ out : Env → List Nat × Word, wordWrites i (cfg h) (fun e => conv k e (from_ e) = .ok (out e)) fun e => wrFlags (to_ e (out e).1) (out e).2
    let ab := fun (e : Env) => [(src e o.a (stype o)).toNat, (src e o.b (stype o)).toNat]
    word (.cvt h o) 0 (fun e => elemsT e o.a (stype o)) (fun _ l => wrElems o l) ∧
    word (.packh h o) 0 ab (fun _ l => wrElems o l) ∧
    word (.packbl h o) 0 ab (fun e l => wrReg o.d ((readCode e o.d.toNat).extractLsb' 16 16 ++ (packElems 8 l).extractLsb' 0 16)) ∧
    word (.packbh h o) 2 ab (fun e l => wrReg o.d ((packElems 8 l).extractLsb' 0 16 ++ (readCode e o.d.toNat).extractLsb' 0 16)) ∧
    word (.packn h o) 0 (fun e => elemsT e o.a (stype o) ++ elemsT e o.b (stype o)) (fun _ l => wrElems o l) ∧
    wordWrites (.unpk h o) (cfg h) (fun _ => True) (fun e =>
      let r := unpackBits (ctlByte o / 16) t ((elemsT e o.a (ctlByte o / 16)).getD (ctlByte o % 8) 0)
      wrFlags (wrReg o.d (BitVec.ofNat 32 r.1)) r.2) ∧
    (∀ i ∈ [Instr.dot4i h o, .dot4u h o, .dot8i h o], wordWrites i (cfg h) (fun _ => True) fun e =>
      wrReg o.d (dotInt t (src e o.a t) (src e o.b t) (src e o.c 0))) ∧
    (∀ i ∈ [Instr.dot4f h o, .dot8f h o, .dot2h h o], wordWrites i (cfg h) (fun _ => True) fun e =>
      let r := dotFloat t (frmRM e.th.spr.frm) (frmFTZ e.th.spr.frm) (src e o.a t) (src e o.b t) (src e o.c 2)
      wrFlags (wrReg o.d (BitVec.ofNat 32 r.1)) r.2) ∧
    wordWrites (.pairWord x y z) (cfg { pn := 0, pg := 63 }) (fun _ => True) (fun e => wrBoth (slotWr e x) (slotWr e y))

/-- LANE completes in every lane from what the lanes held before the word (R226 to R234): shuffles, votes, ballots and matches over the participating lanes of
the lane's gang, and the reduction tree of R52.
The model's own readings in it: log entry 60. -/
def Obligations.LaneWordsComplete : Prop :=
  ∀ (h : Guard) (o : Tri),
    let word := fun (i : Instr) (f : Env → List (Nat × Env) → Wr) => wordWrites i (cfg h) (fun _ => True) fun e => f e (gangParts e)
    word (.shfl h o) (fun e ps =>
      match (if e.sf.width ≤ (src e o.b 0).toNat then none else (ps.filter fun x => x.1 ≤ (src e o.b 0).toNat).getLast?) with
      | some x => wrT o.d o.t.toNat (srcT x.2 o.a o.t.toNat)
      | none => wrT o.d o.t.toNat (srcT e o.c o.t.toNat)) ∧
    word (.shflp h o) (fun e ps => match (ps.filter fun x => (src x.2 o.b 0).toNat = posOf e).getLast? with
      | some x => wrT o.d o.t.toNat (srcT x.2 o.a o.t.toNat)
      | none => wrNone) ∧
    word (.vany h o) (fun _ ps => wrPred o.d.toNat (ps.any fun x => pReg x.2.th o.a.reg.toNat)) ∧
    word (.vall h o) (fun _ ps => wrPred o.d.toNat (ps.all fun x => pReg x.2.th o.a.reg.toNat)) ∧
    word (.ballot h o) (fun e ps =>
      if o.t = 14#4 then wrPair o.d (halfMask ps 1 (fun x => pReg x.th o.a.reg.toNat) ++ halfMask ps 0 fun x => pReg x.th o.a.reg.toNat)
      else wrReg o.d (halfMask ps (halfOf e o) fun x => pReg x.th o.a.reg.toNat)) ∧
    word (.matchm h o) (fun e ps => wrReg o.d (halfMask ps (halfOf e o) fun x => srcT x o.a o.t.toNat == srcT e o.a o.t.toNat)) ∧
    word (.redux h o) (reduceWr o fun f w _ l => treeValue f (Nat.log2 w) l) ∧ word (.scan h o) (reduceWr o fun f _ i l => scanValue f i l)

/-- The tree of R52 on a full gang (R52, R234): over 2^k positions the lower half is the left operand, and SCAN at the last position is REDUX. -/
def Obligations.ReductionTree : Prop :=
  ∀ (f : DWord → DWord → DWord × Word) (k : Nat) (l : List DWord), l.length = 2 ^ (k + 1) →
    (treeValue f (k + 1) l).1 = (f (treeValue f k (l.take (2 ^ k))).1 (treeValue f k (l.drop (2 ^ k))).1).1 ∧
    (k < 6 → scanValue f (2 ^ (k + 1) - 1) l = treeValue f (k + 1) l)

/-! ### Capabilities -/

/-- The CAP words that read fields complete in every lane (R19, R132): BASE and length in pairs, PERM, COLOUR, the KIND byte, the tag; CTEST compares two
capabilities and faults on none (R135). -/
def Obligations.CapabilityFieldsComplete : Prop :=
  ∀ (h : Guard) (o : Tri),
    let c := fun (e : Env) => cReg e.th o.a.num
    let word := fun (i : Instr) (w : Env → Wr) => wordWrites i (cfg h) (fun _ => True) w
    word (.cgetb h o) (fun e => wrPair o.d (((c e).bits.extractLsb' 76 52).setWidth 64)) ∧
    word (.cgetl h o) (fun e => wrPair o.d (BitVec.ofNat 64 (capL (c e) * 16 ^ capLS (c e)))) ∧
    word (.cgetp h o) (fun e => wrReg o.d (((c e).bits.extractLsb' 30 10).setWidth 32)) ∧
    word (.cgetc h o) (fun e => wrReg o.d (((c e).bits.extractLsb' 18 12).setWidth 32)) ∧
    word (.cgetk h o) (fun e => wrReg o.d
      (BitVec.ofNat 32 (capKind (c e) + (if capSealed (c e) then 8 else 0) + (capOtype (c e)).toNat * 256 + (capUser (c e)).toNat * 65536))) ∧
    word (.cgett h o) (fun e => wrReg o.d (if (c e).tag then 1 else 0)) ∧
    word (.ctest h o) (fun e =>
      let a := c e
      let b := cReg e.th o.b.num
      wrPred o.d.toNat (a.tag && b.tag && !capSealed a && !capSealed b && decide (capKind a = capKind b) && decide (capColour a = capColour b) &&
        decide (capPerm a &&& ~~~(capPerm b) = 0) && decide (capBase b ≤ capBase a) && decide (capBase a + capLen a ≤ capBase b + capLen b)))

/-- The CAP words that derive a capability complete in every lane on a source that passes their tests (R131, R133, R134, R136, R137), and write one
capability register: a narrower range, fewer permissions, a sealed or an opened copy, a copy, a copy without its tag, other USER bits. -/
def Obligations.CapabilityDerivationsComplete : Prop :=
  ∀ (h : Guard) (o : Tri),
    let a := fun (e : Env) => cReg e.th o.a.num
    let b := fun (e : Env) => cReg e.th o.b.num
    let word := fun (i : Instr) (ok : Env → Prop) (v : Env → Cap) => wordWrites i (cfg h) ok fun e => wrCap (o.d.toNat % 32) (v e)
    let plain := fun (e : Env) => (a e).tag = true ∧ capSealed (a e) = false
    let off := fun (e : Env) => (codePair e o.b.reg).toNat
    let len := fun (e : Env) => (codePair e o.c.reg).toNat
    let ot := fun (e : Env) => (src e o.c 1).toNat % 256
    let authority := fun (e : Env) (bit : Nat) => (b e).tag = true ∧ capSealed (b e) = false ∧ capKind (b e) = 5 ∧ capHas (b e) bit = true ∧
      (validColours (coloursOf e.s e.sf)).contains (capColour (b e)) = true
    (∀ ls l : Nat, word (.cnarrow h o) (fun e => plain e ∧ off e + len e ≤ capLen (a e) ∧ canonLen (len e) = some (ls, l))
      (fun e => capField (capField (capField (a e) 76 52 (capBase (a e) + off e)) 74 2 ls) 40 34 l)) ∧
    word (.candp h o) plain (fun e => capField (a e) 30 10 (capPerm (a e) &&& (src e o.b 1).setWidth 10).toNat) ∧
    word (.cmov h o) (fun _ => True) a ∧ word (.cclrt h o) (fun _ => True) (fun e => { a e with tag := false }) ∧
    word (.csetu h o) (fun _ => True) (fun e => capField (a e) 0 6 ((src e o.b 1).toNat % 64)) ∧
    word (.cseal h o) (fun e => plain e ∧ authority e 6 ∧ ot e ≠ 0xFF ∧ capBase (b e) ≤ ot e ∧ ot e < capBase (b e) + capLen (b e) ∧ (src e o.c 1).toNat / 256 % 8 = 0)
      (fun e => capField (capField (a e) 14 1 1) 6 8 (ot e)) ∧
    word (.cunseal h o) (fun e => (a e).tag = true ∧ capSealed (a e) = true ∧ capKind (a e) ≠ 2 ∧ capOtype (a e) ≠ 0xFF#8 ∧ authority e 7 ∧
      capBase (b e) ≤ (capOtype (a e)).toNat ∧ (capOtype (a e)).toNat < capBase (b e) + capLen (b e))
      (fun e => capField (capField (a e) 14 1 0) 6 8 0)

/-- A derivation never widens what a capability reaches (R20, R131, R133, R134): a narrowed capability lies in its source and keeps its permissions, kind and
colour, and CANDP leaves a subset of the permissions over the same range. -/
def Obligations.DerivationsNarrow : Prop :=
  ∀ (c : Cap) (off n : Nat),
    (∀ r, off + n ≤ capLen c → capBase c + capLen c ≤ 2 ^ 52 → capNarrow c off n = some r →
      r.tag = c.tag ∧ capBase r = (capBase c + off) % 2 ^ 52 ∧ capLen r = n ∧ capPerm r = capPerm c ∧ capKind r = capKind c ∧ capColour r = capColour c ∧
        (0 < n → capWithin r c = true)) ∧
    ∀ m : BitVec 10,
      let r := capField c 30 10 (capPerm c &&& m).toNat
      capPerm r = capPerm c &&& m ∧ capBase r = capBase c ∧ capLen r = capLen c ∧ capKind r = capKind c ∧ r.tag = c.tag

/-- The order of the checks of an access (R18, R25): the first that fails gives the cause, and an access that passes them all is at BASE plus the offset. -/
def Obligations.AccessChecksInOrder : Prop :=
  ∀ (number : Nat) (colours : DWord) (c : Cap) (k : Access) (off : Int) (size align : Nat),
    let a := (((capBase c : Int) + off) % (2 ^ 52 : Int)).toNat
    let r := checkCap number colours c k off size align
    (c.tag = false → r = .error 0x10) ∧
    (c.tag = true → capSealed c = true → k.sealOk = false → r = .error 0x11) ∧
    (c.tag = true → (capSealed c = true → k.sealOk = true) → capKind c ∉ k.kinds → r = .error 0x12) ∧
    (∀ x, r = .ok x → x = a ∧ c.tag = true ∧ (capSealed c = true → k.sealOk = true) ∧ capKind c ∈ k.kinds ∧ (∀ p ∈ k.perms, capHas c p = true) ∧
      capColour c ∈ validColours colours ∧ 0 ≤ off ∧ off + size ≤ capLen c ∧ (capBase c : Int) + off + size ≤ 2 ^ 52 ∧ a % align = 0)

/-! ### Transfers, stack frames and runs -/

/-- ENTER and LEAVE (R124): the stack capability is tested for its tag, sealing, kind and colour, in that order; then `g191` moves by 16 times the displacement, or
STACK_LIMIT is raised beyond the limit or the capability; memory is neither read nor written.
The model's own readings in it: log entry 23. -/
def Obligations.StackFramesComplete : Prop :=
  ∀ (h : Guard) (o : BF),
    let g := fun (e : Env) => (gReg e.th 191).toNat
    let n := 16 * o.disp.toNat
    let c := fun (e : Env) => cReg e.th 1
    let owned := fun (e : Env) => (validColours (coloursOf e.s e.sf)).contains (capColour (c e)) = true
    let good := fun (e : Env) => (c e).tag = true ∧ capSealed (c e) = false ∧ capKind (c e) = 4 ∧ owned e
    let faults := fun (i : Instr) (ok : Env → Prop) (cause info : Nat) =>
      aloneDoes i h (fun e => e.th.park = none ∧ ok e) fun e t => parks e.s t e.sh e.ln e.sf e.th cause info 0 e.th.pc
    wordWrites (.enter h o) (cfg h) (fun e => good e ∧ n ≤ g e ∧ e.th.spr.stklim.toNat ≤ g e - n) (fun e => wrReg 191#8 (BitVec.ofNat 32 (g e - n))) ∧
    wordWrites (.leave h o) (cfg h) (fun e => good e ∧ g e + n ≤ capLen (c e)) (fun e => wrReg 191#8 (BitVec.ofNat 32 (g e + n))) ∧
    faults (.enter h o) (fun e => good e ∧ (g e < n ∨ g e - n < e.th.spr.stklim.toNat)) 0x40 0 ∧
    faults (.leave h o) (fun e => good e ∧ capLen (c e) < g e + n) 0x40 0 ∧
    ∀ i ∈ [Instr.enter h o, .leave h o],
      faults i (fun e => (c e).tag = false) 0x10 0x73 ∧ faults i (fun e => (c e).tag = true ∧ capSealed (c e) = true) 0x11 0x73 ∧
      faults i (fun e => (c e).tag = true ∧ capSealed (c e) = false ∧ capKind (c e) ≠ 4) 0x12 0x73 ∧
      faults i (fun e => (c e).tag = true ∧ capSealed (c e) = false ∧ capKind (c e) = 4 ∧ ¬owned e) 0x15 0x73

/-- Transfers complete in every lane (R16, R120 to R122): BRA and CALL are relative to their own offset, BRX and RET take a register, CALL leaves the next
offset in `g189`, LOOP counts its register down and falls through at 0; CALLC enters an entry of the called region with `c29` a sealed return capability and `g189`
the return offset, and far RET goes back to the offset of a register.
The model's own readings in it: log entry 23. -/
def Obligations.TransfersComplete : Prop :=
  (
  ∀ (h : Guard) (o : BF),
    let disp := o.disp.signExtend 32 * 8#32
    let goes := fun (i : Instr) (w : Env → Wr) (target : Env → Word) =>
      wordLeaves i (cfgNR h) (fun e => mayMove e (w e) (target e)) fun e => moved e.th (w e) (target e)
    goes (.bra h o) (fun _ => wrNone) (fun e => e.th.pc + disp) ∧
    goes (.brx h o) (fun _ => wrNone) (fun e => readCode e o.reg.toNat + disp) ∧
    goes (.call h o) (fun e => wrReg 189#8 (e.th.pc + 8)) (fun e => e.th.pc + disp) ∧
    goes (.ret h o) (fun _ => wrNone) (fun e => readCode e o.reg.toNat) ∧
    goes (.loop h o) (fun e => wrReg o.reg (readCode e o.reg.toNat - 1)) (fun e => if readCode e o.reg.toNat = 1 then e.th.pc + 8 else e.th.pc + disp) ∧
    wordWrites (.nop h o) (cfg h) (fun _ => True) (fun _ => wrNone)) ∧
  (
  ∀ (h : Guard) (o : BF),
    let t := fun (e : Env) => cReg e.th (o.reg.toNat % 32)
    let u := fun (e : Env) => cReg e.th (o.aux.toNat % 32)
    let entry := fun (e : Env) => entryOffset e.s (t e) o.aux.toNat
    let good := fun (e : Env) (c : Cap) => c.tag = true ∧ capKind c = 1 ∧ capHas c 2 = true ∧ (validColours (coloursOf e.s e.sf)).contains (capColour c) = true
    wordLeaves (.callc h o) (cfgNRR h)
      (fun e => good e (t e) ∧ o.aux.toNat < entryCount e.s (t e) ∧ 8 + 4 * o.aux.toNat ≤ capLen (t e) ∧ entry e + 8 ≤ capLen (t e) ∧ entry e % 8 = 0 ∧ entry e < 2 ^ 32)
      (fun e => dropTemps { applyWr e.th (wrBoth (wrReg 189#8 (e.th.pc + 8)) (wrCap 29 (capSeal e.th.code 0xFF))) with
        code := capOpen (t e), pc := BitVec.ofNat 32 (entry e) }) ∧
    wordLeaves (.retFar h o) (cfgNRR h)
      (fun e => good e (u e) ∧ (capSealed (u e) = true → capOtype (u e) = 0xFF#8) ∧ (readCode e o.reg.toNat).toNat % 8 = 0)
      (fun e => dropTemps { e.th with code := capOpen (u e), pc := readCode e o.reg.toNat }))

/-! ### Rejoining, waits and ends of threads -/

/-- JMARK and JOIN (R188, R189): JMARK replaces the bits of the lane's gang in a rejoin mask by those of the lanes of the word; a lane passes its JOIN where no
other lane is live, waits where a live member of the mask is elsewhere, and JOIN_RELEASE lets every lane that waits at the word go on once all members do.
The model's own readings in it: log entry 13. -/
def Obligations.RejoinWordsComplete : Prop :=
  ∀ (h : Guard) (o : BF),
    aloneDoes (.jmark h o) h (fun e => 0 < e.sf.width) (fun e t =>
      thread? t e.sh e.ln = some (retired e.th wrNone) ∧ lanesKept e.s t e.sh e.ln ∧ t = { e.s with sheaves := t.sheaves, focus := none } ∧
      ∃ m : Word, (sheaf? t e.sh).map (fun sf => { sf with lanes := [] }) = some { e.sf with lanes := [], j := Tab.set 0 e.sf.j o.aux.toNat m } ∧
        ∀ k, k < 32 → m.getLsbD k = if gangBase e.sf.width k = gangBase e.sf.width e.ln then decide (k = e.ln) else (Tab.get 0 e.sf.j o.aux.toNat).getLsbD k) ∧
    aloneDoes (.join h o) h (fun e => e.th.status = .live ∧ e.sf.pair ≠ some e.sh ∧ ∀ x ∈ joinSheaves e.s e.sh, ∀ l ∈ x.2.lanes, (x.1, l.1) ≠ (e.sh, e.ln) → l.2.status ≠ .live)
      (fun e t => goesOn e.s t e.sh e.ln e.th wrNone ∧ t = { e.s with sheaves := t.sheaves, focus := none }) ∧
    aloneDoes (.join h o) h (fun e => ∃ x ∈ joinSheaves e.s e.sh, ∃ l ∈ x.2.lanes, (x.1, l.1) ≠ (e.sh, e.ln) ∧ l.2.status = .live ∧
        (Tab.get 0 x.2.j (o.aux.toNat % 8)).getLsbD l.1 = true ∧ waitsAt e.th.code e.th.pc l.2 = false)
      (fun e t => waitsWith e t (.join (o.aux.toNat % 8)) ∧ t = { e.s with sheaves := t.sheaves, focus := none }) ∧
    ∀ (s : State) (sh ln n : Nat) (th : Thread), thread? s sh ln = some th → th.hold = some (.join n) → th.pc.toNat % 8 = 0 →
      joinMet s sh n th.code th.pc = true → ((joinSheaves s sh).map (·.1)).Nodup →
      (∀ x ∈ joinSheaves s sh, (x.2.lanes.map (·.1)).Nodup ∧ runnerOf s x.2 = none ∧ ∀ l ∈ x.2.lanes, waitsAt th.code th.pc l.2 = true → l.2.run = none ∧ l.2.word = none) →
      leadsTo (.joinRelease sh ln) s fun t => t = { s with sheaves := t.sheaves } ∧ (∀ j, j ∉ (joinSheaves s sh).map (·.1) → sheaf? t j = sheaf? s j) ∧
        ∀ x ∈ joinSheaves s sh, ∀ l ∈ x.2.lanes,
          thread? t x.1 l.1 = some (if waitsAt th.code th.pc l.2 then retired { l.2 with hold := none } wrNone else l.2)

/-! ### Special registers, traps and handlers -/

/-- SRR, PERF, PARKQ (R14, R149, R151 to R153, R413): each special register read as R152 lays it out, a counter, the parked lanes of the gang.
The model's own readings in it: log entry 22. -/
def Obligations.SpecialRegistersRead : Prop :=
  ∀ (h : Guard) (o : SF),
    aloneDoes (.srr h o) h (fun _ => True) (fun e t =>
      let p := e.th.spr
      let reads := fun (n : Nat) (v : Word) => o.num.toNat = n → goesPast e t (wrReg o.d v)
      let wide := fun (n : Nat) (v : DWord) => o.num.toNat = n → goesPast e t (wrPair o.d v)
      t = { e.s with sheaves := t.sheaves, focus := none } ∧ reads 0x00 p.frm ∧ reads 0x01 p.fexc ∧ reads 0x10 p.wrep ∧
      reads 0x11 (p.wstat ||| BitVec.ofNat 32 (watchPending e.s e.sh e.ln % 16)) ∧ reads 0x20 p.stklim ∧ reads 0x30 p.cause ∧ reads 0x31 p.faddr ∧
      reads 0x32 p.faddrhi ∧ reads 0x33 p.fpc ∧ reads 0x34 (flanesOf e.sf e.th) ∧ reads 0x35 p.finfo ∧ reads 0x40 64 ∧ reads 0x41 p.livelo ∧ reads 0x42 p.livehi ∧
      reads 0x50 (ctxAt e.s e.sf.ctx).phmargin ∧ reads 0x70 (BitVec.ofNat 32 (kprogOf e.s e.sh % 2 ^ 16)) ∧
      (∀ k, k < 8 → reads (0x60 + k) (Tab.get 0 e.sf.j k) ∧ reads (0x100 + k) (Tab.get 0 (ctxAt e.s e.sf.ctx).csel k)) ∧
      wide 0x200 (ctxAt e.s e.sf.ctx).colours ∧ wide 0x300 (BitVec.ofNat 64 e.s.cycle) ∧ wide 0x301 (BitVec.ofNat 64 (coreAt e.s (coreOf e.sh)).pts)) ∧
    aloneDoes (.perf h o) h (fun _ => True) (fun e t =>
        let c := ctxAt e.s e.sf.ctx
        let ev := ((Tab.get 0 c.csel (o.num.toNat % 8)).extractLsb' 0 16).toNat
        goesPast e t (wrPair o.d (if c.func ≠ 0 ∧ (ev = 10 ∨ ev = 11) then 0 else BitVec.ofNat 64 (Tab.get 0 c.cnt (o.num.toNat % 8) % 2 ^ 48))) ∧
        t = { e.s with sheaves := t.sheaves, focus := none }) ∧
    aloneDoes (.parkq h o) h (fun _ => True) (fun e t =>
      ∃ own other : Word, goesPast e t (wrPair o.d (if e.sf.half = 1 then own ++ other else other ++ own)) ∧ parkBits e.sf (gangBase e.sf.width e.ln) own ∧
        (match e.sf.pair.bind (sheaf? e.s) with
          | some sp => parkBits sp 0 other
          | none => other = 0) ∧
        t = { e.s with sheaves := t.sheaves, focus := none })

/-- SRW, WSET and LIVE (R149, R152, R153, R244, R297): each writable field takes the operand's bits, read-only fields keep theirs, STRUCK clears where a 1 is
written; rejoin masks are the sheaf's, counter selections the context's. -/
def Obligations.SpecialRegistersWritten : Prop :=
  ∀ (h : Guard) (o : SF) (m : MF) (u : Tri),
    aloneDoes (.srw h o) h (fun _ => True) (fun e t =>
      let p := e.th.spr
      let v := src e o.a 0
      let sets := fun (n : Nat) (q : Spr) => o.num.toNat = n →
        becomes e.s t e.sh e.ln (retired { e.th with spr := q } wrNone) ∧ t = { e.s with sheaves := t.sheaves, focus := none }
      sets 0x00 { p with frm := v &&& 0x7 } ∧ sets 0x01 { p with fexc := v &&& 0x3F } ∧ sets 0x10 { p with wrep := v &&& ~~~0x7 } ∧
      sets 0x11 { p with wstat := (p.wstat &&& ~~~v &&& 0x80000000) ||| (v &&& 0x00FF0000) } ∧ sets 0x20 { p with stklim := v &&& ~~~0xF } ∧
      sets 0x33 (if inHandler e.th then { p with fpc := v } else p) ∧ sets 0x41 { p with livelo := v } ∧ sets 0x42 { p with livehi := v } ∧
      (∀ n ∈ [0x30, 0x31, 0x32, 0x34, 0x35, 0x40, 0x50, 0x70, 0x200, 0x300, 0x301], sets n p) ∧
      (∀ k, k < 8 → o.num.toNat = 0x60 + k → thread? t e.sh e.ln = some (retired e.th wrNone) ∧ lanesKept e.s t e.sh e.ln ∧
        (sheaf? t e.sh).map (fun sf => { sf with lanes := [] }) = some { e.sf with lanes := [], j := Tab.set 0 e.sf.j k v } ∧
        t = { e.s with sheaves := t.sheaves, focus := none }) ∧
      ∀ k, k < 8 → o.num.toNat = 0x100 + k → goesPast e t wrNone ∧
        t = { e.s with sheaves := t.sheaves, focus := none,
                       ctxs := Tab.put e.s.ctxs e.sf.ctx { ctxAt e.s e.sf.ctx with csel := Tab.set 0 (ctxAt e.s e.sf.ctx).csel k (v &&& 0x8000FFFF) } }) ∧
    aloneDoes (.wset h m) h (fun _ => True) (fun e t =>
      becomes e.s t e.sh e.ln (retired { e.th with spr := { e.th.spr with
        wrep := ((if m.off = 0xFF then e.th.pc else readCode e m.off.toNat) + m.disp.signExtend 32 * 8) &&& ~~~7 } } wrNone) ∧
      t = { e.s with sheaves := t.sheaves, focus := none }) ∧
    aloneDoes (.live h u) h (fun _ => True) (fun e t =>
      becomes e.s t e.sh e.ln (retired { e.th with spr := { e.th.spr with livelo := src e u.a 1, livehi := src e u.b 1 } } wrNone) ∧
      t = { e.s with sheaves := t.sheaves, focus := none })

/-- Taking and leaving an exception (R150, R377 to R386, R390, R391): TRAP and BRK park the lane with their code and the following word as resume offset; a
lost write and an uncorrectable error park it at its word; the handler is entered at its entry in the handler's code capability; ERET resumes at `sr.fpc`.
The model's own readings in it: log entries 22, 23, 40 and 56. -/
def Obligations.ExceptionsTakenAndLeft : Prop :=
  (∀ (h : Guard) (o : SF),
    aloneDoes (.trap h o) h (fun e => e.th.park = none) (fun e t => parksAlone e.s t e.sh e.ln e.sf e.th 0x51 (o.num.toNat * 256) 0 (e.th.pc + 8)) ∧
    aloneDoes (.brk h o) h (fun e => e.th.park = none) (fun e t => parksAlone e.s t e.sh e.ln e.sf e.th 0x50 (o.num.toNat * 256) 0 (e.th.pc + 8)) ∧
    aloneDoes (.eret h o) h (fun e => inHandler e.th = true ∧ e.th.spr.fpc.toNat % 8 = 0) (fun e t =>
      let code := (e.th.park.bind fun p => Tab.at? e.sf.subs p.sub).map (·.savedCode)
      thread? t e.sh e.ln = some { e.th with t := [], code := code.getD e.th.code, pc := e.th.spr.fpc, park := none } ∧ lanesKept e.s t e.sh e.ln ∧
      t = { e.s with sheaves := t.sheaves, focus := none })) ∧
  (∀ (s : State) (sh ln : Nat) (sf : Sheaf) (th : Thread), sheaf? s sh = some sf → Tab.at? sf.lanes ln = some th → th.status = .live → th.run = none →
    th.park = none → th.hold = none → th.word = none → (ctxAt s sf.ctx).state = .running →
    let frame := fun (t : State) => t = { s with sheaves := t.sheaves, cores := t.cores, net := t.net }
    (∀ x rest, th.losses = x :: rest → leadsTo (.asyncFaultDelivery sh ln) s fun t =>
      parks s t sh ln sf { th with losses := rest, lossMore := if rest = [] then 0 else th.lossMore } 0x22
        (2 ^ 26 + (x.colour % 4096 + min 15 (rest.length + th.lossMore) * 4096) * 256) x.addr th.pc ∧ frame t) ∧
    (∀ n, th.losses = [] → th.overrun = some n → leadsTo (.asyncFaultDelivery sh ln) s fun t =>
      parks s t sh ln sf { th with overrun := none } 0x41 (2 ^ 26) n th.pc ∧ frame t) ∧
    ∀ site : Byte, site.toNat ≤ 1 → ln < 32 → leadOf sf (BitVec.ofNat 32 (2 ^ ln)) = some (ln, th) → groupMask sf th = BitVec.ofNat 32 (2 ^ ln) → sf.forming = none →
      fetchCheck s sf th = none → leadsTo (.eccUncorrectable (.lanes sh (BitVec.ofNat 32 (2 ^ ln)) .fetch site)) s fun t =>
        parks s t sh ln sf th 0x21 (site.toNat * 256) th.pc.toNat th.pc ∧ frame t) ∧
  ∀ (s : State) (sh sub : Nat) (sf : Sheaf) (b : Sub), sheaf? s sh = some sf → Tab.at? sf.subs sub = some b → b.inHandler = false →
    let c := ctxAt s sf.ctx
    let off := entryOffset s c.handler c.hentry
    c.state = .running → s.net = netEmpty → s.clusters = [] → c.handler.tag = true → capKind c.handler = 1 → capHas c.handler 2 = true →
    (validColours c.colours).contains (capColour c.handler) = true → c.hentry < entryCount s c.handler → off + 8 ≤ capLen c.handler → off % 8 = 0 →
    leadsTo (.handlerEntry sh sub) s fun t => t = { s with sheaves := t.sheaves } ∧
      (∀ ln th, ln < 32 → Tab.at? sf.lanes ln = some th → thread? t sh ln = some
        (if b.mask.getLsbD ln then { th with code := capOpen c.handler, pc := BitVec.ofNat 32 off, park := some { sub := sub, inHandler := true } } else th)) ∧
      ∀ j, j ≠ sh → sheaf? t j = sheaf? s j

/-- Runs (R126 to R129): RUNB opens a run whose form is right: the thread keeps what a discard returns to, its run temporaries are zero, and nothing is
buffered; at the trailer a lane whose buffered stores are all done commits and leaves the run past its RUNE, also on a later try; a RUNE outside a run is a violation
with reason 0x35.
The model's own readings in it: log entries 15, 17, 63 and 64. -/
def Obligations.RunsOpenAndCommit : Prop :=
  (
  ∀ (h : Guard) (o : BF),
    wordLeaves (.runb h o) (cfgNR h) (fun e => runFormError e.s e.th.code e.th.pc.toNat o.aux.toNat = none) (fun e =>
      { e.th with t := [], pc := e.th.pc + 8,
                  run := some { start := e.th.pc, n := o.aux.toNat, pos := 1,
                                pub := publishedOf (wordAt e.s e.th.code (e.th.pc.toNat + 8 * (o.aux.toNat + 1))),
                                g0 := e.th.g, p0 := e.th.p, fexc0 := e.th.spr.fexc, stores := [], nst := 0, late := none, after := [], going := false } })) ∧
  (
  ∀ (h : Guard) (o : BF) (s : State) (sh ln : Nat) (sf : Sheaf) (th : Thread),
    let settled := fun (k : Nat) (w : Watch) => if k = coreOf sh ∧ w.sh = sh ∧ w.ln = ln then { w with inRun := false } else w
    let kept := fun (t : State) => ∀ k, coreAt t k = { coreAt s k with watch := (coreAt s k).watch.map (settled k) }
    s.focus = some { sh := sh, mask := BitVec.ofNat 32 (2 ^ ln), pairMask := 0, rest := 0, word := none } → ln < 32 → sheaf? s sh = some sf →
    Tab.at? sf.lanes ln = some th → runnerOf s sf = none → th.pc.toNat % 8 = 0 → th.word = none →
    (∀ r, th.run = some r → r.stores = [] → r.late = none → r.after = [] → th.hold = none → s.net.peerReqs = [] →
      leadsTo (.rune h o) s fun t =>
        becomes s t sh ln { th with run := none, t := [], pc := th.pc + 8 } ∧ t = { s with sheaves := t.sheaves, cores := t.cores, focus := none } ∧ kept t) ∧
    (∀ r, th.run = some r → r.stores = [] → r.late = none → r.after = [] → s.net.peerReqs = [] → th.hold = some .trailer →
      (∀ x ∈ sf.lanes, x.1 ≠ ln → x.2.hold ≠ some .trailer) → (sf.lanes.map (·.1)).Nodup →
      leadsTo (.runCommit sh ln) s fun t =>
        becomes s t sh ln { th with run := none, t := [], hold := none, pc := th.pc + 8 } ∧ t = { s with sheaves := t.sheaves, cores := t.cores } ∧ kept t) ∧
    (th.run = none → th.park = none →
      leadsTo (.rune h o) s fun t => ∃ u, thread? t sh ln = some u ∧ u.spr.cause = 0x03 ∧ u.spr.finfo = 0x35 ∧ u.spr.fpc = th.pc ∧ u.park.isSome = true ∧
        u.g = th.g ∧ u.p = th.p ∧ u.c = th.c ∧ lanesKept s t sh ln))

/-- Pauses and ends (R123, R151, R236, R237, R245): YIELD goes past its word and waits for 16 choices; SLEEP of 0 goes past its word, and any other is held at
its word for the smaller of its operand and 1,048,576 cycles; SLEEP_END goes past the word, YIELD_HOLD_END makes the lane ready; EXIT leaves the thread exited with its
watch entries discarded; HOP outside a runner launch moves the PC, and inside one starts a travel.
The model's own readings in it: log entry 13. -/
def Obligations.ThreadsPauseAndEnd : Prop :=
  (
  ∀ (h : Guard) (o : BF) (u : SF),
    wordLeaves (.yield h o) (cfgNR h) (fun e => e.th.hold = none) (fun e => { retired e.th wrNone with hold := some (.yielded 16) }) ∧
    wordLeaves (.sleep h u) (cfgNR h) (fun _ => True) (fun e =>
      if src e u.a 1 = 0 then retired e.th wrNone else { e.th with hold := some (.sleep (min (src e u.a 1).toNat 1048576)) })) ∧
  (
  (∀ (h : Guard) (o : BF),
    aloneDoes (.exit h o) h (fun e => e.th.losses = [] ∧ e.th.lossMore = 0 ∧ e.th.overrun = none) (fun e t =>
      thread? t e.sh e.ln = some { e.th with status := .exited, t := [], hold := none, park := none, losses := [], lossMore := 0, overrun := none } ∧
      lanesKept e.s t e.sh e.ln ∧ t = { e.s with sheaves := t.sheaves, cores := t.cores, focus := none } ∧
      ∀ k, coreAt t k = { coreAt e.s k with watch := (coreAt e.s k).watch.filter fun w => !decide (k = coreOf e.sh ∧ w.sh = e.sh ∧ w.ln = e.ln) })) ∧
  (∀ (h : Guard) (o : Tri),
    aloneDoes (.hop h o) h (fun e => (coreAt e.s (coreOf e.sh)).watch = [] ∧ (src e o.a 1).toNat % 8 = 0) (fun e t =>
      becomes e.s t e.sh e.ln { e.th with t := [], pc := src e o.a 1 } ∧ t = { e.s with sheaves := t.sheaves, focus := none }) ∧
    ∀ (s : State) (sh ln : Nat) (sf : Sheaf) (th : Thread) (r : Runner) (k : Nat),
      let e := soloEnv s sh ln sf th
      s.focus = some { sh := sh, mask := BitVec.ofNat 32 (2 ^ ln), pairMask := 0, rest := 0, word := none } → ln < 32 → sheaf? s sh = some sf →
      Tab.at? sf.lanes ln = some th → guardTrue th h = true → th.run = none → th.park = none → runnerOf s sf = some r → (coreAt s (coreOf sh)).watch = [] → (src e o.a 1).toNat % 8 = 0 →
      segmentOf r (src e o.a 1) = some k →
      leadsTo (.hop h o) s fun t => becomes s t sh ln { th with t := [], hold := some (.travel (src e o.a 1) th.pc) } ∧ t = { s with sheaves := t.sheaves, focus := none }) ∧
  (∀ (s : State) (sh ln : Nat) (sf : Sheaf) (th : Thread), standing s sh ln sf th → th.hold = some (.sleep 0) →
    leadsTo (.sleepEnd sh ln) s fun t => goesOn s t sh ln th wrNone ∧ t = { s with sheaves := t.sheaves }) ∧
  ∀ (s : State) (sh ln n : Nat) (sf : Sheaf) (th : Thread), sheaf? s sh = some sf → Tab.at? sf.lanes ln = some th → th.hold = some (.yielded n) →
    (n = 0 ∨ (readyGroups s sf).isEmpty = true) →
    leadsTo (.yieldHoldEnd sh ln) s fun t => becomes s t sh ln { th with hold := none } ∧ t = { s with sheaves := t.sheaves })

/-! ### Memory -/

/-- Loads (R143, R144, R262, R272, R276, R296): from local HBM the lane's register takes the bytes of memory, or those of the copy that serves it, extended by
SZ; a stale copy gives LDW its bytes and a watch entry; a load from the host window leaves as a read request. Memory is unchanged.
The model's own readings in it: log entries 2, 27 and 66. -/
def Obligations.LoadsComplete : Prop :=
  ∀ (h : Guard) (o : MF) (a : Nat),
    let n := szBytes o.sz
    let may := fun (e : Env) => mayAccess e (memCap e o) accLoad (memOff e o) n n a ∧ quiet e.s (coreOf e.sh) e.sf.ctx
    let may16 := fun (e : Env) => mayAccess e (memCap e o) accLoadCap (memOff e o) 16 16 a ∧ quiet e.s (coreOf e.sh) e.sf.ctx
    let frame := fun (e : Env) (t : State) => readsOnly e t ∧ copiesOnly e.s t (coreOf e.sh)
    let gives := fun (e : Env) (t : State) (b : List Byte) => goesPast e t (extendLoad o.d o.sz (ofBytes b)) ∧ frame e t
    let cached := fun (e : Env) (cp : Copy) =>
      cacheHit e.s (coreOf e.sh) (localOf a) (capColour (memCap e o)) = some cp ∧ (capKind (memCap e o) = 4 → (quadAt e.s (quadOf e.sh)).stack = [])
    (∀ i ∈ [Instr.ld h o, .ldw h o],
      aloneDoes i h (fun e => may e ∧ noCopy e (memCap e o) a) (fun e t => gives e t (bytesAt e.s a n)) ∧
      ∀ cp : Copy, aloneDoes i h (fun e => may e ∧ cached e cp) (fun e t => gives e t (copyBytes cp.data (localOf a % 128) n))) ∧
    aloneDoes (.ldc h o) h (fun e => may16 e ∧ noCopy e (memCap e o) a) (fun e t =>
      goesPast e t (wrCap (o.d.toNat % 32) (capOfBytes e.s (bytesAt e.s a 16) (Tab.get false e.s.tags (localOf a / 16)))) ∧ frame e t) ∧
    (∀ cp : Copy, aloneDoes (.ldw h o) h
      (fun e => may e ∧ o.rh ≠ 3 ∧ staleCopy e.s (coreOf e.sh) (localOf a) (capColour (memCap e o)) = some cp)
      (fun e t =>
        let k := coreOf e.sh
        let pts := (coreAt e.s k).pts
        goesPast e t (extendLoad o.d o.sz (ofBytes (copyBytes cp.data (localOf a % 128) n))) ∧
        coreBecomes e.s t k { coreAt e.s k with watch :=
          [{ sh := e.sh, ln := e.ln, line := lineOf (localOf a), w := cp.wts, pts := pts, struck := false, inRun := false }] } ∧
        accounts e.s t ∧ ∃ r : Renew, r.core = k ∧ r.line = lineOf (localOf a) ∧ r.pts = pts ∧ r.w = some cp.wts ∧
          t = { e.s with sheaves := t.sheaves, cores := t.cores, ctxs := t.ctxs, nextId := t.nextId, focus := none, net := { netEmpty with renews := [r] } })) ∧
    aloneDoes (.ld h o) h
      (fun e => accessAddr e (memCap e o) accLoad (memOff e o) n n = .ok a ∧ regionOf e.s.fabric.number a = .host ∧ quiet e.s (coreOf e.sh) e.sf.ctx)
      (fun e t => waitsBegun e t .reply ∧ accounts e.s t ∧ ∃ r : Req, r.want = .load o.d o.sz ∧ r.sh = e.sh ∧ r.ln = e.ln ∧ r.addr = a ∧ r.size = n ∧
        t = { e.s with sheaves := t.sheaves, focus := none, ctxs := t.ctxs, nextId := t.nextId,
                       net := { netEmpty with pcieReqs := [r], out := [.hostRead (ctxAt e.s e.sf.ctx).func (localOf a % 2 ^ 41) n] } })

/-- Stores to local HBM (R143, R144, R267, R273, R127): a ST or STC posts its bytes and, once the store performs at its home, memory holds them at the address
computed and is unchanged elsewhere; in a run the store is buffered; a store to the host window waits to leave.
The model's own readings in it: log entry 3. -/
def Obligations.StoresComplete : Prop :=
  ∀ (h : Guard) (o : MF) (a : Nat),
    let stores := fun (i : Instr) (acc : Env → Access) (n : Nat) (data : Env → QWord) (tag : Env → Bool) =>
      let leaves := fun (e : Env) (t : State) (net : Net) =>
        goesPast e t wrNone ∧ accounts e.s t ∧
          t = { e.s with sheaves := t.sheaves, focus := none, ctxs := t.ctxs, nextId := t.nextId, free := e.s.free + 1, net := net }
      aloneDoes i h (fun e => mayAccess e (memCap e o) (acc e) (memOff e o) n n a ∧ quiet e.s (coreOf e.sh) e.sf.ctx) (fun e t =>
        (∃ p : PStore, p.sh = e.sh ∧ p.ln = e.ln ∧ p.who = whoOf e.sf e.th ∧ p.core = coreOf e.sh ∧ p.addr = a ∧ p.size = n ∧ p.data = data e ∧ p.tagged = tag e ∧
          p.cap = memCap e o ∧ p.pts = (coreAt e.s (coreOf e.sh)).pts ∧ leaves e t { netEmpty with stores := [p] }) ∧
        leadsTo (.homeWrite 0) t fun u => wroteBytes e.s.mem u.mem (localOf a) (toBytes n (data e).toNat) ∧
          (∀ g, Tab.get false u.tags g = if g = localOf a / 16 then tag e else Tab.get false e.s.tags g) ∧ u.net.stores = [] ∧ u.sheaves = t.sheaves) ∧
      (∀ (s : State) (sh ln : Nat) (sf : Sheaf) (th : Thread) (r : Run),
        let e := soloEnv s sh ln sf th
        s.focus = some { sh := sh, mask := BitVec.ofNat 32 (2 ^ ln), pairMask := 0, rest := 0, word := none } → ln < 32 → sheaf? s sh = some sf →
        Tab.at? sf.lanes ln = some th → guardTrue th h = true → th.run = some r → r.nst < 8 → runnerOf s sf = none → th.pc.toNat % 8 = 0 →
        accessAddr e (memCap e o) (acc e) (memOff e o) n n = .ok a →
        leadsTo i s fun t => lanesKept s t sh ln ∧ sheavesKept s t ∧ t = { s with sheaves := t.sheaves, focus := none, free := s.free + 1 } ∧
          ∃ (u : Thread) (x : RunStore), thread? t sh ln = some u ∧
            u = { th with pc := th.pc + 8, run := some { r with pos := r.pos + 1, nst := r.nst + 1, stores := r.stores ++ [x] } } ∧
            x.scratch = false ∧ x.addr = a ∧ x.size = n ∧ x.data = data e ∧ x.tagged = tag e ∧ x.cap = memCap e o ∧ x.pos = r.pos) ∧
      aloneDoes i h
        (fun e => accessAddr e (memCap e o) (acc e) (memOff e o) n n = .ok a ∧ regionOf e.s.fabric.number a = .host ∧ quiet e.s (coreOf e.sh) e.sf.ctx)
        (fun e t => ∃ p : PStore, p.who = whoOf e.sf e.th ∧ p.addr = a ∧ p.size = n ∧ p.data = data e ∧ p.tagged = false ∧
          leaves e t { netEmpty with pcieWrites := [p] })
    stores (.st h o) (fun _ => accStore) (szBytes o.sz) (fun e => dataReg e o.d (szBytes o.sz)) (fun _ => false) ∧
    stores (.stc h o) (fun e => accStoreCap (cReg e.th (o.d.toNat % 32))) 16 (fun e => (cReg e.th (o.d.toNat % 32)).bits) (fun e => (cReg e.th (o.d.toNat % 32)).tag)

/-- Atomics at their home (R145 to R147, R240, R273): CAS, the thirteen operations of ATOM and SIGPOST at device or system scope read the old value and write the
new one in one step; the lane takes the old value and flags, and every other byte is unchanged.
The model's own readings in it: log entry 3. -/
def Obligations.AtomicsComplete : Prop :=
  ∀ (h : Guard) (o : MF) (u : Tri) (a k : Nat),
    let n := szBytes o.sz
    let keep := o.rh.getLsbD 1
    let ins := [Instr.atomAdd h o, .atomMin h o, .atomMax h o, .atomMinu h o, .atomMaxu h o, .atomAnd h o, .atomOr h o, .atomXor h o, .atomXchg h o, .atomFadd h o,
      .atomFmin h o, .atomFmax h o, .atomInc h o]
    let home := fun (e : Env) (t : State) =>
      t = { e.s with sheaves := t.sheaves, mem := t.mem, tags := t.tags, slices := t.slices, cores := t.cores, quads := t.quads, ctxs := t.ctxs, agenda := t.agenda,
                     free := e.s.free + 1, focus := none } ∧ accounts e.s t ∧ copiesOnly e.s t (coreOf e.sh) ∧ ∀ q, (quadAt t q).rr = (quadAt e.s q).rr
    let wrote := fun (e : Env) (t : State) (n v : Nat) => wroteBytes e.s.mem t.mem (localOf a) (toBytes n v) ∧
      ∀ g, Tab.get false t.tags g = if g = localOf a / 16 then false else Tab.get false e.s.tags g
    aloneDoes (.sigpost h u) h (fun e => mayAccess e (capA e u.a) (accAtomic true) 0 8 8 a ∧ quiet e.s (coreOf e.sh) e.sf.ctx) (fun e t =>
      goesPast e t wrNone ∧ home e t ∧ wrote e t 8 ((ofBytes (bytesAt e.s a 8) + (src e u.b 1).toNat) % 2 ^ 64)) ∧
    ((n = 4 ∨ n = 8) → o.scope = 2 ∨ o.scope = 3 →
      (∀ (i : Instr) (f : Nat → Nat → Nat × Word), ins[k]? = some i → (atomTable n)[k]? = some f →
        aloneDoes i h (fun e => mayAccess e (memCap e o) (accAtomic (k = 0 ∨ k = 8)) (memOff e o) n n a ∧ quiet e.s (coreOf e.sh) e.sf.ctx) (fun e t =>
          let old := ofBytes (bytesAt e.s a n)
          let r := f old ((dataReg e o.d n).toNat % 2 ^ (8 * n))
          goesPast e t (oldValue o.d n old keep r.2) ∧ home e t ∧ wrote e t n r.1)) ∧
      aloneDoes (.cas h o) h (fun e => mayAccess e (memCap e o) (accAtomic true) (memOff e o) n n a ∧ quiet e.s (coreOf e.sh) e.sf.ctx) (fun e t =>
        let old := ofBytes (bytesAt e.s a n)
        let expected := if n = 8 then (codePair e o.d).toNat else (readCode e o.d.toNat).toNat
        let new := if n = 8 then (codePair e (o.d + 2)).toNat else (readCode e (o.d.toNat + 1)).toNat
        goesPast e t (oldValue o.d n old false 0) ∧ home e t ∧
          if old = expected then wrote e t n new else keptBytes e.s.mem t.mem ∧ t.tags = e.s.tags))

/-- Atomics on a core's and on a cluster unit's value (R285, R293): at team scope the new value leaves as a store of the core, at cluster scope it stays in the
unit's line and goes out in a conditional write-back; the lane takes the old value at once, and memory is unchanged by the word.
The model's own readings in it: log entries 3 and 19. -/
def Obligations.ScopedAtomics : Prop :=
  ∀ (h : Guard) (o : MF) (a k : Nat),
    let n := szBytes o.sz
    let ins := [Instr.atomAdd h o, .atomMin h o, .atomMax h o, .atomMinu h o, .atomMaxu h o, .atomAnd h o, .atomOr h o, .atomXor h o, .atomXchg h o, .atomFadd h o,
      .atomFmin h o, .atomFmax h o, .atomInc h o]
    ∀ (i : Instr) (f : Nat → Nat → Nat × Word), ins[k]? = some i → (atomTable n)[k]? = some f → (n = 4 ∨ n = 8) →
      let core := fun (e : Env) => coreAt e.s (coreOf e.sh)
      let old := fun (e : Env) => ofBytes (bytesAt e.s a n)
      let new := fun (e : Env) => f (old e) ((dataReg e o.d n).toNat % 2 ^ (8 * n))
      let may := fun (e : Env) => mayAccess e (memCap e o) (accAtomic (k = 0 ∨ k = 8)) (memOff e o) n n a ∧ quiet e.s (coreOf e.sh) e.sf.ctx ∧ coreOf e.sh < Config.cores
      let done := fun (e : Env) (t : State) => goesPast e t (oldValue o.d n (old e) (o.rh.getLsbD 1) (new e).2) ∧ accounts e.s t ∧ copiesOnly e.s t (coreOf e.sh)
      (o.scope = 0 → aloneDoes i h
        (fun e => may e ∧ ((cacheBanks (core e)).isEmpty = false ∧ Tab.at? (core e).dcache (lineOf (localOf a)) = none ∨
          (cacheBanks (core e)).isEmpty = true ∧ (core e).atoms = []))
        (fun e t => done e t ∧ ∃ p : PStore, p.kind = .teamAtomic ∧ p.who = whoOf e.sf e.th ∧ p.core = coreOf e.sh ∧ p.addr = a ∧ p.size = n ∧
          p.data = BitVec.ofNat 128 (new e).1 ∧
          t = { e.s with sheaves := t.sheaves, slices := t.slices, cores := t.cores, ctxs := t.ctxs, nextId := t.nextId, free := e.s.free + 1, focus := none,
                         net := { netEmpty with stores := [p] } })) ∧
      (o.scope = 1 → aloneDoes i h (fun e => may e ∧ mayInject e.s (448 + clusterOfCore (coreOf e.sh)) e.sf.ctx = true) (fun e t => done e t ∧
        ∃ w : WriteBack, w.cluster = clusterOfCore (coreOf e.sh) ∧ w.line = lineOf (localOf a) ∧ copyBytes w.data (localOf a % 128) n = toBytes n (new e).1 ∧
          t = { e.s with sheaves := t.sheaves, slices := t.slices, cores := t.cores, clusters := t.clusters, ctxs := t.ctxs, nextId := t.nextId, free := e.s.free + 1,
                         focus := none, net := { netEmpty with wbs := [w] } }))

/-- Scratch (R28, R303 to R306): LDS reads the team's scratch, STS writes it, CASS and ATOMS read and write it in one step; the tags of the granules written are
cleared, every other byte and all of memory is unchanged. -/
def Obligations.ScratchComplete : Prop :=
  ∀ (h : Guard) (o : MF) (a k : Nat),
    let n := szBytes o.sz
    let ins := [Instr.atomsAdd h o, .atomsMin h o, .atomsMax h o, .atomsMinu h o, .atomsMaxu h o, .atomsAnd h o, .atomsOr h o, .atomsXor h o, .atomsXchg h o,
      .atomsFadd h o, .atomsFmin h o, .atomsFmax h o, .atomsInc h o]
    let held := fun (e : Env) => readMem (coreAt e.s (coreOf e.sh)).scratch a n
    let frame := fun (e : Env) (t : State) => t = { e.s with sheaves := t.sheaves, cores := t.cores, focus := none }
    aloneDoes (.lds h o) h (fun e => mayScratch e o n a) (fun e t =>
      goesPast e t (extendLoad o.d o.sz (ofBytes (held e))) ∧ t = { e.s with sheaves := t.sheaves, focus := none }) ∧
    aloneDoes (.sts h o) h (fun e => mayScratch e o n a) (fun e t => goesPast e t wrNone ∧ frame e t ∧ wroteScratch e t a (toBytes n (dataReg e o.d n).toNat)) ∧
    ((n = 4 ∨ n = 8) →
      (∀ (i : Instr) (f : Nat → Nat → Nat × Word), ins[k]? = some i → (atomTable n)[k]? = some f →
        aloneDoes i h (fun e => mayScratch e o n a) (fun e t =>
          let r := f (ofBytes (held e)) ((dataReg e o.d n).toNat % 2 ^ (8 * n))
          goesPast e t (oldValue o.d n (ofBytes (held e)) (o.rh.getLsbD 1) r.2) ∧ frame e t ∧ wroteScratch e t a (toBytes n r.1))) ∧
      aloneDoes (.cass h o) h (fun e => mayScratch e o n a) (fun e t =>
        let expected := if n = 8 then (codePair e o.d).toNat else (readCode e o.d.toNat).toNat
        let new := if n = 8 then (codePair e (o.d + 2)).toNat else (readCode e (o.d.toNat + 1)).toNat
        goesPast e t (oldValue o.d n (ofBytes (held e)) false 0) ∧ frame e t ∧
          if ofBytes (held e) = expected then wroteScratch e t a (toBytes n new) else t.cores = e.s.cores))

/-- FENCE, CHECK and PREF (R282, R298 to R302): FENCE goes past once every earlier store of the lane has performed; CHECK goes past where no entry is struck, and to
the repair target where one is; PREF asks for a line and changes no register.
The model's own readings in it: log entries 3 and 66. -/
def Obligations.OrderingWordsComplete : Prop :=
  ∀ (h : Guard) (o : MF) (p : PStore) (w : Watch),
    let k := fun (e : Env) => coreOf e.sh
    let past := fun (e : Env) (t : State) => goesPast e t wrNone ∧ t = { e.s with sheaves := t.sheaves, focus := none }
    aloneDoes (.fence h o) h (fun e => e.s.net = netEmpty ∧ (coreAt e.s (k e)).watch = [] ∧ e.s.clusters = []) past ∧
    aloneDoes (.check h o) h (fun e => (coreAt e.s (k e)).watch = []) past ∧
    aloneDoes (.fence h o) h
      (fun e => e.s.net = { netEmpty with stores := [p] } ∧ p.who = whoOf e.sf e.th ∧ (coreAt e.s (k e)).watch = [] ∧
        e.s.clusters = [] ∧ granuleCheck e.s (localOf p.addr) (capColour p.cap) = .pass)
      (fun e t => goesPast e t wrNone ∧ wroteBytes e.s.mem t.mem (localOf p.addr) (toBytes p.size p.data.toNat) ∧ accounts e.s t ∧ copiesOnly e.s t p.core ∧
        t = { e.s with sheaves := t.sheaves, mem := t.mem, tags := t.tags, slices := t.slices, cores := t.cores, quads := t.quads, ctxs := t.ctxs, agenda := t.agenda,
                       net := netEmpty, focus := none }) ∧
    aloneDoes (.check h o) h
      (fun e => (coreAt e.s (k e)).watch = [w] ∧ w.sh = e.sh ∧ w.ln = e.ln ∧ w.struck = true ∧ e.th.spr.wrep &&& ~~~7#32 ≠ 0)
      (fun e t => becomes e.s t e.sh e.ln { e.th with t := [], pc := e.th.spr.wrep &&& ~~~7#32, spr := { e.th.spr with
          wstat := BitVec.ofNat 32 (2 ^ 31 + min 255 ((e.th.spr.wstat.extractLsb' 16 8).toNat + 1) * 65536) } } ∧
        coreBecomes e.s t (k e) { coreAt e.s (k e) with watch := [] } ∧ t = { e.s with sheaves := t.sheaves, cores := t.cores, focus := none }) ∧
    aloneDoes (.check h o) h (fun e => (coreAt e.s (k e)).watch = [w] ∧ w.sh = e.sh ∧ w.ln = e.ln ∧ w.struck = false)
      (fun e t => waitsWith e t .stall ∧ t = { e.s with sheaves := t.sheaves, focus := none }) ∧
    (∀ a, aloneDoes (.pref h o) h
      (fun e => mayAccess e (memCap e o) accLoad (memOff e o) 1 1 a ∧ quiet e.s (k e) e.sf.ctx ∧ Tab.at? (coreAt e.s (k e)).dcache (lineOf (localOf a)) = none)
      (fun e t => goesPast e t wrNone ∧ accounts e.s t ∧
        ∃ r : Renew, r.core = k e ∧ r.line = lineOf (localOf a) ∧ r.pts = (coreAt e.s (k e)).pts ∧ r.w = none ∧ r.hint = o.rh.toNat ∧
        t = { e.s with sheaves := t.sheaves, focus := none, ctxs := t.ctxs, nextId := t.nextId, net := { netEmpty with renews := [r] } })) ∧
    aloneDoes (.pref h o) h (fun e => ∃ f, accessAddr e (memCap e o) accLoad (memOff e o) 1 1 = .error f) past

/-- Mailboxes (R138 to R141): CSEND writes the capability, the word and the sender record at TAIL, raises TAIL and sets its predicate, or clears it where the ring
is full; CRECV takes the entry at HEAD and raises HEAD, or answers an untagged null capability; one that waited does the same when its home takes it.
The model's own readings in it: log entries 13, 15 and 27. -/
def Obligations.MailboxesComplete : Prop :=
  (∀ (h : Guard) (o : Tri) (head tail size n a : Nat),
    let at_ := fun (e : Env) (k : Access) => mayAccess e (capA e o.a) k 0 64 16 a ∧ quiet e.s (coreOf e.sh) e.sf.ctx ∧ mailbox e.s (capA e o.a) head tail size n
    let frame := fun (e : Env) (t : State) => t = { e.s with sheaves := t.sheaves, mem := t.mem, tags := t.tags, slices := t.slices, cores := t.cores, ctxs := t.ctxs,
                                                             agenda := t.agenda, free := e.s.free + 1, focus := none } ∧ accounts e.s t ∧ copiesOnly e.s t (coreOf e.sh)
    aloneDoes (.csend h o) h (fun e => at_ e (accSend (capA e o.b)) ∧ n < size) (fun e t =>
      goesPast e t (wrPred o.d.toNat true) ∧ mailPut e.s t (capA e o.a) (capA e o.b) tail size (codePair e o.c.reg) (senderRecord e.s e.sf) ∧ frame e t) ∧
    aloneDoes (.csend h o) h (fun e => at_ e (accSend (capA e o.b)) ∧ n = size) (fun e t =>
      goesPast e t (wrPred o.d.toNat false) ∧ keptBytes e.s.mem t.mem ∧ t.tags = e.s.tags ∧ frame e t) ∧
    aloneDoes (.crecv h o) h (fun e => at_ e accRecv ∧ 0 < n) (fun e t =>
      goesPast e t (recvWr (o.d.toNat % 32) o.b.reg o.c.reg (mailEntry e.s (capA e o.a) head size)) ∧
      wroteBytes e.s.mem t.mem (localOf (capBase (capA e o.a))) (toBytes 4 ((head + 1) % 2 ^ 32)) ∧ frame e t) ∧
    aloneDoes (.crecv h o) h (fun e => at_ e accRecv ∧ n = 0) (fun e t =>
      goesPast e t (recvWr (o.d.toNat % 32) o.b.reg o.c.reg (nullCap, 0, 0xFFFFFFFFFFFFFFFF#64)) ∧ keptBytes e.s.mem t.mem ∧ t.tags = e.s.tags ∧ frame e t)) ∧
  ∀ (s : State) (i sh ln head tail size n : Nat) (m : Mail) (sf : Sheaf) (th : Thread), standing s sh ln sf th → m.sh = sh → m.ln = ln →
    granuleCheck s (localOf (capBase m.cap)) (capColour m.cap) = .pass → mailbox s m.cap head tail size n →
    (s.net.csends[i]? = some m → n < size → leadsTo (.csendAtHome i) s fun t =>
      goesOn s t sh ln th (wrPred m.pred true) ∧ mailPut s t m.cap m.carried tail size m.word (senderRecord s sf) ∧
        t.net = { s.net with csends := s.net.csends.eraseIdx i }) ∧
    (s.net.crecvs[i]? = some m → 0 < n → leadsTo (.crecvAtHome i) s fun t =>
      goesOn s t sh ln th (recvWr m.cd (BitVec.ofNat 8 m.wreg) (BitVec.ofNat 8 m.sreg) (mailEntry s m.cap head size)) ∧
      wroteBytes s.mem t.mem (localOf (capBase m.cap)) (toBytes 4 ((head + 1) % 2 ^ 32)) ∧ t.net = { s.net with crecvs := s.net.crecvs.eraseIdx i })

/-! ### Banks, rendezvous, signals, launches -/

/-- BANKCFG and BANK_SWITCH_DONE (R258 to R260, R307): 2 where another context is on the core, 0 where the bank is in the mode, 1 where it is used or switching, else
the lane waits while the bank switches; the switch zeroes a bank that leaves CACHE and answers 0 to every lane that waits.
The model's own readings in it: log entry 29. -/
def Obligations.BanksComplete : Prop :=
  (∀ (h : Guard) (o : MF),
    let b := o.disp.toNat % 64
    let mode : BankMode := if o.disp.toNat / 256 % 4 = 0 then .cache else if o.disp.toNat / 256 % 4 = 1 then .scratch else .fifo
    let core := fun (e : Env) => coreAt e.s (coreOf e.sh)
    let bank := fun (e : Env) => bankAt (core e) b
    let shared := fun (e : Env) => e.s.teams.any fun t => decide (t.2.core = coreOf e.sh) && decide (t.2.ctx ≠ e.sf.ctx)
    let answers := fun (e : Env) (t : State) (v : Word) => goesPast e t (wrReg o.d v) ∧ t = { e.s with sheaves := t.sheaves, focus := none }
    aloneDoes (.bankcfg h o) h (fun e => shared e = true) (fun e t => answers e t 2) ∧
    aloneDoes (.bankcfg h o) h (fun e => shared e = false ∧ (bank e).switching = none ∧ (bank e).mode = mode) (fun e t =>
      goesPast e t (wrReg o.d 0) ∧ t = { e.s with sheaves := t.sheaves, cores := t.cores, focus := none } ∧
        coreBecomes e.s t (coreOf e.sh) { core e with banks := Tab.put (core e).banks b { bank e with byUnit := false, byCfg := decide (mode ≠ .cache) } }) ∧
    aloneDoes (.bankcfg h o) h (fun e => shared e = false ∧ (bank e).switching.isSome = true) (fun e t => answers e t 1) ∧
    aloneDoes (.bankcfg h o) h (fun e => shared e = false ∧ (bank e).switching = none ∧ (bank e).mode ≠ mode ∧
      ((bank e).mode = .scratch ∧ bankUsed e.s (coreOf e.sh) b = true ∨ (bank e).mode = .fifo ∧ (bank e).reserved = true)) (fun e t => answers e t 1) ∧
    aloneDoes (.bankcfg h o) h (fun e => shared e = false ∧ (bank e).switching = none ∧ (bank e).mode ≠ mode ∧
      ((bank e).mode = .scratch → bankUsed e.s (coreOf e.sh) b = false) ∧ ((bank e).mode = .fifo → (bank e).reserved = false)) (fun e t =>
      waitsBegun e t (.bank b o.d) ∧ t = { e.s with sheaves := t.sheaves, cores := t.cores, nextId := e.s.nextId + 1, focus := none } ∧
        coreBecomes e.s t (coreOf e.sh) { core e with
          banks := Tab.put (core e).banks b { bank e with switching := some mode, byUnit := false, byCfg := decide (mode ≠ .cache) },
          dcache := (core e).dcache.filter fun x => decide (x.2.bank ≠ b ∨ (bank e).mode ≠ .cache) })) ∧
  ∀ (s : State) (core b : Nat) (m : BankMode),
    let waits := fun (sh _ln : Nat) (th : Thread) => if coreOf sh = core then (match th.hold with
      | some (.bank x d) => if x = b then some (wrReg d 0) else none
      | _ => none) else none
    core < Config.cores → b < 48 → (bankAt (coreAt s core) b).switching = some m → waitersStand s waits →
    leadsTo (.bankSwitchDone core b) s fun t => wakes s t [] waits ∧ (bankAt (coreAt t core) b).mode = m ∧ (bankAt (coreAt t core) b).switching = none ∧
      (m ≠ .cache → (∀ x, x / 65536 = b → readByte (coreAt t core).scratch x = 0) ∧ ∀ g, g / 4096 = b → Tab.get false (coreAt t core).stags g = false) ∧
      (∀ x, x / 65536 ≠ b → readByte (coreAt t core).scratch x = readByte (coreAt s core).scratch x) ∧
      (∀ j, j ≠ b → bankAt (coreAt t core) j = bankAt (coreAt s core) j) ∧ (∀ j, j ≠ core → coreAt t j = coreAt s j) ∧ t = { s with sheaves := t.sheaves, cores := t.cores }

/-- Rendezvous points (R191 to R193, R238, R239): RDVINIT sets the count a point expects; an arrival takes the phase as its parity and counts; the last of a phase
turns it and frees every lane that waits for it; RDVWAIT and RDVAW wait while the phase is their parity; a point that expects none is misused.
The model's own readings in it: log entries 13 and 15. -/
def Obligations.RendezvousComplete : Prop :=
  ∀ (h : Guard) (o : Tri) (k : Nat) (team : Team),
    let i := o.c.num % 32
    let rp := Tab.get rdvReset team.rps i
    let phase := decide (rp.turns % 2 = 1)
    let at_ := fun (e : Env) => e.sf.team = some k ∧ Tab.at? e.s.teams k = some team
    let calm := fun (e : Env) => ∀ w ∈ rdvWaiters e.s k i, w.2.2 = rp.turns
    let frees := fun (e : Env) => waitersStand e.s (rdvFreed e.s k i (rp.turns + 1)) ∧ e.th.hold = none
    let may := fun (e : Env) => at_ e ∧ quiet e.s (coreOf e.sh) e.sf.ctx ∧ rp.expect ≠ 0
    let still := fun (e : Env) (t : State) => t = { e.s with sheaves := t.sheaves, focus := none }
    let point := fun (e : Env) (t : State) (r : Rdv) =>
      t = { e.s with sheaves := t.sheaves, focus := none, teams := Tab.put e.s.teams k { team with rps := Tab.put team.rps i r } }
    let last := rp.arrived + 1 = rp.expect
    let turned : Rdv := { rp with arrived := 0, turns := rp.turns + 1 }
    let counted : Rdv := { rp with arrived := rp.arrived + 1 }
    let misuses := fun (j : Instr) (ok : Env → Prop) => aloneDoes j h (fun e => at_ e ∧ calm e ∧ e.th.park = none ∧ (coreAt e.s (coreOf e.sh)).watch = [] ∧ ok e)
      (fun e t => parksAlone e.s t e.sh e.ln e.sf e.th 0x04 0 0 e.th.pc)
    aloneDoes (.rdvinit h o) h (fun e => at_ e ∧ rp.arrived = 0 ∧ rdvWaiters e.s k i = [] ∧ 1 ≤ (src e o.a 1).toNat ∧ (src e o.a 1).toNat ≤ 2048) (fun e t =>
      goesPast e t wrNone ∧ point e t { rp with expect := (src e o.a 1).toNat }) ∧
    misuses (.rdvinit h o) (fun e => rp.arrived ≠ 0 ∨ rdvWaiters e.s k i ≠ [] ∨ (src e o.a 1).toNat = 0 ∨ 2048 < (src e o.a 1).toNat) ∧
    (∀ j ∈ [Instr.rdvarr h o, .rdvwait h o, .rdvaw h o], misuses j fun _ => rp.expect = 0) ∧
    aloneDoes (.rdvarr h o) h (fun e => may e ∧ calm e ∧ ¬last) (fun e t => goesPast e t (wrPred o.d.toNat phase) ∧ point e t counted) ∧
    aloneDoes (.rdvarr h o) h (fun e => may e ∧ frees e ∧ last) (fun e t =>
      thread? t e.sh e.ln = some (retired e.th (wrPred o.d.toNat phase)) ∧ wakes e.s t [(e.sh, e.ln)] (rdvFreed e.s k i (rp.turns + 1)) ∧ point e t turned) ∧
    aloneDoes (.rdvwait h o) h (fun e => at_ e ∧ calm e ∧ rp.expect ≠ 0 ∧ pReg e.th o.d.toNat = phase) (fun e t => waitsWith e t (.rdv i rp.turns) ∧ still e t) ∧
    aloneDoes (.rdvwait h o) h (fun e => at_ e ∧ calm e ∧ rp.expect ≠ 0 ∧ pReg e.th o.d.toNat ≠ phase) (fun e t => goesPast e t wrNone ∧ still e t) ∧
    aloneDoes (.rdvaw h o) h (fun e => may e ∧ calm e ∧ ¬last) (fun e t => waitsWith e t (.rdv i rp.turns) ∧ point e t counted) ∧
    aloneDoes (.rdvaw h o) h (fun e => may e ∧ frees e ∧ last) (fun e t =>
      thread? t e.sh e.ln = some (retired e.th wrNone) ∧ wakes e.s t [(e.sh, e.ln)] (rdvFreed e.s k i (rp.turns + 1)) ∧ point e t turned)

/-- Signals and the phase timer (R194, R195, R240 to R242): SIGWAIT goes past once the word it loads reaches its threshold, also on a later load or a poll of host
memory; PHASE sets or stops the team's timer; an overrun stops it and is told to the thread that R195 names.
The model's own readings in it: log entries 13 and 65. -/
def Obligations.SignalsAndPhase : Prop :=
  (∀ (h : Guard) (o : Tri) (a : Nat),
    let value := fun (e : Env) => ofBytes (bytesAt e.s a 8)
    let thr := fun (e : Env) => (srcPair e o.b).toNat
    let may := fun (e : Env) => mayAccess e (capA e o.a) accLoad 0 8 8 a ∧ quiet e.s (coreOf e.sh) e.sf.ctx
    let frame := fun (e : Env) (t : State) =>
      t = { e.s with sheaves := t.sheaves, slices := t.slices, cores := t.cores, ctxs := t.ctxs, nextId := t.nextId, focus := none } ∧ accounts e.s t ∧
        copiesOnly e.s t (coreOf e.sh)
    aloneDoes (.sigwait h o) h (fun e => may e ∧ thr e ≤ value e) (fun e t => goesPast e t wrNone ∧ frame e t) ∧
    aloneDoes (.sigwait h o) h (fun e => may e ∧ value e < thr e) (fun e t => waitsWith e t (.sigwait (capA e o.a) (thr e) (decide (o.c.num % 2 = 1))) ∧ frame e t) ∧
    (∀ (k : Nat) (team : Team),
      let timed := fun (e : Env) => { team with phaseN := if src e o.a 1 = 0 then none else some (src e o.a 1).toNat, phaseCount := 0 }
      aloneDoes (.phase h o) h (fun e => e.sf.team = some k ∧ Tab.at? e.s.teams k = some team) (fun e t =>
      goesPast e t wrNone ∧ t = { e.s with sheaves := t.sheaves, focus := none, teams := Tab.put e.s.teams k (timed e) }))) ∧
  (∀ (s : State) (sh ln : Nat) (sf : Sheaf) (th : Thread) (c : Cap) (thr : Nat) (ext : Bool) (v : DWord), standing s sh ln sf th →
    th.hold = some (.sigwait c thr ext) →
    (regionOf s.fabric.number (capBase c) = .hbm → granuleCheck s (localOf (capBase c)) (capColour c) = .pass → quiet s (coreOf sh) sf.ctx →
      leadsTo (.sigwaitReload sh ln) s fun t =>
        (if thr ≤ ofBytes (bytesAt s (capBase c) 8) then goesOn s t sh ln th wrNone else t.sheaves = s.sheaves) ∧ accounts s t ∧
        t = { s with sheaves := t.sheaves, slices := t.slices, cores := t.cores, ctxs := t.ctxs, nextId := t.nextId }) ∧
    (regionOf s.fabric.number (capBase c) = .host → leadsTo (.sigwaitHostPoll sh ln v) s fun t =>
      if thr ≤ v.toNat then goesOn s t sh ln th wrNone ∧ signalsGivenUp s t sh ln ∧ t = { s with sheaves := t.sheaves, net := t.net } else t = s)) ∧
  ∀ (s : State) (k n : Nat) (team : Team) (x : Nat × Nat) (th : Thread),
    let m := (ctxAt s team.ctx).phmargin
    Tab.at? s.teams k = some team → team.phaseN = some n → n + (n * (m.toNat / 2 ^ 24) / 100 + m.toNat % 2 ^ 24) < team.phaseCount →
    teamTarget s { ctx := team.ctx, launch := team.launch, stage := team.stage, teamid := team.index, gangid := 0, tid := 0 } = some x → thread? s x.1 x.2 = some th →
    leadsTo (.phaseOverrun k) s fun t => becomes s t x.1 x.2 { th with overrun := some n } ∧
      t = { s with sheaves := t.sheaves, teams := Tab.put s.teams k { team with phaseN := none }, agenda := s.agenda ++ [.asyncFault x.1 x.2] }

/-- LAUNCH and LWAIT (R244 to R249): a refused launch writes all ones and its status, an accepted one its handle, with the launch recorded; LWAIT goes past where its
handle names no launch and waits where it does. The descriptor lies in local HBM, no copy serves it, and its context has no quota.
The model's own readings in it: log entries 13 and 28. -/
def Obligations.LaunchWordsComplete : Prop :=
  ∀ (h : Guard) (o : Tri) (a st : Nat) (l : Launch),
    let core := fun (e : Env) => coreAt e.s (coreOf e.sh)
    let desc := fun (e : Env) => parseDesc (structAt e a 8).1 (structAt e a 8).2
    let may := fun (e : Env) => readsStruct e (capA e o.a) (accStruct [0, 4]) 8 a ∧ needsMap e.s e.sf.ctx (desc e) 0 = false
    let memoryKept := fun (e : Env) (t : State) => t.mem = e.s.mem ∧ t.tags = e.s.tags ∧ t.net = netEmpty ∧ t.teams = e.s.teams ∧ t.granules = e.s.granules ∧
      copiesOnly e.s t (coreOf e.sh) ∧ lanesKept e.s t e.sh e.ln
    aloneDoes (.launch h o) h (fun e => may e ∧ launchCheck e.s e.sf.ctx (desc e) 0 true none = .error st)
      (fun e t => thread? t e.sh e.ln = some (retired e.th (wrPair o.d (0xFFFFFFFF#32 ++ BitVec.ofNat 32 st))) ∧ t.launches = e.s.launches ∧ memoryKept e t) ∧
    aloneDoes (.launch h o) h (fun e => may e ∧ launchCheck e.s e.sf.ctx (desc e) 0 true none = .ok l)
      (fun e t => memoryKept e t ∧ ∃ (handle id : Nat) (x : Launch), thread? t e.sh e.ln = some (retired e.th (wrPair o.d (BitVec.ofNat 32 handle ++ 0#32))) ∧
        e.s.nextId ≤ id ∧ id < t.nextId ∧ Tab.at? t.launches id = some x ∧ { x with handle := l.handle, pts := l.pts } = l ∧ x.handle.getD 0xFFFFFFFF = handle ∧
        ∀ j, j ≠ id → Tab.at? t.launches j = Tab.at? e.s.launches j) ∧
    aloneDoes (.lwait h o) h (fun e => namedLaunch e.s e.sf.ctx (src e o.a 1) = none) (fun e t =>
      goesPast e t wrNone ∧ t = { e.s with sheaves := t.sheaves, cores := t.cores, focus := none } ∧
        coreBecomes e.s t (coreOf e.sh) { core e with pts := max (core e).pts (latestPts e.s) }) ∧
    aloneDoes (.lwait h o) h (fun e => (namedLaunch e.s e.sf.ctx (src e o.a 1)).isSome = true) (fun e t =>
      waitsWith e t (.lwait (src e o.a 1)) ∧ t = { e.s with sheaves := t.sheaves, focus := none })

/-! ### Engines -/

/-- The TILE words (R311 to R314, R344 to R348): TDEF writes an entry within the team's scratch, TFILL and TDRAIN hand a transfer to the copy engine (the resume forms
from the row they stopped at), TWAIT and TSTAT go past where no transfer runs, TFREE forgets a tile, TGIVE gives it to the feeder.
The model's own readings in it: log entry 13. -/
def Obligations.TilesComplete : Prop :=
  ∀ (h : Guard) (o : XF) (id i : Nat) (team : Team) (x : Tile),
    let may := fun (e : Env) => namesTile e id team o.x0.toNat i x
    let only := fun (e : Env) (t : State) => t = { e.s with sheaves := t.sheaves, cores := t.cores, focus := none }
    let past := fun (e : Env) (t : State) => goesPast e t wrNone ∧ only e t
    let off := fun (e : Env) => (readCode e o.x1.toNat).toNat
    let rows := fun (e : Env) => (readCode e o.x2.toNat).toNat % 256 + 1
    let elems := fun (e : Env) => (readCode e o.x2.toNat).toNat / 256 % 4096 + 1
    let pitch := fun (e : Env) => (readCode e o.x3.toNat).toNat
    let bytes := fun (e : Env) => elems e * tileBits o.t.toNat / 8
    let room := fun (e : Env) => (coreAt e.s team.core).copyq.length < 32 ∧ e.s.net = netEmpty ∧ e.s.clusters = [] ∧ x.fmt ≠ 0xF
    let starts := fun (e : Env) (t : State) (drain : Bool) (prog : Nat) => past e t ∧
      tileBecomes e.s t team.core i { x with state := if drain then .draining else .filling, engine := true, flt := false, prog := prog }
        [.tile team.ctx team.launch i drain (cReg e.th (o.x1.toNat % 32)) (readCode e o.x2.toNat).toNat (readCode e o.x3.toNat).toNat (o.flags.toNat / 2 % 4) false]
    aloneDoes (.tdef h o) h
      (fun e => may e ∧ x.flt = false ∧ (x.state = .empty ∨ x.state = .ready) ∧ off e % 16 = 0 ∧ pitch e % 16 = 0 ∧ 0 < pitch e ∧ pitch e ≤ 65536 ∧
        (tileBits o.t.toNat = 4 → elems e % 2 = 0) ∧ bytes e ≤ pitch e ∧ off e + (rows e - 1) * pitch e + bytes e ≤ team.slen)
      (fun e t => past e t ∧ tileBecomes e.s t team.core i
        { state := .empty, engine := false, flt := false, cause := 0, faddr := 0, prog := 0, fmt := o.t, team := id, rows := rows e, pitch := pitch e / 16,
          elems := elems e, sbase := (team.sbase + off e) / 16, giv := false } []) ∧
    aloneDoes (.tfill h o) h (fun e => may e ∧ x.flt = false ∧ room e ∧ (x.state = .ready ∨ x.state = .empty)) (fun e t => starts e t false 0) ∧
    aloneDoes (.tdrain h o) h (fun e => may e ∧ x.flt = false ∧ room e ∧ x.state = .ready) (fun e t => starts e t true 0) ∧
    aloneDoes (.tfillResume h o) h (fun e => may e ∧ room e ∧ x.flt = true ∧ x.state = .filling) (fun e t => starts e t false x.prog) ∧
    aloneDoes (.tdrainResume h o) h (fun e => may e ∧ room e ∧ x.flt = true ∧ x.state = .draining) (fun e t => starts e t true x.prog) ∧
    aloneDoes (.twait h o) h (fun e => may e ∧ x.flt = false ∧ x.fmt ≠ 0xF ∧ (x.state = .empty ∨ x.state = .ready))
      (fun e t => goesPast e t wrNone ∧ t = { e.s with sheaves := t.sheaves, focus := none }) ∧
    aloneDoes (.twait h o) h (fun e => may e ∧ x.flt = true ∧ e.th.park = none) (fun e t =>
      parksAlone e.s t e.sh e.ln e.sf e.th x.cause.toNat
        (0x60 + (o.x0.toNat + x.prog % 256 * 256) * 256 + if x.state = .draining then 2 ^ 25 else 0) x.faddr e.th.pc) ∧
    aloneDoes (.tstat h o) h (fun e => namesTile e id team o.x1.toNat i x ∧ x.flt = false ∧ x.fmt ≠ 0xF ∧ (x.state = .empty ∨ x.state = .ready))
      (fun e t => goesPast e t (wrPair o.x0
        (BitVec.ofNat 32 (x.pitch % 8192 * 2 ^ 16 + (x.elems - 1) % 4096) ++
         BitVec.ofNat 32 ((x.rows - 1) * 2 ^ 24 + x.prog % 512 * 2 ^ 8 + x.fmt.toNat * 2 ^ 4 + if x.state = .ready then 2 else 0))) ∧
        t = { e.s with sheaves := t.sheaves, focus := none }) ∧
    aloneDoes (.tfree h o) h (fun e => may e ∧ x.fmt ≠ 0xF)
      (fun e t => past e t ∧ tileBecomes e.s t team.core i { x with state := .empty, flt := false, fmt := 0xF } []) ∧
    aloneDoes (.tgive h o) h
      (fun e => may e ∧ x.flt = false ∧ x.fmt ≠ 0xF ∧ (x.state = .empty ∨ x.state = .ready) ∧ (coreAt e.s team.core).feeder.team = some id ∧ e.s.net = netEmpty ∧
        e.s.clusters = [])
      (fun e t => past e t ∧ tileBecomes e.s t team.core i { x with engine := true, giv := true } [])

/-- The copy engine (R313, R316 to R318, R320 to R322, R355, R356): COPY_ROW moves a row between local HBM and scratch, or a piece of a command's bytes; TILE_TRANSFER_DONE
makes the tile READY; COMMAND_COPY_DONE raises the signal; CMDRUN queues the copy of its block; CMDPOLL tests a word against a threshold.
The model's own readings in it: log entry 30. -/
def Obligations.CopiesComplete : Prop :=
  (∀ (s : State) (k ctx l i off stride hint a : Nat) (drain fed : Bool) (c : Cap) (rest : List CopyReq),
    let x := tileAt s k i
    let n := rowBytes x
    let row := readMem (coreAt s k).scratch (rowBase x x.prog) n
    (coreAt s k).copyq = .tile ctx l i drain c off stride hint fed :: rest → k < Config.cores →
    ((ctxAt s ctx).state = .running → x.prog < x.rows → (x.rows * n ≤ 524288 ∨ 0 < (coreAt s k).copyPermit) → mayInject s k ctx = true →
      checkCap s.fabric.number (ctxAt s ctx).colours c (if drain then accCopyTo else accCopyFrom) (off + x.prog * stride) n (tileAlign x.fmt.toNat) = .ok a →
      regionOf s.fabric.number a = .hbm → granulesCheck s (localOf a) n (capColour c) = .pass →
      leadsTo (.copyRow k) s fun t => tileAt t k i = { x with prog := x.prog + 1 } ∧ t.sheaves = s.sheaves ∧ t.net = s.net ∧ accounts s t ∧
        if drain then wroteBytes s.mem t.mem (localOf a) row else
          wroteBytes (coreAt s k).scratch (coreAt t k).scratch (rowBase x x.prog) (readMem s.mem (localOf a) n) ∧ keptBytes s.mem t.mem) ∧
    (x.rows ≤ x.prog → leadsTo (.tileTransferDone k) s fun t => tileAt t k i = { x with state := .ready, engine := x.giv } ∧ (coreAt t k).copyq = rest ∧
      t = { s with cores := t.cores })) ∧
  (∀ (s : State) (k ctx l soff doff len done hint : Nat) (src dst sig : Cap) (tags failed : Bool) (rest : List CopyReq),
    let sa := (capBase src + soff + done) % 2 ^ 52
    let da := (capBase dst + doff + done) % 2 ^ 52
    let n := pieceBytes da (len - done)
    (coreAt s k).copyq = .command ctx l src dst sig soff doff len done tags hint failed :: rest → k < Config.cores → (ctxAt s ctx).state = .running →
    (failed = false → done < len → (len ≤ 524288 ∨ 0 < (coreAt s k).copyPermit) → mayInject s k ctx = true → regionOf s.fabric.number sa = .hbm → regionOf s.fabric.number da = .hbm →
      granulesCheck s (localOf sa) n (capColour src) = .pass → granulesCheck s (localOf da) n (capColour dst) = .pass →
      leadsTo (.copyRow k) s fun t => wroteBytes s.mem t.mem (localOf da) (readMem s.mem (localOf sa) n) ∧ t.sheaves = s.sheaves ∧ accounts s t ∧
        (coreAt t k).copyq = .command ctx l src dst sig soff doff len (done + n) tags hint false :: rest) ∧
    ((len ≤ done ∨ failed = true) → regionOf s.fabric.number (capBase sig) = .hbm → granuleCheck s (localOf (capBase sig)) (capColour sig) = .pass →
      leadsTo (.commandCopyDone k) s fun t => (coreAt t k).copyq = rest ∧ t.sheaves = s.sheaves ∧
        wroteBytes s.mem t.mem (localOf (capBase sig))
          (toBytes 8 ((ofBytes (bytesAt s (capBase sig) 8) + if failed then 2 ^ 32 else 1) % 2 ^ 64)))) ∧
  ∀ (h : Guard) (o : XF) (a : Nat),
    let c := fun (e : Env) => cReg e.th (o.x1.toNat % 32)
    let block := fun (e : Env) => parseCommand (structAt e a 4).1 (structAt e a 4).2
    let reads := fun (e : Env) => readsStruct e (c e) accCommand 4 a ∧ e.sh < feederBase
    aloneDoes (.cmdrun h o) h
      (fun e => reads e ∧ commandFault e.s (coloursOf e.s e.sf) a (block e) = none ∧ (coreAt e.s (coreOf e.sh)).copyq.length < 32)
      (fun e t =>
        let m := block e
        goesPast e t wrNone ∧ readsOnly e t ∧ { coreAt t (coreOf e.sh) with pts := 0, dcache := [] } = { coreAt e.s (coreOf e.sh) with pts := 0, dcache := [], copyq := (coreAt e.s (coreOf e.sh)).copyq ++
            [.command e.sf.ctx e.sf.launch m.src m.dst m.sig m.soff m.doff m.len 0 (m.flags % 2 == 1) (m.flags / 2 % 4) false] } ∧
          ∀ j, j ≠ coreOf e.sh → coreAt t j = coreAt e.s j) ∧
    aloneDoes (.cmdrun h o) h
      (fun e => reads e ∧ e.th.park = none ∧ 8 ≤ (block e).flags)
      (fun e t => parks e.s { t with cores := e.s.cores } e.sh e.ln e.sf e.th 0x13 0x65 a e.th.pc ∧ readsOnly e t ∧ copiesOnly e.s t (coreOf e.sh)) ∧
    aloneDoes (.cmdpoll h o) h
      (fun e => mayAccess e (c e) accLoad 0 8 8 a ∧ quiet e.s (coreOf e.sh) e.sf.ctx ∧ noCopy e (c e) a)
      (fun e t => goesPast e t (wrPred o.x0.toNat (decide ((codePair e o.x2).toNat ≤ ofBytes (bytesAt e.s a 8)))) ∧ readsOnly e t ∧
        copiesOnly e.s t (coreOf e.sh))

/-- The FEED words (R323 to R325, R349 to R353): FSTART binds the feeder to an entry of the lane's code and waits for its bank, or answers why not; the feed program's
FPUSH appends a quad; FPOP takes one, or zeros once the queue is closed; FWAIT tells whether enough are there; FSTOP stops the feeder.
The model's own readings in it: log entry 31. -/
def Obligations.FeedersComplete : Prop :=
  ∀ (h : Guard) (o : XF) (id b : Nat) (team : Team),
    let k := fun (e : Env) => coreOf e.sh
    let feeder := fun (e : Env) => (coreAt e.s (k e)).feeder
    let mine := fun (e : Env) => e.sh < feederBase ∧ e.sf.team = some id ∧ Tab.at? e.s.teams id = some team
    let served := fun (e : Env) => mine e ∧ (feeder e).team = some id
    let q := o.x1.toNat % 8
    let still := fun (e : Env) (t : State) => t = { e.s with sheaves := t.sheaves, focus := none }
    let cores := fun (e : Env) (t : State) => t = { e.s with sheaves := t.sheaves, cores := t.cores, focus := none }
    let pred := fun (v : Bool) => if o.x2 = 0xFF then wrNone else wrPred o.x2.toNat v
    aloneDoes (.fstart h o) h (fun e => mine e ∧ (feeder e).team.isSome = true) (fun e t => goesPast e t (wrReg o.x0 1) ∧ still e t) ∧
    aloneDoes (.fstart h o) h (fun e => mine e ∧ (feeder e).team = none ∧ cacheBanks (coreAt e.s (k e)) = []) (fun e t => goesPast e t (wrReg o.x0 2) ∧ still e t) ∧
    aloneDoes (.fstart h o) h (fun e => mine e ∧ (feeder e).team = none ∧ (cacheBanks (coreAt e.s (k e))).getLast? = some b ∧
      (entryCount e.s e.th.code ≤ o.x1.toNat ∨ capLen e.th.code < entryOffset e.s e.th.code o.x1.toNat + 8)) (fun e t => goesPast e t (wrReg o.x0 3) ∧ still e t) ∧
    aloneDoes (.fstart h o) h (fun e => mine e ∧ (feeder e).team = none ∧ (cacheBanks (coreAt e.s (k e))).getLast? = some b ∧
      o.x1.toNat < entryCount e.s e.th.code ∧ entryOffset e.s e.th.code o.x1.toNat + 8 ≤ capLen e.th.code ∧ e.s.net = netEmpty ∧ e.s.clusters = []) (fun e t =>
        let f := (coreAt t (k e)).feeder
        waitsBegun e t (.bank b o.x0) ∧ t = { e.s with sheaves := t.sheaves, cores := t.cores, nextId := e.s.nextId + 1, focus := none } ∧ f.team = some id ∧ f.code = e.th.code ∧ f.pc = BitVec.ofNat 32 (entryOffset e.s e.th.code o.x1.toNat) ∧
          f.bank = b ∧ f.queues = [] ∧ f.g = [] ∧ f.p = [] ∧ f.closed = false ∧ f.faulted = none ∧ (∀ r, r < 8 → Tab.get nullCap f.c r = cReg e.th r) ∧
          (bankAt (coreAt t (k e)) b).switching = some .fifo ∧ (bankAt (coreAt t (k e)) b).reserved = true) ∧
    aloneDoes (.fpush h o) h (fun e => e.sh < feederBase ∧ e.th.park = none) (fun e t =>
      parksAlone e.s t e.sh e.ln e.sf e.th 0x01 0x0C e.th.pc.toNat e.th.pc) ∧
    aloneDoes (.fpush h o) h
      (fun e => feederBase ≤ e.sh ∧ (feedQueue (coreAt e.s (e.sh - feederBase)).feeder (o.x0.toNat % 8)).length < 64 ∧ o.x2 = 0xFF)
      (fun e t => goesPast e t wrNone ∧ cores e t ∧ feedQueue (coreAt t (e.sh - feederBase)).feeder (o.x0.toNat % 8) =
        feedQueue (coreAt e.s (e.sh - feederBase)).feeder (o.x0.toNat % 8) ++ [codeQuad e o.x1]) ∧
    (∀ (v : QWord) (rest : List QWord), aloneDoes (.fpop h o) h (fun e => served e ∧ feedQueue (feeder e) q = v :: rest) (fun e t =>
      goesPast e t (wrBoth (wrQuad o.x0 v) (pred true)) ∧ cores e t ∧ feedQueue (coreAt t (k e)).feeder q = rest)) ∧
    aloneDoes (.fpop h o) h (fun e => served e ∧ feedQueue (feeder e) q = [] ∧ (feeder e).faulted = none ∧ (feeder e).closed = true) (fun e t =>
      goesPast e t (wrBoth (wrQuad o.x0 0) (pred false)) ∧ still e t) ∧
    aloneDoes (.fpop h o) h (fun e => served e ∧ feedQueue (feeder e) q = [] ∧ (feeder e).faulted = none ∧ (feeder e).closed = false) (fun e t =>
      waitsWith e t .stall ∧ still e t) ∧
    (∀ (c : Byte) (pc : Word), aloneDoes (.fpop h o) h (fun e => served e ∧ feedQueue (feeder e) q = [] ∧ (feeder e).faulted = some (c, pc) ∧ e.th.park = none)
      (fun e t => parksAlone e.s t e.sh e.ln e.sf e.th c.toNat 0x61 pc.toNat e.th.pc)) ∧
    aloneDoes (.fwait h o) h (fun e => served e ∧ (feeder e).faulted = none ∧ o.x2.toNat ≤ (feedQueue (feeder e) q).length) (fun e t =>
      goesPast e t (wrPred o.x0.toNat true) ∧ still e t) ∧
    aloneDoes (.fwait h o) h (fun e => served e ∧ (feeder e).faulted = none ∧ (feedQueue (feeder e) q).length < o.x2.toNat ∧ (feeder e).closed = true) (fun e t =>
      goesPast e t (wrPred o.x0.toNat false) ∧ still e t) ∧
    aloneDoes (.fstop h o) h (fun e => served e ∧ (coreAt e.s (k e)).copyq.any copyFed = false) (fun e t => goesPast e t wrNone ∧ cores e t ∧
      (coreAt t (k e)).feeder.team = none ∧ (coreAt t (k e)).feeder.queues = [] ∧ (bankAt (coreAt t (k e)) (feeder e).bank).reserved = false ∧
      ∀ x ∈ (coreAt t (k e)).tiles, x.2.giv = false)

/-! ### The rake -/

/-- The RAKE words (R331, R332, R357 to R359): RKMARK records a range for the next pass of its kind, or answers false where 256 stand; RKPASS queues a pass over the
ranges marked, or answers 0 where five are outstanding; RKWAIT waits for a pass; RKSTAT reads its state and the free entries. -/
def Obligations.RakeWordsComplete : Prop :=
  ∀ (h : Guard) (o : XF),
    let cap := fun (e : Env) => cReg e.th (o.x1.toNat % 32)
    let auth := fun (e : Env) => (cap e).tag = true ∧ capSealed (cap e) = false ∧ capKind (cap e) = 6 ∧
      (validColours (coloursOf e.s e.sf)).contains (capColour (cap e)) = true
    let still := fun (e : Env) (t : State) => t = { e.s with sheaves := t.sheaves, focus := none }
    let rake := fun (e : Env) (t : State) (r : Rake) => t = { e.s with sheaves := t.sheaves, focus := none, rake := r }
    let off := fun (e : Env) => (codePair e o.x2).toNat
    let marks := fun (i : Instr) (relocate : Bool) (q : Env → Nat) =>
      aloneDoes i h (fun e => auth e ∧ q e % 2 ^ 64 ≠ 0 ∧ off e + q e % 2 ^ 64 ≤ capLen (cap e) ∧ e.s.rake.entries.length < 256) (fun e t =>
        goesPast e t (wrPred o.x0.toNat true) ∧ rake e t { e.s.rake with entries := e.s.rake.entries ++
          [{ base := (capBase (cap e) + off e) % 2 ^ 52, len := q e % 2 ^ 64, relocate := relocate, delta := BitVec.ofNat 52 (q e / 2 ^ 64),
             colour := BitVec.ofNat 12 (capColour (cap e)), pass := waitingPass e.s.rake relocate, unloads := none }] }) ∧
      aloneDoes i h (fun e => auth e ∧ q e % 2 ^ 64 ≠ 0 ∧ off e + q e % 2 ^ 64 ≤ capLen (cap e) ∧ 256 ≤ e.s.rake.entries.length) (fun e t =>
        goesPast e t (wrPred o.x0.toNat false) ∧ still e t)
    let own := fun (e : Env) => (e.s.rake.running.toList ++ e.s.rake.waiting).filter fun p => p.origin.isNone
    let mask := fun (e : Env) => cReg e.th (o.x3.toNat % 32)
    let peers := fun (m : Nat) => (List.range 511).filter m.testBit
    let kept := fun (e : Env) (m : Nat) => (peers m).filter fun p => decide (p ≠ e.s.fabric.number) && !(routeOf e.s p).isEmpty
    let queued := fun (e : Env) (t : State) (relocate : Bool) (m : Nat) => ∃ n, n ≠ 0 ∧ n < 2 ^ 32 ∧
      (n = (e.s.rake.last + 1) % 2 ^ 32 ∨ (e.s.rake.last + 1) % 2 ^ 32 = 0 ∧ n = 1) ∧
      goesPast e t (wrPair o.x0 (BitVec.ofNat 32 ((peers m).length - (kept e m).length) ++ BitVec.ofNat 32 n)) ∧
      let p : Pass := { number := n, relocate := relocate, ranges := [], peers := kept e m, swept := false, cursor := 0, leases := 0, origin := none,
                        ctx := some e.sf.ctx }
      let marked := fun (x : RakeEntry) => if x.relocate = relocate ∧ x.pass = none then { x with pass := some n } else x
      t.rake = { e.s.rake with last := n, waiting := e.s.rake.waiting ++ [p], entries := e.s.rake.entries.map marked }
    let passes := fun (i : Instr) (relocate : Bool) =>
      aloneDoes i h (fun e => auth e ∧ o.flags.getLsbD 1 = false ∧ (own e).length < 5) (fun e t =>
        queued e t relocate (codePair e o.x2).toNat ∧ t = { e.s with sheaves := t.sheaves, focus := none, rake := t.rake }) ∧
      (∀ a, aloneDoes i h (fun e => auth e ∧ o.flags.getLsbD 1 = true ∧ readsStruct e (mask e) accLoad 4 a ∧ (own e).length < 5) (fun e t =>
        queued e t relocate (ofBytes (structAt e a 4).1) ∧ readsOnly e { t with rake := e.s.rake } ∧ copiesOnly e.s t (coreOf e.sh))) ∧
      aloneDoes i h (fun e => auth e ∧ o.flags.getLsbD 1 = false ∧ 5 ≤ (own e).length) (fun e t => goesPast e t (wrPair o.x0 0) ∧ still e t)
    marks (.rkmark h o) false (fun e => (codePair e o.x3).toNat) ∧ marks (.rkmarkRelocate h o) true (fun e => (codeQuad e o.x3).toNat) ∧
    passes (.rkpass h o) false ∧ passes (.rkpassRelocate h o) true ∧
    aloneDoes (.rkwait h o) h (fun e => passState e.s.rake (readCode e o.x0.toNat).toNat = 0) (fun e t => goesPast e t wrNone ∧ still e t) ∧
    aloneDoes (.rkwait h o) h (fun e => passState e.s.rake (readCode e o.x0.toNat).toNat ≠ 0) (fun e t => waitsWith e t .stall ∧ still e t) ∧
    aloneDoes (.rkstat h o) h (fun _ => True) (fun e t => still e t ∧
      goesPast e t (wrPair o.x0 (BitVec.ofNat 32 (256 - e.s.rake.entries.length) ++ BitVec.ofNat 32 (passState e.s.rake (readCode e o.x1.toNat).toNat))))

/-- A pass of the rake (R224, R332 to R334): it starts with its ranges and tells its peers; it clears the tags of, or moves, exactly the capabilities whose BASE lies in
its ranges, in every register of resident threads and in tagged memory; it ends once swept and reported; a peer's sweep waits its turn.
The model's own readings in it: log entries 5 and 33. -/
def Obligations.RakeEventsComplete : Prop :=
  (∀ (p : Pass) (c : Cap), (p.relocate = false → passCap p c = if inSweep p c then { c with tag := false } else c) ∧
    (p.relocate = true → inSweep p c = false → passCap p c = c)) ∧
  (∀ (s : State) (p : Pass) (rest : List Pass), s.rake.running = none → s.rake.waiting = p :: rest → p.origin = none →
    leadsTo .rakePassStart s fun t => ∃ r : List SweepRange, t.rake = { s.rake with running := some { p with ranges := r }, waiting := rest } ∧
      (∀ x, x ∈ r ↔ ∃ y ∈ s.rake.entries, y.pass = some p.number ∧
        x = { base := y.base, len := y.len, relocate := y.relocate, delta := y.delta, colour := y.colour }) ∧
      t.net.out = s.net.out ++ p.peers.map (fun k => Out.peerPass k p.number r) ∧ t.sheaves = s.sheaves ∧ t.mem = s.mem) ∧
  (∀ (s : State) (p : Pass), s.rake.running = some p → p.swept = false →
    let held := fun (x : Nat) => ({ bits := BitVec.ofNat 128 (ofBytes (readMem s.mem (16 * x) 16)), tag := true } : Cap)
    (∀ k, p.ctx = some k → s.host.migration = none → (ctxAt s k).state = .stopping → leadsTo .rakeBatch s fun t => t = s) ∧
    (rakeStopped s p = false → passBlocked s p = false → p.cursor = 0 → leadsTo .rakeBatch s fun t =>
      t.rake.running = some { p with cursor := 1 } ∧ t.mem = s.mem ∧ t.tags = s.tags ∧
      ∀ sh ln th, thread? s sh ln = some th → ∃ u, thread? t sh ln = some u ∧ { u with c := [], buf := [] } = { th with c := [], buf := [] } ∧
        u.buf = th.buf.map (passCap p) ∧ ∀ r, cReg u r = passCap p (cReg th r)) ∧
    (∀ g l next, rakeStopped s p = false → p.cursor = g + 1 → batchAt s g = (l, next) → l ≠ [] → leadsTo .rakeBatch s fun t =>
      t.sheaves = s.sheaves ∧ (∃ n, t.rake.running = some { p with cursor := next + 1, leases := n }) ∧
      (p.relocate = false → keptBytes s.mem t.mem ∧ ∀ x, Tab.get false t.tags x = (Tab.get false s.tags x && !(l.contains x && inSweep p (held x)))) ∧
      (p.relocate = true → l.Nodup → ∀ x, readMem t.mem (16 * x) 16 =
        (if x ∈ l then toBytes 16 (passCap p (held x)).bits.toNat else readMem s.mem (16 * x) 16))) ∧
    (rakeStopped s p = false → p.cursor ≠ 0 → (batchAt s (p.cursor - 1)).1 = [] → leadsTo .rakeBatch s fun t =>
      t = { s with rake := { s.rake with running := some { p with swept := true } } })) ∧
  (∀ (s : State) (p : Pass) (k : Nat), s.rake.running = some p → p.origin = none →
    leadsTo (.rakePeerReport k) s fun t => t = { s with rake := { s.rake with running := some { p with peers := p.peers.erase k } } }) ∧
  (∀ (s : State) (p : Pass), s.rake.running = some p → p.swept = true → p.peers = [] → p.leases = 0 → oldPackets s = false → p.origin = none →
    leadsTo .rakePassComplete s fun t =>
      t = { s with rake := { s.rake with running := none, entries := s.rake.entries.filter fun x => decide (x.pass ≠ some p.number) } }) ∧
  ∀ (s : State) (peer pass : Nat) (r : List SweepRange), peer < 511 → leadsTo (.peerSweep peer pass r) s fun t =>
    ∃ p : Pass, t = { s with rake := { s.rake with waiting := s.rake.waiting ++ [p] } } ∧ p.number = pass ∧ p.ranges = r ∧ p.origin = some peer ∧ p.swept = false

/-! ### Multicast-reduce and matrices -/

/-- Multicast-reduce (R337 to R339, R360, R361, R433): STMR adds its word to its member's contributions; MRWAIT waits for a generation; a line that every member gave is
delivered as the sum modulo 2^32 (for I32), whatever the order of addition, and the lanes whose generation is reached go on; firmware sets and invalidates groups.
The model's own readings in it: log entries 12, 13 and 34. -/
def Obligations.GroupsComplete : Prop :=
  (∀ (h : Guard) (o : XF) (g byte : Nat),
    let cap := fun (e : Env) => cReg e.th (o.x1.toNat % 32)
    let off := fun (e : Env) => (readCode e o.x2.toNat).toNat
    let m := fun (e : Env) => memberOf (groupAt e.s g).desc (coreOf e.sh)
    aloneDoes (.stmr h o) h (fun e => onGroup e (cap e) (off e) g byte (some o.t.toNat) ∧ quiet e.s (coreOf e.sh) e.sf.ctx) (fun e t =>
      goesPast e t wrNone ∧ t = { e.s with sheaves := t.sheaves, groups := t.groups, ctxs := t.ctxs, focus := none } ∧ accounts e.s t ∧
        (∀ j, j ≠ g → groupAt t j = groupAt e.s j) ∧ { groupAt t g with contrib := [], owners := [] } = { groupAt e.s g with contrib := [], owners := [] } ∧
        (∀ k l, k ∈ Tab.get [] (groupAt t g).owners l ↔ k ∈ Tab.get [] (groupAt e.s g).owners l ∨ k = e.sf.ctx ∧ l = byte / 128) ∧
        (∀ j w, Tab.get [] (Tab.get [] (groupAt t g).contrib j) w = Tab.get [] (Tab.get [] (groupAt e.s g).contrib j) w ++
          if j = m e ∧ w = byte / 4 then [readCode e o.x0.toNat] else [])) ∧
    aloneDoes (.mrwait h o) h (fun e => onGroup e (cap e) (off e) g byte none ∧
        (BitVec.ofNat 32 (Tab.get 0 (groupAt e.s g).gens (m e)) - readCode e o.x0.toNat).toNat < 2 ^ 31)
      (fun e t => goesPast e t wrNone ∧ t = { e.s with sheaves := t.sheaves, cores := t.cores, focus := none } ∧
        coreBecomes e.s t (coreOf e.sh) { coreAt e.s (coreOf e.sh) with pts := max (coreAt e.s (coreOf e.sh)).pts (groupAt e.s g).time }) ∧
    aloneDoes (.mrwait h o) h (fun e => onGroup e (cap e) (off e) g byte none ∧
        2 ^ 31 ≤ (BitVec.ofNat 32 (Tab.get 0 (groupAt e.s g).gens (m e)) - readCode e o.x0.toNat).toNat)
      (fun e t => waitsWith e t (.mr g (m e) (readCode e o.x0.toNat)) ∧ t = { e.s with sheaves := t.sheaves, focus := none })) ∧
  (∀ (s : State) (g line d : Nat) (c : Cap) (sum : List Word),
    let x := groupAt s g
    let a := (capBase c + 128 * line) % 2 ^ 52
    let total := fun (i : Nat) => ((members x.desc).map fun m => ((Tab.get [] (Tab.get [] x.contrib m) (line * 32 + i)).headD 0).toNat).sum % 2 ^ 32
    let reached := fun (t : State) => fun m target => genReached (Tab.get 0 (groupAt t g).gens m) target
    let counts := fun (t : State) => ∀ m, Tab.get 0 (groupAt t g).gens m = Tab.get 0 x.gens m +
      if m ∈ members x.desc ∧ ∀ i, i < x.desc.lines → i ≠ line → 1 ≤ Tab.get 0 x.delivered i then 1 else 0
    g < 1024 → x.valid = true → line < x.desc.lines → (members x.desc).Nodup → x.desc.dest = [(d, c)] → d < 8 → regionOf s.fabric.number a = .hbm →
    128 * (line + 1) ≤ capLen c → granuleCheck s (localOf a) (capColour c) = .pass → waitersStand s (mrWaits g fun _ _ => true) →
    (∀ e ∈ s.sheaves, ∀ l ∈ e.2.lanes, (mrWaits g (fun _ _ => true) e.1 l.1 l.2).isSome = true → l.2.word = none) →
    (x.desc.type = 2 → x.desc.peers = [] → members x.desc ≠ [] →
      (∀ m ∈ members x.desc, ∀ i, i < 32 → Tab.get [] (Tab.get [] x.contrib m) (line * 32 + i) ≠ []) →
      leadsTo (.mrDelivery g line) s fun t => wroteBytes s.mem t.mem (localOf a) ((List.range 32).flatMap fun i => toBytes 4 (total i)) ∧ counts t ∧
        wakes s t [] (mrWaits g (reached t))) ∧
    (x.desc.type ≠ 3 → Tab.get [] x.atSwitch line ≠ [] → sum.length = (if x.desc.type = 1 then 64 else 32) →
      leadsTo (.mrSwitchSum g line sum) s fun t =>
        wroteBytes s.mem t.mem (localOf a) (sumBytes ((groupT x.desc.type).getD 0) sum) ∧ counts t ∧ wakes s t [] (mrWaits g (reached t)))) ∧
  ∀ (s : State) (g : Nat) (desc : GroupDesc), g < 1024 →
    (leadsTo (.groupDescriptorSet g desc) s fun t => (groupAt t g).desc = desc ∧ (groupAt t g).contrib = [] ∧
      ((groupAt t g).valid = true ↔ desc.type ≠ 3 ∧ 1 ≤ desc.lines) ∧ (groupAt t g).gens = (groupAt s g).gens ∧ t = { s with groups := t.groups }) ∧
    ∀ (sh ln m : Nat) (target : Word) (sf : Sheaf) (th : Thread), tidy s → standing s sh ln sf th → th.park = none → th.hold = some (.mr g m target) →
      2 ^ 31 ≤ (BitVec.ofNat 32 (Tab.get 0 (groupAt s g).gens m) - target).toNat →
      (∀ e ∈ s.sheaves, ∀ l ∈ e.2.lanes, (mrWaits g (fun _ _ => true) e.1 l.1 l.2).isSome = true → (e.1, l.1) = (sh, ln)) →
      leadsTo (.mrGroupInvalidate g) s fun t => (groupAt t g).valid = false ∧ (groupAt t g).contrib = [] ∧ (groupAt t g).gens = (groupAt s g).gens ∧
        ∃ u, thread? t sh ln = some u ∧ u = parkedWith th (freeSub sf) 0x13 0x6C th.pc.toNat th.pc ∧ lanesKept s t sh ln

/-- Accumulator memory (R326, R329, R363, R365 to R367): ACCALLOC takes the lowest run that fits, answers that none does, or waits for one; ACCFREE and ACCZERO;
ACCRD and ACCWR move four words of the lane's row.
The model's own readings in it: log entry 32. -/
def Obligations.AccumulatorsComplete : Prop :=
  ∀ (h : Guard) (o : XF) (id b : Nat),
    let c := fun (e : Env) => coreAt e.s (coreOf e.sh)
    let c' := fun (e : Env) (t : State) => coreAt t (coreOf e.sh)
    let only := fun (e : Env) (t : State) => t = { e.s with sheaves := t.sheaves, cores := t.cores, focus := none } ∧ ∀ j, j ≠ coreOf e.sh → coreAt t j = coreAt e.s j
    let still := fun (e : Env) (t : State) => t = { e.s with sheaves := t.sheaves, focus := none }
    let m := o.x2.toNat
    let run := fun (e : Env) => findRun (c e) m (o.flags.toNat % 4)
    let first := fun (e : Env) (r : BitVec 8) => (readCode e r.toNat).toNat
    let one := fun (e : Env) (r : BitVec 8) => e.sf.team = some id ∧ e.sf.width ≠ 64 ∧ o.t ≠ 14 ∧ first e r = b ∧ b < 256 ∧ (accAt (c e) b).team = some id ∧
      (accAt (c e) b).pending = 0
    let mine := fun (e : Env) => ∃ x ∈ (c e).acc, x.2.team = some id
    let hinted := fun (e : Env) (k : Nat) => ∃ x, Tab.at? e.s.teams k = some x ∧ 0 < x.accHint
    let next := fun (e : Env) => mine e ∨ (c e).accq = [] ∨ hinted e id ∧ ∀ r ∈ (c e).accq, ¬hinted e r.team
    let alone := fun (e : Env) => e.sf.team = some id ∧ 1 ≤ m ∧ m ≤ 128 ∧ ∀ r ∈ (c e).accq, r.team ≠ id
    let others := fun (e : Env) (t : State) (p : Nat → Prop) => ∀ j, ¬p j → accAt (c' e t) j = accAt (c e) j
    aloneDoes (.accalloc h o) h (fun e => alone e ∧ next e ∧ run e = some b) (fun e t =>
      goesPast e t (wrBoth (wrPred o.x0.toNat true) (wrReg o.x1 (BitVec.ofNat 32 b))) ∧ only e t ∧
        (∀ j, b ≤ j → j < b + m → accAt (c' e t) j = { team := some id, words := [], pending := 0, freeing := false }) ∧ others e t (fun j => b ≤ j ∧ j < b + m)) ∧
    aloneDoes (.accalloc h o) h (fun e => e.sf.team = some id ∧ 1 ≤ m ∧ m ≤ 128 ∧ run e = none ∧ mine e) (fun e t =>
      goesPast e t (wrBoth (wrPred o.x0.toNat false) (wrReg o.x1 0xFFFFFFFF#32)) ∧ still e t) ∧
    aloneDoes (.accalloc h o) h (fun e => alone e ∧ ¬mine e ∧ (run e = none ∨ (c e).accq ≠ [] ∧ ¬hinted e id)) (fun e t =>
      waitsBegun e t .acc ∧ t = { e.s with sheaves := t.sheaves, cores := t.cores, nextId := e.s.nextId + 1, focus := none } ∧
        (∀ j, j ≠ coreOf e.sh → coreAt t j = coreAt e.s j) ∧ { c' e t with accq := [] } = { c e with accq := [] } ∧ ∃ r : AccReq, r.team = id ∧ r.sh = e.sh ∧ r.mask = BitVec.ofNat 32 (2 ^ e.ln) ∧ r.m = m ∧ r.arr = o.flags.toNat % 4 ∧ r.pred = o.x0.toNat ∧ r.dest = o.x1 ∧
        (c' e t).accq = (c e).accq ++ [r]) ∧
    aloneDoes (.accfree h o) h (fun e => e.sf.team = some id ∧ 1 ≤ o.x1.toNat ∧ o.x1.toNat ≤ 128 ∧
        ∀ j, first e o.x0 ≤ j → j < first e o.x0 + o.x1.toNat → j < 256 ∧ (accAt (c e) j).team = some id ∧ (accAt (c e) j).pending = 0) (fun e t =>
      goesPast e t wrNone ∧ only e t ∧ (∀ j, first e o.x0 ≤ j → j < first e o.x0 + o.x1.toNat → (accAt (c' e t) j).team = none) ∧
        others e t (fun j => first e o.x0 ≤ j ∧ j < first e o.x0 + o.x1.toNat)) ∧
    aloneDoes (.acczero h o) h (fun e => one e o.x0) (fun e t =>
      goesPast e t wrNone ∧ only e t ∧ accAt (c' e t) b = { accAt (c e) b with words := [] } ∧ others e t (fun j => j = b)) ∧
    aloneDoes (.accrd h o) h (fun e => one e o.x1 ∧ o.x2.toNat < 4) (fun e t => still e t ∧
      ∃ v : QWord, goesPast e t (wrQuad o.x0 v) ∧
        ∀ j, j < 4 → v.extractLsb' (32 * j) 32 = Tab.get 0 (accAt (c e) b).words (16 * e.ln + 4 * o.x2.toNat + j)) ∧
    aloneDoes (.accwr h o) h (fun e => one e o.x1 ∧ o.x2.toNat < 4) (fun e t => goesPast e t wrNone ∧ only e t ∧ others e t (fun j => j = b) ∧
      ∀ w, Tab.get 0 (accAt (c' e t) b).words w =
        if 16 * e.ln + 4 * o.x2.toNat ≤ w ∧ w < 16 * e.ln + 4 * o.x2.toNat + 4
        then readCode e (o.x0.toNat + (w - (16 * e.ln + 4 * o.x2.toNat))) else Tab.get 0 (accAt (c e) b).words w) ∧
    (∀ bs : List Nat, aloneDoes (.accrd h o) h (fun e => namedBlocks (c e) e.sf (first e o.x1) true = .ok bs ∧ accBusy (c e) bs = false ∧ o.t = 14) (fun e t =>
      still e t ∧ goesPast e t (wrQuad o.x0 (BitVec.ofNat 128
        (accGet (c e) bs true e.ln (2 * o.x2.toNat) % 2 ^ 64 + accGet (c e) bs true e.ln (2 * o.x2.toNat + 1) % 2 ^ 64 * 2 ^ 64)))))

/-- The matrix words (R313, R326 to R328, R362 to R364, R368, R369): MMA joins the queue of its array and raises the scoreboard of its blocks; ACCST, BHT, TQNT and TTRN
join it with their tiles held and their lanes waiting.
The model's own readings in it: log entry 13. -/
def Obligations.MatrixWordsComplete : Prop :=
  ∀ (h : Guard) (o : XF) (id i j : Nat) (team : Team) (a b : Tile),
    let c := fun (e : Env) => coreAt e.s team.core
    let two := fun (e : Env) (x y : BitVec 8) => namesTile e id team x.toNat i a ∧ namesTile e id team y.toNat j b ∧ a.flt = false ∧ b.flt = false ∧
      a.fmt ≠ 0xF ∧ b.fmt ≠ 0xF ∧ coreOf e.sh = team.core
    let mask := fun (e : Env) => BitVec.ofNat 32 (2 ^ e.ln)
    let queued := fun (e : Env) (t : State) (k : Nat) (op : ArrayOp) =>
      (arrayAt (coreAt t team.core) k).queue = (arrayAt (c e) k).queue ++ [op] ∧
        t = { e.s with sheaves := t.sheaves, cores := t.cores, nextId := t.nextId, focus := none }
    let room := fun (e : Env) (k : Nat) => (arrayAt (c e) k).queue.length < 8
    let held := fun (e : Env) (t : State) (l : List Nat) => waitsBegun e t .array ∧
      (∀ x ∈ l, tileAt t team.core x = { tileAt e.s team.core x with state := .ready, engine := true }) ∧ ∀ x, x ∉ l → tileAt t team.core x = tileAt e.s team.core x
    let take := fun (x : Tile) => x.state = .empty ∨ x.state = .ready
    let arr := fun (e : Env) => if quadOf e.sh % 4 < 2 then 0 else 1
    let block := fun (e : Env) (r : BitVec 8) (x : Nat) => (readCode e r.toNat).toNat = x ∧ x < 256 ∧ e.sf.width ≠ 64 ∧ (accAt (c e) x).team = some id
    (∀ (tacc ks x : Nat), aloneDoes (.mma h o) h
      (fun e => two e o.x1 o.x2 ∧ a.state = .ready ∧ b.state = .ready ∧ mmaPair a.fmt.toNat b.fmt.toNat = some (tacc, ks) ∧ tacc ≠ 14 ∧ a.rows = 32 ∧ b.rows = a.elems ∧
        b.elems = 16 ∧ a.elems % ks = 0 ∧ block e o.x0 x ∧ room e (x / 128) ∧ e.s.net = netEmpty ∧ e.s.clusters = [])
      (fun e t => goesPast e t wrNone ∧ t.nextId = e.s.nextId ∧ queued e t (x / 128) (.mma e.sh [x] a b (mask e)) ∧
        accAt (coreAt t team.core) x = { accAt (c e) x with pending := (accAt (c e) x).pending + 1 })) ∧
    (∀ x : Nat, aloneDoes (.accst h o) h
      (fun e => namesTile e id team o.x0.toNat i a ∧ coreOf e.sh = team.core ∧ a.flt = false ∧ a.fmt = o.t ∧ o.t ≠ 0xF ∧ o.t ≠ 14 ∧ take a ∧ a.rows = 32 ∧ a.elems = 16 ∧
        o.flags.getLsbD 4 = false ∧ block e o.x1 x ∧ (accAt (c e) x).pending = 0 ∧ room e (x / 128))
      (fun e t => held e t [i] ∧ queued e t (x / 128)
        (.accst e.sh [x] i none [(e.ln, readCode e o.x2.toNat)] o.t (o.flags.toNat / 4 % 4) (o.flags.toNat % 4) (mask e)))) ∧
    aloneDoes (.bht h o) h
      (fun e => namesTile e id team o.x0.toNat i a ∧ coreOf e.sh = team.core ∧ a.flt = false ∧ a.fmt = 2 ∧ a.state = .ready ∧ a.elems % o.x1.toNat = 0 ∧ room e (arr e))
      (fun e t => held e t [i] ∧ queued e t (arr e) (.bht e.sh i o.x1.toNat (mask e))) ∧
    aloneDoes (.tqnt h o) h
      (fun e => two e o.x0 o.x1 ∧ take a ∧ b.state = .ready ∧ i ≠ j ∧ b.fmt = 2 ∧ a.fmt.toNat ∈ [3, 4, 7, 9, 10, 11, 12] ∧ a.rows = b.rows ∧ a.elems = b.elems ∧
        o.flags.getLsbD 4 = false ∧ room e (arr e))
      (fun e t => held e t [i, j] ∧ queued e t (arr e)
        (.tqnt e.sh i j none (readCode e o.x2.toNat) (o.flags.toNat / 4 % 4) (o.flags.toNat % 4) (mask e))) ∧
    aloneDoes (.ttrn h o) h
      (fun e => two e o.x0 o.x1 ∧ take a ∧ b.state = .ready ∧ i ≠ j ∧ a.fmt = b.fmt ∧ b.elems ≤ 256 ∧ a.rows = b.elems ∧ a.elems = b.rows ∧ room e (arr e))
      (fun e t => held e t [i, j] ∧ queued e t (arr e) (.ttrn e.sh i j (mask e)))

/-- Arrays, grants and permits (R310, R328, R329, R336, R368, R369): an MMA whose K-steps are done leaves its queue and lowers its scoreboards; an operation takes effect
on its tiles, which return to their threads, and its lanes go on; a waiting ACCALLOC is granted; permits are asked for and granted in order.
The model's own readings in it: log entries 32 and 52. -/
def Obligations.MatrixEventsComplete : Prop :=
  (∀ (s : State) (core arr sh x : Nat) (a b : Tile) (mask : Word) (rest : List ArrayOp),
    let c := coreAt s core
    (arrayAt c arr).queue = .mma sh [x] a b mask :: rest → core < Config.cores → arr < 2 → mmaSteps a b ≤ (arrayAt c arr).steps →
    leadsTo (.mmaComplete core arr) s fun t => (arrayAt (coreAt t core) arr).queue = rest ∧ (arrayAt (coreAt t core) arr).steps = 0 ∧
      accAt (coreAt t core) x = { accAt c x with pending := (accAt c x).pending - 1 } ∧ (∀ j, j ≠ x → accAt (coreAt t core) j = accAt c j) ∧ t = { s with cores := t.cores }) ∧
  (∀ (s : State) (core arr sh : Nat) (mask : Word) (rest : List ArrayOp) (w : Wr),
    let c := coreAt s core
    let done := fun (t s' : State) (l : List Nat) => (arrayAt (coreAt t core) arr).queue = rest ∧ (coreAt t core).scratch = (coreAt s' core).scratch ∧
      (∀ i ∈ l, (tileAt t core i).engine = false) ∧ wakes s t [] (arrayHeld sh mask w) ∧ t.mem = s.mem
    core < Config.cores → arr < 2 → arrayMay s core arr = true → waitersStand s (arrayHeld sh mask w) →
    (∀ i n s', (arrayAt c arr).queue = .bht sh i n mask :: rest → bhtTile s core i n = (s', .ok w) →
      leadsTo (.arrayOpDone core arr) s fun t => done t s' [i]) ∧
    (∀ d x exp rm pol s', (arrayAt c arr).queue = .tqnt sh d x none exp rm pol mask :: rest → tqntTile s core d x none exp rm pol = (s', .ok w) →
      leadsTo (.arrayOpDone core arr) s fun t => done t s' [d, x]) ∧
    (∀ bs d exps ty rm pol ln s', (arrayAt c arr).queue = .accst sh bs d none exps ty rm pol mask :: rest → arrayWaiters s sh mask = [(sh, ln)] →
      accstRow s core bs d none exps ty.toNat rm pol (match sheaf? s sh with
        | some sf => if sf.width = 64 then 32 * sf.half else 0
        | none => 0) ln = (s', .ok w) → leadsTo (.arrayOpDone core arr) s fun t => done t s' [d]) ∧
    (∀ d x, (arrayAt c arr).queue = .ttrn sh d x mask :: rest → w = wrNone →
      leadsTo (.arrayOpDone core arr) s fun t => done t (ttrnTile s core d x) [d, x])) ∧
  (∀ (s : State) (core b : Nat) (r : AccReq) (sf : Sheaf), accHead s core = some r → sheaf? s r.sh = some sf →
    (∃ ln th, ln < 32 ∧ Tab.at? sf.lanes ln = some th ∧ r.mask.getLsbD ln = true ∧ th.hold = some .acc) →
    findRun (coreAt s core) r.m r.arr = some b → (∀ x ∈ (coreAt s core).accq.erase r, x.team ≠ r.team) →
    let w := wrBoth (wrPred r.pred true) (wrReg r.dest (BitVec.ofNat 32 b))
    waitersStand s (accHeldLanes r.sh r.mask w) →
    leadsTo (.accallocGrant core) s fun t => wakes s t [] (accHeldLanes r.sh r.mask w) ∧ (coreAt t core).accq = (coreAt s core).accq.erase r ∧
      (∀ j, b ≤ j → j < b + r.m → accAt (coreAt t core) j = { team := some r.team, words := [], pending := 0, freeing := false }) ∧ t = { s with sheaves := t.sheaves, cores := t.cores }) ∧
  ∀ (s : State) (core die : Nat) (u : PermitUnit) (rest : List (Nat × PermitUnit)),
    (core < Config.cores → needsPermit s core u = true → (core, u) ∉ (dieAt s (core / 56)).permits → leadsTo (.permitRequest core u) s fun t =>
      (dieAt t (core / 56)).permits = (dieAt s (core / 56)).permits ++ [(core, u)] ∧ t = { s with dies := t.dies }) ∧
    ((dieAt s die).permits = (core, u) :: rest → (dieAt s die).hot = false → (dieAt s die).temp < 1050 → leadsTo (.permitGrant die) s fun t =>
      if Config.permitFree s.free = true then
        (dieAt t die).permits = rest ∧ t = { s with dies := t.dies, cores := t.cores, free := s.free + 1 } ∧
          (u = .copy → (coreAt t core).copyPermit = (coreAt s core).copyPermit + 65536) ∧
          ∀ k, u = .array k → (arrayAt (coreAt t core) k).permit = (arrayAt (coreAt s core) k).permit + 65536
      else t = { s with free := s.free + 1 })

/-! ### Homes, clocks, teams -/

/-- Homes and copies (R262, R266, R271 to R275, R289, R451): a renewal is answered with a lease and the line, or Renewed; a reply raises the core's time and resolves the
watch entries on the line; reads, writes by others, ticks and granule entries have the effect of their rules and change nothing else.
The model's own readings in it: log entries 2 and 5. -/
def Obligations.HomesAnswer : Prop :=
  (∀ (s : State) (i : Nat) (r : Renew), s.net.renews[i]? = some r → granuleCheck s (r.line * 128) r.colour ≠ .transit →
    (∀ x ∈ s.net.renews.take i, sentTo r.core r.line x = false) →
    (∀ p ∈ s.net.stores, p.core = r.core → homeOf (lineOf (localOf p.addr)) = homeOf r.line → r.seq ≤ p.seq) →
    leadsTo (.homeRenew i) s fun t => accounts s t ∧ ∃ x : Reply,
      t = { s with slices := t.slices, ctxs := t.ctxs, net := { s.net with renews := s.net.renews.eraseIdx i, replies := s.net.replies ++ [x] } } ∧
      x.core = r.core ∧ x.line = r.line ∧ (homeTimes s r.line).1 ≤ x.wts ∧ x.wts + Config.lease ≤ x.rts ∧ r.pts + Config.lease ≤ x.rts ∧
      x.data = if r.w = some x.wts then none else some (lineData s r.line, lineTags s r.line)) ∧
  (∀ (s : State) (i : Nat) (ans : PeerAnswer) (r : Reply), s.net.replies[i]? = some r → leadsTo (.loadReply i ans) s fun t =>
    (coreAt t r.core).pts = max (coreAt s r.core).pts r.wts ∧ t.net = { s.net with replies := s.net.replies.eraseIdx i } ∧ t.sheaves = s.sheaves ∧ t.mem = s.mem ∧
      (∀ w ∈ (coreAt t r.core).watch, w.line = r.line → w.struck = true) ∧
      (∀ w ∈ (coreAt s r.core).watch, w.struck = false → w.line = r.line → w.w ≠ r.wts ∨ r.rts < w.pts → { w with struck := true } ∈ (coreAt t r.core).watch) ∧
      ∀ w ∈ (coreAt s r.core).watch, w.struck = true ∨ w.line ≠ r.line → w ∈ (coreAt t r.core).watch) ∧
  (∀ (s : State) (core addr : Nat), core < Config.cores → regionOf s.fabric.number addr = .hbm → leadsTo (.homeRead core addr) s fun t =>
    (homeTimes s (lineOf (localOf addr))).1 ≤ (coreAt t core).pts ∧ (coreAt s core).pts ≤ (coreAt t core).pts ∧
      (coreAt t core).pts ≤ (homeTimes t (lineOf (localOf addr))).2 ∧ t = { s with slices := t.slices, cores := t.cores }) ∧
  (∀ (s : State) (addr : Nat) (data : List Byte), addr + data.length ≤ 2 ^ 42 → leadsTo (.otherPartyWrite addr data) s fun t =>
    wroteBytes s.mem t.mem addr data ∧ (∀ g, addr < 16 * (g + 1) → 16 * g < addr + data.length → Tab.get false t.tags g = false) ∧
      t = { s with mem := t.mem, tags := t.tags, slices := t.slices, agenda := t.agenda }) ∧
  (∀ (s : State) (core : Nat), core < Config.cores → leadsTo (.ltimeTick core) s fun t =>
    (coreAt t core) = { coreAt s core with pts := (coreAt s core).pts + 1 } ∧ (∀ j, j ≠ core → coreAt t j = coreAt s j) ∧ t = { s with cores := t.cores }) ∧
  (∀ (s : State) (die g : Nat) (entry : BitVec 16), die < 8 → g < 262144 → leadsTo (.granuleEntryWrite die g entry) s fun t =>
    granuleOf t ((die * 262144 + g) * 2 ^ 21) = entry &&& 0xCFFF ∧ (∀ j, j ≠ die * 262144 + g → granuleOf t (j * 2 ^ 21) = granuleOf s (j * 2 ^ 21)) ∧
      t = { s with granules := t.granules, slices := t.slices, agenda := t.agenda }) ∧
  ∀ (s : State) (core q line : Nat) (p : PStore), core < Config.cores → q < 4 → line < 2 ^ 35 →
    ((granuleOf s (line * 128)).extractLsb' 14 2 = 1 → leadsTo (.stackCacheSpill core q line true) s fun t =>
      t = { s with slices := t.slices, quads := t.quads, nextId := t.nextId } ∧ ∃ cp, Tab.at? (quadAt t (core * 4 + q)).stack line = some cp ∧ cp.data = lineData s line ∧
        cp.tags = lineTags s line ∧ cp.colour = ((granuleOf s (line * 128)).extractLsb' 0 12).toNat) ∧
    (s.net = { netEmpty with stores := [p] } → ownerAt s p.sh p.ln = some p.who → p.kind = .stackLine → quadOf p.sh = core * 4 + q → lineOf (localOf p.addr) = line →
      granuleCheck s (localOf p.addr) (capColour p.cap) = .pass → leadsTo (.stackCacheSpill core q line false) s fun t =>
        wroteBytes s.mem t.mem (localOf p.addr) (toBytes p.size p.data.toNat) ∧ t.net = netEmpty ∧ t.sheaves = s.sheaves)

/-- Acknowledgements, lost writes, write-backs and held accesses (R27, R145, R273, R285, R389): a write told to have performed raises its core's time; a lost one is told
to its thread; a conditional write-back is accepted where its line is unchanged and refused with the new data where it is not; a held access is taken again.
The model's own readings in it: log entry 3. -/
def Obligations.WritesSettle : Prop :=
  (∀ (s : State) (i : Nat) (ans : PeerAnswer) (a : Ack), s.net.acks[i]? = some a → a.lost = false → leadsTo (.storeAck i ans) s fun t =>
    t.net = { s.net with acks := s.net.acks.eraseIdx i,
                         stores := s.net.stores.map fun p => if p.who = a.who then { p with pts := max p.pts a.wts } else p } ∧
      (coreAt t a.core).pts = max (coreAt s a.core).pts a.wts ∧ t = { s with cores := t.cores, quads := t.quads, net := t.net }) ∧
  (∀ (s : State) (i : Nat) (a : Ack) (sf : Sheaf) (th : Thread), s.net.acks[i]? = some a → a.lost = true → sheaf? s a.sh = some sf → Tab.at? sf.lanes a.ln = some th →
    th.status = .live → whoOf sf th = a.who → th.losses.length < 16 →
    (∀ e ∈ s.sheaves, ∀ l ∈ e.2.lanes, l.2.status = .live → whoOf e.2 l.2 = a.who → e.1 = a.sh ∧ l.1 = a.ln) → leadsTo (.writeLostAnswer i) s fun t =>
      becomes s t a.sh a.ln { th with losses := th.losses ++ [{ addr := a.addr, colour := a.colour }] } ∧
      t = { s with sheaves := t.sheaves, net := { s.net with acks := s.net.acks.eraseIdx i }, agenda := s.agenda ++ [.asyncFault a.sh a.ln] }) ∧
  (∀ (s : State) (i : Nat) (w : WriteBack), s.net.wbs[i]? = some w →
    (granuleCheck s (w.line * 128) w.colour = .pass → (homeTimes s w.line).1 = w.wts → leadsTo (.conditionalWriteback i) s fun t =>
      wroteBytes s.mem t.mem (w.line * 128) (toBytes 128 w.data.toNat) ∧ t.net.wbs = s.net.wbs.eraseIdx i ∧ t.sheaves = s.sheaves ∧
        ∃ r : WbReply, t.net.wbReplies = s.net.wbReplies ++ [r] ∧ r.accepted = true ∧ r.cluster = w.cluster ∧ r.line = w.line) ∧
    (granuleCheck s (w.line * 128) w.colour = .pass → (homeTimes s w.line).1 ≠ w.wts → leadsTo (.conditionalWriteback i) s fun t =>
      accounts s t ∧ ∃ r : WbReply, t = { s with ctxs := t.ctxs, net := { s.net with wbs := s.net.wbs.eraseIdx i, wbReplies := s.net.wbReplies ++ [r] } } ∧ r.accepted = false ∧
        r.data = lineData s w.line ∧ r.tags = lineTags s w.line ∧ r.granule = false)) ∧
  (∀ (s : State) (i : Nat) (r : WbReply) (x : CaLine), s.net.wbReplies[i]? = some r → Tab.at? (clusterAt s r.cluster).lines r.line = some x →
    (r.accepted = true → x.waiting = [] → leadsTo (.writebackReply i) s fun t =>
      Tab.at? (clusterAt t r.cluster).lines r.line = some { x with wts := r.wts, rts := r.wts, outstanding := false, sent := [] } ∧
      (∀ u ∈ x.sent, r.wts ≤ (coreAt t (coreOf u.sh)).pts) ∧ (∀ k, { coreAt t k with pts := 0 } = { coreAt s k with pts := 0 }) ∧
      t = { s with clusters := t.clusters, cores := t.cores, net := { s.net with wbReplies := s.net.wbReplies.eraseIdx i } }) ∧
    (r.accepted = false → r.granule = false → leadsTo (.writebackReply i) s fun t => Tab.at? (clusterAt t r.cluster).lines r.line =
        some { x with data := r.data, tags := r.tags, wts := r.wts, rts := r.wts, outstanding := false, sent := [], waiting := [] } ∧
      t = { s with clusters := t.clusters, net := { s.net with wbReplies := s.net.wbReplies.eraseIdx i } })) ∧
  ∀ (s : State) (i : Nat) (x : Held), s.net.held[i]? = some x → (granuleOf s (heldGranule x * 2 ^ 21)).extractLsb' 14 2 ≠ 2 →
    (∀ y ∈ s.net.held.take i, heldGranule y ≠ heldGranule x) →
    let left : Net := { s.net with held := s.net.held.eraseIdx i }
    match x with
    | .store p => granuleCheck s (localOf p.addr) (capColour p.cap) = .pass →
        (∀ r ∈ s.net.renews, sentTo p.core (lineOf (localOf p.addr)) r = true → p.seq ≤ r.seq) → leadsTo (.heldAccessRecheck i) s fun t =>
        wroteBytes s.mem t.mem (localOf p.addr) (toBytes p.size p.data.toNat) ∧ t.net.held = left.held
    | .lane sh ln _ => ∀ sf th, sheaf? s sh = some sf → Tab.at? sf.lanes ln = some th → th.hold = some .transit → (wordmates sf th fun k _ => k = ln) →
        leadsTo (.heldAccessRecheck i) s fun t => becomes s t sh ln { th with hold := none } ∧
          t = { s with sheaves := t.sheaves, net := left, issue := { sh := sh, mask := BitVec.ofNat 32 (2 ^ ln), pairMask := 0, rest := 0, word := none } :: s.issue }
    | .mail recv m => leadsTo (.heldAccessRecheck i) s fun t =>
        t = if recv then { s with net := { left with crecvs := m :: s.net.crecvs }, agenda := .crecvAtHome :: s.agenda }
          else { s with net := { left with csends := m :: s.net.csends }, agenda := .csendAtHome :: s.agenda }
    | .renew r => granuleCheck s (r.line * 128) r.colour ≠ .transit → leadsTo (.heldAccessRecheck i) s fun t => accounts s t ∧ ∃ y : Reply,
        t = { s with slices := t.slices, ctxs := t.ctxs, net := { left with replies := s.net.replies ++ [y] } } ∧ y.core = r.core ∧ y.line = r.line
    | .back w => granuleCheck s (w.line * 128) w.colour = .pass → (homeTimes s w.line).1 = w.wts → leadsTo (.heldAccessRecheck i) s fun t =>
        wroteBytes s.mem t.mem (w.line * 128) (toBytes 128 w.data.toNat) ∧ t.net.held = left.held
    | .ingress r => leadsTo (.heldAccessRecheck i) s fun t => t = { s with net := left, agenda := .ingress r :: s.agenda }
    | .window _ fn win off size data => leadsTo (.heldAccessRecheck i) s fun t => t = { s with net := left, agenda := .window fn win off size data :: s.agenda }

/-- Answers from the host and from peers (R147, R274, R290, R291, R427, R431, R436): a completion gives a waiting load its bytes, a peer's reply likewise or its refusal as a
fault, an acknowledgement ends a store's wait, and a host write leaves for host memory.
The model's own readings in it: log entries 14, 27 and 58. -/
def Obligations.RemoteAnswers : Prop :=
  (∀ (s : State) (i sh ln n : Nat) (sf : Sheaf) (th : Thread) (r : Req) (d : BitVec 8) (sz : BitVec 3) (pcie : PcieAnswer) (ans : PeerAnswer),
    standing s sh ln sf th → r.sh = sh → r.ln = ln → r.want = .load d sz → r.size = n →
    (s.net.pcieReqs[i]? = some r → leadsTo (.pcieCompletion i pcie) s fun t =>
      goesOn s t sh ln th (extendLoad d sz (pcie.data.toNat % 2 ^ (8 * n))) ∧
        t = { s with sheaves := t.sheaves, net := { s.net with pcieReqs := s.net.pcieReqs.eraseIdx i } }) ∧
    (s.net.peerReqs[i]? = some r → ans.refused = none → leadsTo (.loadReply (i + s.net.replies.length) ans) s fun t =>
      goesOn s t sh ln th (extendLoad d sz (ans.data.toNat % 2 ^ (8 * n))) ∧ t.net.peerReqs = s.net.peerReqs.eraseIdx i ∧ t.mem = s.mem ∧
        (coreAt t (coreOf sh)).pts = max (coreAt s (coreOf sh)).pts ans.time.toNat) ∧
    (∀ c x, s.net.peerReqs[i]? = some r → ans.refused = some (c, x) → th.park = none → leadsTo (.loadReply (i + s.net.replies.length) ans) s fun t =>
      ∃ u, thread? t sh ln = some u ∧ u = parkedWith th (freeSub sf) c.toNat x.toNat r.addr th.pc ∧ lanesKept s t sh ln ∧ t.mem = s.mem)) ∧
  (∀ (s : State) (i sh ln : Nat) (sf : Sheaf) (th : Thread) (r : Req) (ans : PeerAnswer), standing s sh ln sf th → r.sh = sh → r.ln = ln → r.want = .store →
    th.hold = some .reply → s.net.peerReqs[i]? = some r → ans.refused = none → leadsTo (.storeAck (i + s.net.acks.length) ans) s fun t =>
      goesOn s t sh ln th wrNone ∧ t.net.peerReqs = s.net.peerReqs.eraseIdx i ∧ t.mem = s.mem) ∧
  ∀ (s : State) (p : PStore) (rest : List PStore), s.net.pcieWrites = p :: rest → leadsTo (.pcieWriteDeparture 0) s fun t =>
    t = { s with net := { s.net with pcieWrites := rest,
                                     out := s.net.out ++ [.hostWrite (ctxAt s p.who.ctx).func (localOf p.addr % 2 ^ 41) (toBytes p.size p.data.toNat)] } }

/-- Choosing, dispatching and retiring (R181, R184, R197 to R203, R247, R249, R269): the ready group of the only ready sheaf is chosen; a stage set that fits becomes a team
whose threads stand at the launch's entry; blocks are donated; a team of exited threads leaves; a finished launch raises its signal and frees its waiters.
The model's own readings in it: log entries 1, 35 and 59. -/
def Obligations.DispatchAndRetire : Prop :=
  (∀ (s : State) (core quad slot : Nat) (sf : Sheaf) (g : Thread × Word),
    let q := core * 4 + quad
    core < Config.cores → quad < 4 → slot < 16 → sheaf? s (q * 16 + slot) = some sf → sf.pair = none → readyGroups s sf = [g] →
    (∀ k x, k < 16 → k ≠ slot → sheaf? s (q * 16 + k) = some x → readyGroups s x = []) →
    (∀ k x, k < 16 → sheaf? s (q * 16 + k) = some x → ∀ l ∈ x.lanes, ∀ n, l.2.hold ≠ some (.yielded n)) →
    leadsTo (.sheafChoice core quad) s fun t => t.issue = s.issue ++ [{ sh := q * 16 + slot, mask := g.2, pairMask := 0, rest := 0, word := none }] ∧ (quadAt t q).rr = (slot + 1) % 16 ∧
      (sheaf? t (q * 16 + slot)).map (fun x => x.wait) = some 0 ∧ (∀ sh ln, thread? t sh ln = thread? s sh ln) ∧ t.mem = s.mem) ∧
  (∀ s : State, (∀ l ∈ s.launches, l.2.runner = none) → (s.ctxs.map (·.1)).Nodup → leadsTo .seasonBoundary s fun t =>
    t = { s with season := s.season + 1, ctxs := t.ctxs } ∧ t.ctxs.map (·.1) = s.ctxs.map (·.1) ∧ ∀ e ∈ s.ctxs, { ctxAt t e.1 with cnt := [] } =
      { e.2 with cnt := [], spent := (e.2.spent.map fun x => (x.1, x.2 - e.2.quota)).filter fun x => decide (x.2 ≠ 0), heldPorts := [] }) ∧
  (∀ (s : State) (cl : Nat) (b : Tcb) (rest : List Tcb) (l : Launch) (sp : Spot), cl < 64 → (clusterAt s cl).queue = b :: rest → Tab.at? s.launches b.launch = some l → l.s = 1 →
    (ctxAt s l.ctx).state = .running → placeSet l.s (needOf l) (scratchBanks s) ((dispatchCores s l.ctx cl).map (useOf s)) = some [sp] →
    leadsTo (.stageSetDispatch cl) s fun t => (clusterAt t cl).queue = rest ∧ t.mem = s.mem ∧ ∃ team, Tab.at? t.teams s.nextId = some team ∧ team.launch = b.launch ∧
      team.index = b.index ∧ team.stage = 0 ∧ team.ctx = l.ctx ∧ team.core = sp.core ∧ team.slen = l.scratch ∧ team.sbase = sp.sbase ∧ team.tcount = l.tiles ∧
      ∀ sh ∈ team.sheaves, ∃ sf, sheaf? t sh = some sf ∧ sf.team = some s.nextId ∧ sf.launch = b.launch ∧ sf.ctx = l.ctx ∧
        ∀ x ∈ sf.lanes, x.2.status = .live ∧ x.2.code = capOpen l.code ∧ x.2.pc = BitVec.ofNat 32 l.entry ∧ x.2.teamid = b.index ∧
          gReg x.2 191 = BitVec.ofNat 32 l.stksz ∧ cReg x.2 2 = l.args) ∧
  (∀ (s : State) (u v : Nat) (l : List Tcb), u < 64 →
    (∀ e : Nat × Launch, mayAsk s u = true → (unitLaunches s u).head? = some e → mayInject s (Config.cores + u) e.2.ctx = true → leadsTo (.stealRequest u) s fun t =>
      (clusterAt t u).asking = (victims s u).head? ∧ accounts s t ∧ t = { s with clusters := t.clusters, ctxs := t.ctxs }) ∧
    ((clusterAt s u).asking = some v → v ≠ u → shipped s u v = l → l ≠ [] → leadsTo (.stealReply u) s fun t => (clusterAt t u).queue = (clusterAt s u).queue ++ l ∧
      (clusterAt t v).queue = (clusterAt s v).queue.filter (fun x => !l.contains x) ∧ (clusterAt t u).asking = none ∧ t = { s with clusters := t.clusters })) ∧
  (∀ (s : State) (id : Nat) (team : Team) (l : Launch), Tab.at? s.teams id = some team → Tab.at? s.launches team.launch = some l → mayRetire s id team = true →
    s.net = netEmpty → leadsTo (.teamRetire id) s fun t => Tab.at? t.teams id = none ∧ (∀ e ∈ t.sheaves, e.2.team ≠ some id) ∧
      (∀ e ∈ s.sheaves, e.2.team ≠ some id → e ∈ t.sheaves) ∧ Tab.at? t.launches team.launch = some { l with left := l.left - 1 } ∧
      (∀ b, (accAt (coreAt t team.core) b).team ≠ some id) ∧ t.mem = s.mem) ∧
  ∀ (s : State) (id : Nat) (l : Launch), Tab.at? s.launches id = some l → l.runner = none → l.left = 0 → launchWrites s id = false →
    regionOf s.fabric.number (capBase l.signal) = .hbm → granuleCheck s (localOf (capBase l.signal)) (capColour l.signal) = .pass →
    waitersStand s (fun sh _ th => if (sheaf? s sh).map (fun sf => sf.ctx) = some l.ctx then (match th.hold with
      | some (.lwait _) => some wrNone
      | _ => none) else none) →
    (∀ e ∈ s.sheaves, ∀ x ∈ e.2.lanes, ∀ h, x.2.hold = some (.lwait h) → x.2.word = none) →
    leadsTo (.launchComplete id) s fun t => wroteBytes s.mem t.mem (localOf (capBase l.signal)) (toBytes 8 ((ofBytes (bytesAt s (capBase l.signal) 8) + 1) % 2 ^ 64)) ∧
      Tab.at? t.launches id = none ∧ wakes s t [] (launchFreed s t l.ctx)

/-! ### Runner launches, contexts, queues -/

/-- Runner launches (R205 to R207, R217, R219 to R222, R225): a start reserves the FIFOs and sends the first packets in order; an end frees the launch; a travelling lane
departs in its packet; a packet goes to its FIFO or its ring; it is placed and its sheaf is released.
The model's own readings in it: log entries 28, 36, 37 and 59. -/
def Obligations.RunnersComplete : Prop :=
  (∀ (s s1 : State) (id sg : Nat) (l : Launch) (r : Runner), runnerAt s id = some (l, r) → r.started = false → (ctxAt s l.ctx).state = .running →
    (∀ x ∈ s.teams, x.2.core ∉ runnerCores r) → reserveAll s id r = some s1 → segmentOf r (BitVec.ofNat 32 l.entry) = some sg →
    leadsTo (.runnerStart id) s fun t => (∃ new, t.net = { s.net with packets := s.net.packets ++ new } ∧ new.length = l.n * l.g * l.w ∧
        ∀ n p, new[n]? = some p → p.launch = id ∧ p.tpc = BitVec.ofNat 32 l.entry ∧ p.seg = sg ∧ p.pts = 0 ∧ p.teamid = n / l.w / l.g ∧ p.gangid = n / l.w % l.g ∧ p.tid = n % l.w ∧
          ((segAt r sg).choice = 0 → p.holder = (segAt r sg).holders.getD (fold9 n % max 1 (segAt r sg).holders.length) 0)) ∧
      (∃ r', runnerBecomes s t id l r' ∧ r'.started = true ∧ r'.segs = r.segs ∧ r'.exits = r.exits ∧ r'.threads = r.threads) ∧
      ∀ i, i < r.segs.length → ringHead t r i = 0 ∧ ringTail t r i = 0) ∧
  (∀ (s : State) (id : Nat) (l : Launch) (r : Runner), runnerAt s id = some (l, r) → r.started = true → r.threads ≤ r.exits → launchWrites s id = false →
    regionOf s.fabric.number (capBase l.signal) = .hbm → granuleCheck s (localOf (capBase l.signal)) (capColour l.signal) = .pass →
    (∀ e ∈ s.sheaves, ∀ x ∈ e.2.lanes, ∀ h, x.2.hold ≠ some (.lwait h)) →
    leadsTo (.runnerComplete id) s fun t => wroteBytes s.mem t.mem (localOf (capBase l.signal)) (toBytes 8 ((ofBytes (bytesAt s (capBase l.signal) 8) + 1) % 2 ^ 64)) ∧
      Tab.at? t.launches id = none ∧ (∀ j, j ≠ id → Tab.at? t.launches j = Tab.at? s.launches j) ∧ t.sheaves = s.sheaves.filter (fun e => decide (e.2.launch ≠ id)) ∧
      t.net.packets = s.net.packets.filter (fun p => decide (p.launch ≠ id))) ∧
  (∀ (s : State) (sh ln seg : Nat) (sf : Sheaf) (th : Thread) (target source : Word) (l : Launch) (r : Runner), sheaf? s sh = some sf → Tab.at? sf.lanes ln = some th →
    th.hold = some (.travel target source) → th.losses = [] → th.overrun = none → quiet s (coreOf sh) sf.ctx → runnerAt s sf.launch = some (l, r) → segmentOf r target = some seg →
    leadsTo (.travelDepart sh ln) s fun t => t.mem = s.mem ∧ accounts s t ∧ (∀ u, thread? t sh ln = some u → u.status = .departed) ∧ (∀ j k, j ≠ sh → thread? t j k = thread? s j k) ∧
      (∀ k x, k ≠ ln → thread? s sh k = some x → x.status = .live → thread? t sh k = some x) ∧
      ∃ p, t.net = { netEmpty with packets := [p] } ∧ p.launch = sf.launch ∧ p.tpc = target ∧ p.seg = seg ∧ p.tid = th.tid ∧ p.gangid = th.gangid ∧ p.teamid = th.teamid ∧
        p.pts = (coreAt s (coreOf sh)).pts ∧ p.live = th.spr.livehi ++ th.spr.livelo ∧ (∀ k, k < 16 → p.pred.getLsbD k = Tab.get false th.p k) ∧
        (∀ i, i < 64 → Tab.get 0 p.g i = if p.live.getLsbD i = true then gReg th i else 0) ∧ (∀ k, k < 8 → Tab.get nullCap p.c k = cReg th k) ∧ p.g189 = gReg th 189 ∧
        p.g190 = gReg th 190 ∧ p.g191 = gReg th 191 ∧
        p.spr = { sprStart with frm := th.spr.frm, fexc := th.spr.fexc, wrep := th.spr.wrep, wstat := th.spr.wstat, stklim := th.spr.stklim,
                                livelo := th.spr.livelo, livehi := th.spr.livehi }) ∧
  (∀ (s : State) (i : Nat) (p : Packet) (l : Launch) (r : Runner), s.net.packets[i]? = some p → (∀ q ∈ s.net.packets.take i, q.sender = p.sender → q.holder ≠ p.holder) →
    runnerAt s p.launch = some (l, r) →
    (fifoRoom r p.seg p.holder = true → ringHead s r p.seg = ringTail s r p.seg → leadsTo (.packetRelay i) s fun t => ∃ r', runnerBecomes s t p.launch l r' ∧
      fifoAt r' p.seg p.holder = fifoAt r p.seg p.holder ++ [{ p with stamp := s.nextId }] ∧ r' = { r with fifos := r'.fifos } ∧
      t = { s with launches := t.launches, nextId := s.nextId + 1, net := { s.net with packets := s.net.packets.eraseIdx i } }) ∧
    (fifoRoom r p.seg p.holder = false ∨ ringHead s r p.seg ≠ ringTail s r p.seg → leadsTo (.packetRelay i) s fun t =>
      let a := ringEntry r p.seg (ringTail s r p.seg)
      readMem t.mem a 512 = packetBytes p ∧ (∀ k, k < 8 → Tab.get false t.tags (a / 16 + 5 + k) = (Tab.get nullCap p.c k).tag) ∧
        ringTail t r p.seg = (ringTail s r p.seg + 1) % 2 ^ 32 ∧ ringHead t r p.seg = ringHead s r p.seg ∧
        (∀ x, (x < a ∨ a + 512 ≤ x) → (x < ringBase r p.seg + 4 ∨ ringBase r p.seg + 8 ≤ x) → readByte t.mem x = readByte s.mem x) ∧
        t.net = { s.net with packets := s.net.packets.eraseIdx i } ∧ t.launches = s.launches ∧ t.sheaves = s.sheaves)) ∧
  (∀ (s : State) (id seg core : Nat) (l : Launch) (r : Runner), runnerAt s id = some (l, r) → (ctxAt s l.ctx).state = .running → core ∈ (segAt r seg).holders →
    (r.started = true → fifoRoom r seg core = true → ringHead s r seg ≠ ringTail s r seg → leadsTo (.ringToFifo id seg core) s fun t =>
      let a := ringEntry r seg (ringHead s r seg)
      (∃ r', runnerBecomes s t id l r' ∧ r' = { r with fifos := r'.fifos } ∧ fifoAt r' seg core = fifoAt r seg core ++
        [{ packetRead id seg core (readMem s.mem a 512) ((List.range 8).map fun k => Tab.get false s.tags (a / 16 + 5 + k)) with stamp := s.nextId }]) ∧
      ringHead t r seg = (ringHead s r seg + 1) % 2 ^ 32 ∧ ringTail t r seg = ringTail s r seg ∧
      (∀ x, (x < ringBase r seg ∨ ringBase r seg + 4 ≤ x) → readByte t.mem x = readByte s.mem x) ∧ t.net = s.net) ∧
    ∀ (p : Packet) (rest : List Packet) (sh : Nat), fifoAt r seg core = p :: rest →
      (∀ sf, formingFor s core p = some sh → sheaf? s sh = some sf → Tab.at? sf.lanes sf.lanes.length = none → leadsTo (.packetPlace id seg core) s fun t =>
        (∃ u, thread? t sh sf.lanes.length = some u ∧ arrives s l p sf.lanes.length u) ∧ lanesKept s t sh sf.lanes.length ∧
        (coreAt t core).pts = max (coreAt s core).pts (max p.pts l.pts) ∧ ∃ r', runnerBecomes s t id l r' ∧ fifoAt r' seg core = rest) ∧
      (formingFor s core p = none → formingSlot s core l = some sh → sheaf? s sh = none → leadsTo (.packetPlace id seg core) s fun t =>
        (∃ sf u, sheaf? t sh = some sf ∧ sf.forming = some { seg := p.seg, tpc := p.tpc, start := s.cycle, stamps := [p.stamp] } ∧ sf.lanes = [(0, u)] ∧ arrives s l p 0 u ∧ sf.s = [] ∧ sf.j = [] ∧
          sf.launch = id ∧ sf.team = none ∧ sf.ctx = l.ctx ∧ sf.width = l.w) ∧
        (coreAt t core).pts = max (coreAt s core).pts (max p.pts l.pts) ∧ ∃ r', runnerBecomes s t id l r' ∧ fifoAt r' seg core = rest)) ∧
  (∀ (s : State) (sh : Nat) (sf : Sheaf) (f : Forming) (l : Launch) (r : Runner), sheaf? s sh = some sf → sf.forming = some f → runnerAt s sf.launch = some (l, r) →
    (ctxAt s l.ctx).state = .running → 32 ≤ sf.lanes.length ∨ f.start + (if (segAt r f.seg).gather = 0 then 64 else (segAt r f.seg).gather) ≤ s.cycle →
    segmentOf r f.tpc = some f.seg → leadsTo (.sheafRelease sh) s fun t =>
      sheaf? t sh = some { sf with forming := none, wait := 0 } ∧ (∀ j, j ≠ sh → sheaf? t j = sheaf? s j) ∧ t = { s with sheaves := t.sheaves }) ∧
  (∀ (s : State) (core id : Nat) (l : Launch) (r : Runner), core < Config.cores → runnerAt s id = some (l, r) → (∀ g ∈ r.segs, ∀ k ∈ g.holders, k < Config.cores) →
    leadsTo (.depthBroadcast core) s fun t => ∃ r', runnerAt t id = some ({ l with runner := some r' }, r') ∧ r' = { r with depths := r'.depths } ∧
      (∀ i, i < r.segs.length → core ∈ (segAt r i).holders → Tab.get 0 r'.depths (fifoKey i core) = (fifoAt r i core).length) ∧
      ∀ i k, k < Config.cores → (k ≠ core ∨ k ∉ (segAt r i).holders) → Tab.get 0 r'.depths (fifoKey i k) = Tab.get 0 r.depths (fifoKey i k)) ∧
  (∀ (s : State) (id : Nat) (l : Launch) (r : Runner), runnerAt s id = some (l, r) → leadsTo .seasonBoundary s fun t => t.season = s.season + 1 ∧ ∃ r',
    runnerAt t id = some ({ l with runner := some r' }, r') ∧ r'.segs.length = r.segs.length ∧ r'.fifos = r.fifos ∧
      ∀ i, i < r.segs.length → (segAt r' i).holders = nextHolders (segAt r i) ∧ (segAt r' i).pending = none) ∧
  ∀ (s : State) (id seg core : Nat) (l : Launch) (r : Runner), runnerAt s id = some (l, r) → r.started = true → seg < r.segs.length →
    (∀ s1, core ∈ runnerCores r → core ∉ (segAt r seg).holders ++ nextHolders (segAt r seg) ++ (segAt r seg).draining → (nextHolders (segAt r seg)).length < 8 →
      cuttingFits r seg core = true → reserveFifo s id seg core = some s1 → leadsTo (.cuttingAdd id seg core) s fun t => ∃ r', runnerBecomes s t id l r' ∧
        segAt r' seg = { segAt r seg with pending := some (nextHolders (segAt r seg) ++ [core]) } ∧ (∀ i, i ≠ seg → segAt r' i = segAt r i) ∧ t.mem = s.mem) ∧
    (∀ slot k, slot ≠ 0 → (nextHolders (segAt r seg))[slot]? = some k → leadsTo (.cuttingRemove id seg slot) s fun t => ∃ r', runnerBecomes s t id l r' ∧
      segAt r' seg = { segAt r seg with pending := some ((nextHolders (segAt r seg)).eraseIdx slot),
                                        draining := if k ∈ (segAt r seg).holders then (segAt r seg).draining else (segAt r seg).draining ++ [k] } ∧ (∀ i, i ≠ seg → segAt r' i = segAt r i) ∧ t = { s with launches := t.launches })

/-- Stopping, saving and restoring (R225, R392 to R398, R404, R406, R414): a stop request meets a running context alone; a die acknowledges once its units stand; the context
is stopped once eight dies have; it is saved, halted where a halt stopped it, and restored; at a quantum's end the next entry becomes current.
The model's own readings in it: log entries 5, 38, 39, 40 and 54. -/
def Obligations.TenancyComplete : Prop :=
  (∀ (s : State) (k : Nat) (why : StopReason), ((ctxAt s k).state = .running → leadsTo (.stopRequest k why) s fun t =>
      ctxBecomes s t k (stopping (ctxAt s k) why) ∧ t = { s with ctxs := t.ctxs }) ∧
    ((ctxAt s k).state ≠ .running → leadsTo (.stopRequest k why) s fun t => t = s)) ∧
  (∀ (s : State) (k die : Nat), (ctxAt s k).state = .stopping → noRunner s k → s.net = netEmpty → sumsInFlight s k = false →
    (die < 8 → die ∉ (ctxAt s k).acks → s.clusters = [] →
      (∀ e ∈ ctxSheaves s k, dieOfCore (coreOf e.1) = die → ∀ x ∈ e.2.lanes, x.2.word = none ∧ laneStopped s e.1 x.1 x.2 = true) →
      (∀ c ∈ s.cores, dieOfCore c.1 = die → feederStopped s k c.1 = true) → leadsTo (.unitAck k die) s fun t =>
        ctxBecomes s t k { ctxAt s k with acks := die :: (ctxAt s k).acks } ∧ t = { s with ctxs := t.ctxs, cores := t.cores } ∧
        ∀ j, { coreAt t j with accq := [] } = { coreAt s j with accq := [] } ∧ ∀ r, r ∈ (coreAt t j).accq ↔
          r ∈ (coreAt s j).accq ∧ ∀ e ∈ ctxSheaves s k, dieOfCore (coreOf e.1) = die → e.1 ≠ r.sh) ∧
    ((∀ d, d < 8 → d ∈ (ctxAt s k).acks) → leadsTo (.contextStopped k) s fun t =>
      ctxBecomes s t k { ctxAt s k with state := .stopped } ∧ t = { s with ctxs := t.ctxs })) ∧
  (∀ (s : State) (k : Nat), ((ctxAt s k).state = .stopped → leadsTo (.save k) s fun t =>
      ctxBecomes s t k { ctxAt s k with state := .saving, image := some (saveImage s k) } ∧ t.sheaves = s.sheaves.filter (fun e => decide (e.2.ctx ≠ k)) ∧
        t.teams = s.teams.filter (fun e => decide (e.2.ctx ≠ k)) ∧ grantsOf t k = [] ∧ t.mem = s.mem ∧ t.net = s.net) ∧
    ((ctxAt s k).state = .saving → (ctxAt s k).why ≠ some .halt → leadsTo (.save k) s fun t =>
      ctxBecomes s t k { ctxAt s k with state := .saved, why := none, acks := [] } ∧ t = { s with ctxs := t.ctxs }) ∧
    ((ctxAt s k).state = .saving → (ctxAt s k).why = some .halt → leadsTo (.save k) s fun t => ∃ s1,
      ctxBecomes s s1 k { ctxAt s k with state := .halted, why := none, acks := [] } ∧ s1 = { s with ctxs := s1.ctxs } ∧
        let h := (ctxAt s k).haltrec
        t = postEvent s1 (ctxAt s k).func 0x02 (k + h.reason.toNat * 2 ^ 8 + h.cause.toNat * 2 ^ 16) (h.finfo.toNat + h.fpc.toNat * 2 ^ 32))) ∧
  (∀ (s : State) (k : Nat), ((ctxAt s k).state ≠ .restoring → mayRestore s k = true → leadsTo (.restore k) s fun t =>
      let new := shareCores s (ctxAt s k).func
      ctxBecomes s t k { ctxAt s k with state := .restoring, image := (ctxAt s k).image.map (moveImage new) } ∧ grantsOf t k = new ∧ t.mem = s.mem ∧
        t.sheaves = s.sheaves ∧ t.cores = s.cores) ∧
    ((ctxAt s k).state = .restoring → noRunner s k → noAcquire s.sheaves → fnEnabled s (ctxAt s k).func = true → shareCores s (ctxAt s k).func = grantsOf s k →
      ((ctxAt s k).image = none → leadsTo (.restore k) s fun t => ctxBecomes s t k { ctxAt s k with state := .running } ∧ t = { s with ctxs := t.ctxs }) ∧
      ∀ i, (ctxAt s k).image = some i → (i.sheaves.map (·.1)).Nodup → (i.teams.map (·.1)).Nodup → noAcquire i.sheaves → leadsTo (.restore k) s fun t =>
        ctxBecomes s t k { ctxAt s k with state := .running, image := none } ∧ (∀ e ∈ i.sheaves, sheaf? t e.1 = some e.2) ∧ (∀ e ∈ i.teams, Tab.at? t.teams e.1 = some e.2) ∧
          (∀ j, (∀ e ∈ i.sheaves, e.1 ≠ j) → sheaf? t j = sheaf? s j) ∧ t.mem = s.mem) ∧
    ((ctxAt s k).state = .restoring → noRunner s k → noAcquire s.sheaves → (ctxAt s k).image = none →
      fnEnabled s (ctxAt s k).func = false ∨ shareCores s (ctxAt s k).func ≠ grantsOf s k → leadsTo (.restore k) s fun t =>
        ctxBecomes s t k (stopping (ctxAt s k) (if fnEnabled s (ctxAt s k).func = true then .quantum else .vfDisable)) ∧ t = { s with ctxs := t.ctxs })) ∧
  ∀ (s : State) (i : Nat), s.cycle % Config.seasonCycles = 0 → s.host.quantumEnd ≤ s.season → nextEntry s = some i → ((qtList (qtEntry s i)).map (·.1)).Nodup →
    (s.ctxs.map (·.1)).Nodup → leadsTo .quantumChange s fun t =>
      t.host.entry = some i ∧ t.host.quantumEnd = s.season + qtLen (qtEntry s i) ∧
        (∀ x ∈ qtList (qtEntry s i), ∀ l, Tab.at? s.host.shares x.1 = some l → l.length = x.2 → Tab.get [] t.host.shares x.1 = l) ∧
        (∀ f, (∀ x ∈ qtList (qtEntry s i), x.1 ≠ f) → Tab.get [] t.host.shares f = []) ∧
        ∀ k c, Tab.at? s.ctxs k = some c → ctxAt t k =
          if c.state = .running ∧ shareCores t c.func ≠ grantsOf s k then stopping c .quantum else c

/-- Host queues (R407 to R411): a kick writes TAIL and wakes what it has to; a pending queue takes a free slot; the command at HEAD is begun; each command has its effect and is
complete; what R408 lists puts the queue in error.
The model's own readings in it: log entries 5, 41 and 42. -/
def Obligations.QueuesComplete : Prop :=
  (∀ (s : State) (fn q : Nat) (tail : Word) (x : QueueSt), queueAt s q = some x →
    (x.func = fn → x.slot.isSome = true → fnEnabled s fn = true → leadsTo (.queueKick fn q tail) s fun t =>
      queueBecomes s t q { x with tail := tail.toNat } ∧ t = { s with host := t.host }) ∧
    (x.func = fn → x.slot = none ∨ fnEnabled s fn = false → leadsTo (.queueKick fn q tail) s fun t =>
      queueBecomes s t q { x with tail := tail.toNat, pending := true, waited := s.season } ∧ t = { s with host := t.host, agenda := s.agenda ++ [.queueMapping] }) ∧
    (x.func ≠ fn → leadsTo (.queueKick fn q tail) s fun t => t = s)) ∧
  (∀ (s : State) (n k : Nat) (x : QueueSt), queueAt s n = some x → s.host.queues.filter (fun q => mappable s q.2) = [(n, x)] → freeQueueSlot s = some k →
    leadsTo .queueMapping s fun t => queueBecomes s t n { x with slot := some k, pending := false } ∧ t = { s with host := t.host }) ∧
  (∀ (s : State) (q : Nat) (x : QueueSt) (host : List Byte), queueAt s q = some x → mayBegin s x = true → inProgress x = false → x.head ≠ x.tail → migrating s x.ctx = false →
    x.marked = none →
    (∀ b tags, ringCount x ≤ x.size → readCommand s x host = .got b tags → field b 127 1 < 4 → leadsTo (.queueCommandBegin q host) s fun t =>
      queueBecomes s t q { x with head := (x.head + 1) % 2 ^ 32, state := 1, raw := some (b, tags) } ∧ t = { s with host := t.host }) ∧
    (∀ b tags, ringCount x ≤ x.size → readCommand s x host = .got b tags → 4 ≤ field b 127 1 → leadsTo (.queueCommandBegin q host) s fun t =>
      queueFails s t q { x with head := (x.head + 1) % 2 ^ 32 }) ∧
    (ringCount x ≤ x.size → readCommand s x host = .wait → leadsTo (.queueCommandBegin q host) s fun t => t = s) ∧
    (ringCount x ≤ x.size → readCommand s x host = .bad → leadsTo (.queueCommandBegin q host) s fun t => queueFails s t q x) ∧
    (x.size < ringCount x → leadsTo (.queueCommandBegin q host) s fun t => queueFails s t q x) ∧
    let read := checkCap s.fabric.number (ctxAt s x.ctx).colours x.ring accLoad (128 * (x.head % max 1 x.size) : Nat) 128 16
    (∀ e, read = .error e → readCommand s x host = .bad) ∧
    ∀ a, read = .ok a → regionOf s.fabric.number a = .hbm →
      (granulesCheck s (localOf a) 128 (capColour x.ring) = .transit → readCommand s x host = .wait) ∧
      (granulesCheck s (localOf a) 128 (capColour x.ring) = .fail → readCommand s x host = .bad) ∧
      (granulesCheck s (localOf a) 128 (capColour x.ring) = .pass → ∃ tags, readCommand s x host = .got (bytesAt s a 128) tags ∧
        ∀ k, k < 8 → tags.getLsbD k = (rakeFilter s { bits := BitVec.ofNat 128 (ofBytes (readMem s.mem (localOf a + 16 * k) 16)),
                                                      tag := Tab.get false s.tags (localOf a / 16 + k) }).tag)) ∧
  (∀ (s : State) (q : Nat) (x : QueueSt) (b : List Byte) (tags : Byte),
    (queueAtCommand s q x b tags 0 → leadsTo (.queueNop q) s fun t => queueDone s t q x ∧ t = { s with host := t.host }) ∧
    let desc := parseDesc (b.take 127 ++ [0]) ((List.range 8).map fun k => tags.getLsbD k)
    (queueAtCommand s q x b tags 1 → needsMap s x.ctx desc (homeMax s) = false → ∀ l, l.runner = none →
      launchCheck s x.ctx desc (homeMax s) false none = .ok l → leadsTo (.queueLaunch q) s fun t =>
        queueBecomes s t q { x with raw := none, buf := [], launch := some s.nextId } ∧ Tab.at? t.launches s.nextId = some { l with handle := none, queue := some q } ∧
          (∀ j, j ≠ s.nextId → Tab.at? t.launches j = Tab.at? s.launches j) ∧ t.nextId = s.nextId + 1 ∧ t.mem = s.mem ∧ t.sheaves = s.sheaves) ∧
    (queueAtCommand s q x b tags 1 → needsMap s x.ctx desc (homeMax s) = false → ∀ e, launchCheck s x.ctx desc (homeMax s) false none = .error e →
      leadsTo (.queueLaunch q) s fun t => queueFails s t q x)) ∧
  (∀ (s : State) (q : Nat) (x : QueueSt) (b : List Byte) (tags : Byte) (host : DWord) (a : Nat),
    let c := capField16 b ((List.range 8).map fun k => tags.getLsbD k) 0
    let waits := { x with raw := none, waiting := some (c, field b 16 8) }
    queueAtCommand s q x b tags 2 → checkCap s.fabric.number (ctxAt s x.ctx).colours c accLoad 0 8 8 = .ok a →
    (regionOf s.fabric.number a = .hbm → granuleCheck s (localOf a) (capColour c) = .pass → field b 16 8 ≤ ofBytes (bytesAt s a 8) →
      leadsTo (.queueWait q host) s fun t => queueDone s t q x ∧ t = { s with host := t.host }) ∧
    (regionOf s.fabric.number a = .hbm → granuleCheck s (localOf a) (capColour c) = .pass → ofBytes (bytesAt s a 8) < field b 16 8 →
      leadsTo (.queueWait q host) s fun t => queueBecomes s t q waits ∧ t = { s with host := t.host }) ∧
    ∀ m, regionOf s.fabric.number a = .peer → x.answered = none → queueOut s q = false → portFor s (devOf a) a = some m →
      leadsTo (.queueWait q host) s fun t => queueBecomes s t q waits ∧ t.mem = s.mem ∧ t.sheaves = s.sheaves ∧ ∃ r : Req, r.want = .queueWait q (field b 16 8) ∧ r.sh = q ∧
        r.ln = queueLane ∧ r.cap = c ∧ r.addr = a ∧ r.size = 8 ∧ r.port = m ∧ t.net.peerReqs = s.net.peerReqs ++ [r]) ∧
  ∀ (s : State) (q : Nat) (x : QueueSt) (b : List Byte) (tags : Byte),
    let c := capField16 b ((List.range 8).map fun k => tags.getLsbD k) 0
    queueAtCommand s q x b tags 3 →
    (∀ a, checkCap s.fabric.number (ctxAt s x.ctx).colours c (accAtomic true) 0 8 8 = .ok a → regionOf s.fabric.number a = .hbm →
      granuleCheck s (localOf a) (capColour c) = .pass → leadsTo (.queuePost q) s fun t => queueDone s t q x ∧
        wroteBytes s.mem t.mem (localOf a) (toBytes 8 ((ofBytes (bytesAt s a 8) + field b 16 4) % 2 ^ 64)) ∧ t.net = s.net ∧ t.sheaves = s.sheaves) ∧
    ∀ e, checkCap s.fabric.number (ctxAt s x.ctx).colours c (accAtomic true) 0 8 8 = .error e → leadsTo (.queuePost q) s fun t => queueFails s t q x

/-! ### The host's commands and registers, the fabric, boot -/

/-- Admin commands of a tenant (R399 to R404, R412, R416, R439, R441, R442): each has its effect, its status and its result; one that names another function's context is
refused with status 3, and one that the state of its context does not allow with status 4.
The model's own readings in it: log entries 21, 43, 44 and 45. -/
def Obligations.AdminCommandsComplete : Prop :=
  (∀ (s : State) (fn : Nat) (tail : Word), fn < 64 → leadsTo (.adminDb fn tail) s fun t =>
    funcAt t fn = { funcAt s fn with adminTail := tail } ∧ (∀ j, j ≠ fn → funcAt t j = funcAt s j) ∧ t = { s with host := { s.host with funcs := t.host.funcs } }) ∧
  (∀ (s : State) (fn k g n : Nat) (cmd : List Byte) (cols : DWord), adminWaits s fn cmd 0x01 [(8, 8), (16, 4), (20, 2), (24, 8)] → cols = BitVec.ofNat 64 (field cmd 8 8) →
    n = (field cmd 24 8 + 2 ^ 21 - 1) / 2 ^ 21 → cols.extractLsb' 52 12 = 0 →
    (coloursOk (adminTaken s fn) fn cols = false → commandFails (.ctxCreate fn cmd) s fn cmd 0x05) ∧
    (coloursOk (adminTaken s fn) fn cols = true → 2 ^ 21 < n → commandFails (.ctxCreate fn cmd) s fn cmd 0x02) ∧
    (coloursOk (adminTaken s fn) fn cols = true → k < 256 → (ctxAt s k).state = .free → (∀ j, j < k → (ctxAt s j).state ≠ .free) →
      freeGranules s (Config.place s.free) n = some g →
      (∀ m, 1 ≤ m → m ≤ 512 → ∃ h, freeGranules (ownGranules s g n 0) (Config.place (s.free + 1)) m = some h) →
      ∃ m h, 1 ≤ m ∧ commandDoes (.ctxCreate fn cmd) s fn cmd 0x00 k fun a b =>
        ctxBecomes a b k { ctxFree with state := .idle, func := fn, colours := cols, phmargin := BitVec.ofNat 32 (field cmd 16 4), quota := field cmd 20 2,
                                        saveBase := globalOf (g * 2 ^ 21), saveLen := n * 2 ^ 21, c0 := globalsCap h m (col0 cols) } ∧
          (∀ i, i < n → Tab.get 0 b.granules (g + i) = 0x4000#16) ∧ (∀ i, i < m → Tab.get 0 b.granules (h + i) = BitVec.ofNat 16 (0x4000 + col0 cols)) ∧ b.mem = a.mem)) ∧
  (∀ (s : State) (fn k : Nat) (cmd : List Byte) (c : Ctx), k = field cmd 8 1 → c = ctxAt s k →
    (∀ o, adminWaits s fn cmd 0x02 [(8, 1), (16, 4), (20, 2)] → ownCtx s fn k = true → c.state ≠ .halted → c.state ≠ .lost → c.objects.find? (fun o => o.handle = field cmd 16 4) = some o →
      if field cmd 20 2 < o.entries then
        commandDoes (.ctxHandler fn cmd) s fn cmd 0x00 0 (ctxEffect k { c with handler := o.code, hentry := field cmd 20 2 })
      else commandFails (.ctxHandler fn cmd) s fn cmd 0x01) ∧
    (adminWaits s fn cmd 0x02 [(8, 1), (16, 4), (20, 2)] → ownCtx s fn k = false → commandFails (.ctxHandler fn cmd) s fn cmd 0x03) ∧
    (adminWaits s fn cmd 0x02 [(8, 1), (16, 4), (20, 2)] → ownCtx s fn k = true → c.state = .halted ∨ c.state = .lost → commandFails (.ctxHandler fn cmd) s fn cmd 0x04) ∧
    (adminWaits s fn cmd 0x03 [(8, 1)] → ownCtx s fn k = false → commandFails (.ctxDestroy fn cmd) s fn cmd 0x03) ∧
    (adminWaits s fn cmd 0x03 [(8, 1)] → ownCtx s fn k = true → c.state ∈ [.running, .stopping, .stopped, .saving, .restoring] →
      commandFails (.ctxDestroy fn cmd) s fn cmd 0x04) ∧
    (adminWaits s fn cmd 0x03 [(8, 1)] → ownCtx s fn k = true → c.state ∈ [.idle, .saved, .halted, .lost] → (s.granules.map (·.1)).Nodup →
      commandDoes (.ctxDestroy fn cmd) s fn cmd 0x00 0 fun a b => ctxBecomes a b k ctxFree ∧ (∀ n x, queueAt b n = some x → x.ctx ≠ k) ∧
        (∀ e ∈ b.sheaves, e.2.ctx ≠ k) ∧
        ∀ g, let e := Tab.get 0 a.granules g
          (e.extractLsb' 14 2 = 1 → (e.extractLsb' 0 12).toNat ∈ validColours c.colours →
            (∀ d ∈ a.ctxs, d.1 ≠ k → d.2.state ≠ .free → d.2.func = fn → (e.extractLsb' 0 12).toNat ∉ validColours d.2.colours) →
            Tab.get 0 b.granules g = 0 ∧ ∀ x, x / 2 ^ 21 = g → readByte b.mem x = 0) ∧
          (saveGranules c g = false → (e.extractLsb' 0 12).toNat ∉ validColours c.colours → Tab.get 0 b.granules g = e)) ∧
    (adminWaits s fn cmd 0x08 [(8, 1), (9, 1), (10, 1)] → ownCtx s fn k = true → ∃ c', c' = { c with ovf := c.ovf &&& ~~~(BitVec.ofNat 8 (field cmd 9 1)), cnt := c'.cnt } ∧
      (∀ j, Tab.get 0 c'.cnt j = if (field cmd 10 1).testBit j = true then 0 else Tab.get 0 c.cnt j) ∧
      commandDoes (.cntClear fn cmd) s fn cmd 0x00 0 (ctxEffect k c')) ∧
    (adminWaits s fn cmd 0x0B [(8, 1), (16, 8)] → ownCtx s fn k = true → commandDoes (.ctxQuery fn cmd) s fn cmd 0x00 0 (tellsHost (.hostWrite fn (field cmd 16 8) (queryBytes c)))) ∧
    (adminWaits s fn cmd 0x0B [(8, 1), (16, 8)] → ownCtx s fn k = false → commandFails (.ctxQuery fn cmd) s fn cmd 0x03)) ∧
  (∀ (s : State) (fn k : Nat) (cmd file obj : List Byte) (c : Ctx), adminWaits s fn cmd 0x04 [(8, 1), (16, 8), (24, 4), (32, 8), (40, 4)] → k = field cmd 8 1 → c = ctxAt s k →
    ownCtx s fn k = true → c.state ≠ .halted → c.state ≠ .lost → obj = file.take (field cmd 24 4) →
    (∀ st, checkHeader obj = .error st → commandDoes (.objLoad fn cmd file) s fn cmd 0x00 (st * 2 ^ 32) (tellsHost (.hostRead fn (field cmd 16 8) (field cmd 24 4)))) ∧
    ∀ h g p l, checkHeader obj = .ok h → chooseG c (occupied s k c) h = some g →
      ownerPatches c obj g h (variantsOf obj h) (symbolsOf obj h) (relocsOf obj h) 0xFFFF = .ok l →
      freeGranules s (Config.place s.free) ((h.textSize + 2 ^ 21 - 1) / 2 ^ 21) = some p → c.nextHandle < 2 ^ 32 →
      commandDoes (.objLoad fn cmd file) s fn cmd 0x00 c.nextHandle fun a b => ∃ o : Object, ctxBecomes a b k { c with objects := c.objects ++ [o], nextHandle := c.nextHandle + 1 } ∧
        o.handle = c.nextHandle ∧ o.gbase = g ∧ o.lo = g - 16 * h.gotCount ∧ o.hi = g + h.imgSize ∧ o.code = codeCap (p * 2 ^ 21) h.textSize (col0 c.colours) ∧
        ∀ i, i < (h.textSize + 2 ^ 21 - 1) / 2 ^ 21 → Tab.get 0 b.granules (p + i) = BitVec.ofNat 16 (0x4000 + col0 c.colours)) ∧
  (∀ (s : State) (k n : Nat) (o : Object), (ctxAt s k).objects.find? (fun x => x.handle = n) = some o → s.rake.entries.length < 255 → leadsTo (.objectUnload k n) s fun t =>
    ctxBecomes s t k { ctxAt s k with objects := (ctxAt s k).objects.filter fun x => decide (x.handle ≠ n) } ∧ t = { s with ctxs := t.ctxs, rake := t.rake } ∧
      ∃ l, t.rake = { s.rake with entries := s.rake.entries ++ l } ∧ (∀ e ∈ l, e.relocate = false ∧ (e.base = capBase o.code ∧ e.len = capLen o.code ∨
        e.base = (capBase (ctxAt s k).c0 + o.lo) % 2 ^ 52 ∧ e.len = o.hi - o.lo)) ∧ (capLen o.code ≠ 0 → ∃ e ∈ l, e.base = capBase o.code ∧ e.len = capLen o.code)) ∧
  (∀ (s : State) (fn q k n base : Nat) (cmd : List Byte), adminWaits s fn cmd 0x05 [(8, 2), (10, 1), (11, 1), (12, 4), (16, 1), (24, 8)] → q = field cmd 8 2 → k = field cmd 10 1 →
    n = field cmd 12 4 → ownCtx s fn k = true → q < 16384 → field cmd 11 1 ≤ 7 → (∃ j, 1 ≤ j ∧ j ≤ 16 ∧ n = 2 ^ j) → field cmd 16 1 ≤ 1 →
    (queueAt s q = none → ringPlace (ctxAt s k) (field cmd 16 1) (field cmd 24 8) (128 * n) = some base → commandDoes (.qCreate fn cmd) s fn cmd 0x00 0 fun a b =>
      queueBecomes a b q { ring := ringCap base (128 * n) (col0 (ctxAt s k).colours), size := n, head := 0, tail := 0, ctx := k, prio := field cmd 11 1, state := 0, func := fn,
                           waited := 0, pending := false, slot := none, marked := none, raw := none, waiting := none, answered := none, buf := [], launch := none } ∧ b = { a with host := b.host }) ∧
    (∀ x, queueAt s q = some x → commandFails (.qCreate fn cmd) s fn cmd (if x.func = fn then 0x02 else 0x03))) ∧
  (∀ (s : State) (fn : Nat) (cmd : List Byte) (x : QueueSt), adminWaits s fn cmd 0x06 [(8, 2)] → queueAt s (field cmd 8 2) = some x →
    if x.func = fn then commandDoes (.qDestroy fn cmd) s fn cmd 0x00 0 (queueGone fun n _ => n = field cmd 8 2) else commandFails (.qDestroy fn cmd) s fn cmd 0x03) ∧
  (∀ (s : State) (fn key : Nat) (cmd : List Byte), key = field cmd 9 1 * 16 + field cmd 8 1 → field cmd 8 1 ≤ 15 → field cmd 9 1 ≤ 7 →
    (adminWaits s fn cmd 0x07 [(8, 1), (9, 1), (10, 1), (11, 1), (12, 2), (14, 2)] → field cmd 10 1 ≤ 3 → field cmd 11 1 ≤ 1 →
      field cmd 12 2 < monSites (field cmd 10 1) → fnColour (adminTaken s fn) fn (field cmd 14 2) = true →
      (∀ m, Tab.at? s.host.monitors key = some m → m.func = fn) → commandDoes (.monSet fn cmd) s fn cmd 0x00 0 fun a b =>
        Tab.at? b.host.monitors key = some { func := fn, kind := field cmd 10 1, quantity := field cmd 11 1, site := field cmd 12 2, colour := field cmd 14 2, min := 2 ^ 32 - 1, max := 0,
                                             bins := [] } ∧
        (∀ j, j ≠ key → Tab.at? b.host.monitors j = Tab.at? a.host.monitors j) ∧ b = { a with host := { a.host with monitors := b.host.monitors } }) ∧
    (∀ m, adminWaits s fn cmd 0x0A [(8, 1), (9, 1), (16, 8)] → Tab.at? s.host.monitors key = some m →
      if m.func = fn then commandDoes (.monRead fn cmd) s fn cmd 0x00 0
        (tellsHost (.hostWrite fn (field cmd 16 8) (toBytes 4 m.min ++ toBytes 4 m.max ++ (List.range 16).flatMap fun i => toBytes 4 (Tab.get 0 m.bins i))))
      else commandFails (.monRead fn cmd) s fn cmd 0x03)) ∧
  (∀ (s : State) (fn w k o n : Nat) (cmd : List Byte), adminWaits s fn cmd 0x09 [(8, 1), (9, 1), (10, 2), (16, 8), (24, 8)] → w = field cmd 8 1 → k = field cmd 9 1 → o = field cmd 16 8 →
    n = field cmd 24 8 → w ≤ 15 → field cmd 10 2 ≤ 1023 → ownCtx s fn k = true →
    (n = 0 → commandDoes (.aperture fn cmd) s fn cmd 0x00 0 fun a b => Tab.at? (funcAt b fn).windows w = none ∧ (∀ j, j ≠ w → Tab.at? (funcAt b fn).windows j = Tab.at? (funcAt a fn).windows j) ∧
      b = { a with host := { a.host with funcs := b.host.funcs } }) ∧
    (1 ≤ n → n ≤ 2 ^ 32 → o + n ≤ capLen (ctxAt s k).c0 → (capNarrow (ctxAt s k).c0 o n).isSome = true → commandDoes (.aperture fn cmd) s fn cmd 0x00 0 fun a b =>
      Tab.at? (funcAt b fn).windows w = some { ctx := k, off := o, len := n, mask := BitVec.ofNat 10 (field cmd 10 2), refusals := 0 } ∧
      (∀ j, j ≠ w → Tab.at? (funcAt b fn).windows j = Tab.at? (funcAt a fn).windows j) ∧ b = { a with host := { a.host with funcs := b.host.funcs } })) ∧
  ∀ (s : State) (fn : Nat) (cmd : List Byte), adminWaits s fn cmd 0x44 [(8, 32), (40, 8), (48, 4)] →
    if 2464 + 32 * s.boot.log.length ≤ field cmd 48 4 then
      commandDoes (.attest fn cmd) s fn cmd 0x00 0 (tellsHost (.hostWrite fn (field cmd 40 8) (attestBytes s.boot ((cmd.drop 8).take 32))))
    else commandFails (.attest fn cmd) s fn cmd 0x01

/-- Commands of the PF alone (R399, R400, R405, R429, R434): a VF that gives one is refused with status 3; a colour set, an entry of the quantum table and an entry of the
peer colour table are written; a migration begins and has no completion yet.
The model's own readings in it: log entries 45 and 48. -/
def Obligations.PhysicalFunctionCommands : Prop :=
  (∀ (s : State) (fn : Nat) (cmd mask : List Byte) (l : List Nat), fn ≠ 0 →
    (adminWaits s fn cmd 0x40 [(8, 1), (9, 1), (16, 8)] → commandFails (.vfColours fn cmd l) s fn cmd 0x03) ∧
    (adminWaits s fn cmd 0x41 [(8, 1), (16, 16)] → commandFails (.qtabWrite fn cmd) s fn cmd 0x03) ∧
    (adminWaits s fn cmd 0x43 [(8, 2), (16, 8)] → commandFails (.pctWrite fn cmd) s fn cmd 0x03) ∧
    (adminWaits s fn cmd 0x42 [(8, 1), (9, 1), (10, 1), (11, 1), (12, 2), (14, 1), (16, 8), (24, 8), (32, 8), (40, 2)] → commandFails (.ctxMigrate fn cmd mask l) s fn cmd 0x03)) ∧
  (∀ (s : State) (v : Nat) (cmd : List Byte) (l : List Nat), adminWaits s 0 cmd 0x40 [(8, 1), (9, 1), (16, 8)] → v = field cmd 8 1 → 1 ≤ v → v ≤ 63 → field cmd 9 1 ≤ 64 →
    l.length = field cmd 9 1 → l.Nodup → (∀ c ∈ l, 1 ≤ c ∧ c ≤ 4095) →
    (∀ c ∈ s.ctxs, c.2.state = .free ∨ coloursOk (updFunc (adminTaken s 0) v fun f => { f with colours := l }) c.2.func c.2.colours = true) →
    commandDoes (.vfColours 0 cmd l) s 0 cmd 0x00 0 fun a b => funcAt b v = { funcAt a v with colours := l } ∧ (∀ j, j ≠ v → funcAt b j = funcAt a j) ∧
      b = { a with host := { a.host with funcs := b.host.funcs }, net := { a.net with out := a.net.out ++ [.hostRead 0 (field cmd 16 8) (2 * field cmd 9 1)] } }) ∧
  (∀ (s : State) (cmd : List Byte) (e : QWord), adminWaits s 0 cmd 0x41 [(8, 1), (16, 16)] → field cmd 8 1 ≤ 63 →
    e = BitVec.ofNat 128 (field cmd 16 16) &&& ~~~(BitVec.ofNat 128 (127 * 2 ^ 56)) →
    if qtRefused (adminTaken s 0) e = true then commandFails (.qtabWrite 0 cmd) s 0 cmd 0x01
    else commandDoes (.qtabWrite 0 cmd) s 0 cmd 0x00 0 fun a b => qtEntry b (field cmd 8 1) = e ∧ (∀ j, j ≠ field cmd 8 1 → qtEntry b j = qtEntry a j) ∧
      b = { a with host := { a.host with qtab := b.host.qtab } }) ∧
  (∀ (s : State) (cmd : List Byte) (e : DWord), adminWaits s 0 cmd 0x43 [(8, 2), (16, 8)] → field cmd 8 2 ≤ 1023 → e = BitVec.ofNat 64 (field cmd 16 8 % 2 ^ 44) →
    if e.getLsbD 43 = true ∧ e.extractLsb' 10 12 = 0 then commandFails (.pctWrite 0 cmd) s 0 cmd 0x01
    else commandDoes (.pctWrite 0 cmd) s 0 cmd 0x00 0 fun a b => Tab.get 0 b.fabric.pct (field cmd 8 2) = e ∧
      (∀ j, j ≠ field cmd 8 2 → Tab.get 0 b.fabric.pct j = Tab.get 0 a.fabric.pct j) ∧ b = { a with fabric := { a.fabric with pct := b.fabric.pct } }) ∧
  ∀ (s : State) (k base lo : Nat) (cmd mask : List Byte) (l : List Nat),
    adminWaits s 0 cmd 0x42 [(8, 1), (9, 1), (10, 1), (11, 1), (12, 2), (14, 1), (16, 8), (24, 8), (32, 8), (40, 2)] → k = field cmd 8 1 → base = field cmd 16 8 →
    lo = (ctxGranules s (ctxAt s k)).headD 0 → (ctxAt s k).state ∈ [.idle, .running, .stopping, .stopped, .saving, .saved, .restoring] → field cmd 9 1 = 0 → base % 2 ^ 21 = 0 →
    base < 2 ^ 52 → regionOf s.fabric.number base = .hbm →
    (∀ g ∈ ctxGranules s (ctxAt s k), let d := (localOf base / 2 ^ 21 + (g - lo)) * 2 ^ 21 / 2 ^ 39
      field cmd 10 1 ≤ d ∧ d ≤ field cmd 11 1 ∧ d ≤ 7 ∧ Tab.get 0 s.granules (localOf base / 2 ^ 21 + (g - lo)) = 0) →
    leadsTo (.ctxMigrate 0 cmd mask l) s fun t => ∃ m : Migration, t = { adminTaken s 0 with host := { (adminTaken s 0).host with migration := some m } } ∧
      m.fn = 0 ∧ m.cid = field cmd 2 2 ∧ m.ctx = k ∧ m.peer = none ∧ m.base = base ∧ m.pass = none ∧ m.queues = l.take (field cmd 40 2)

/-- The host's registers, windows and events (R411 to R415, R437 to R439): a VF is enabled, disabled, reset; a register keeps what it may keep; an access through a window
is made as the context's, or refused and counted; an event is written to its ring, held, or counted; a counter wraps with one.
The model's own readings in it: log entries 46, 47, 53 and 58. -/
def Obligations.HostRegistersComplete : Prop :=
  (∀ (s : State) (fn : Nat) (code : BitVec 7) (status cid arg data : Nat), let e := eventBytes code.toNat status cid arg data
    let f := funcAt s fn
    (f.held = [] → ringRoom f = true → funcAt (raiseEvent s fn e) fn = { f with evtTail := f.evtTail + 1 } ∧
      (raiseEvent s fn e).net.out = s.net.out ++ [.hostWrite fn (entryAddr f) (((if f.evtDrop = 0 then 0 else 0x80#8) ||| code.setWidth 8) :: e.tail), .msix fn code.toNat]) ∧
    (f.held ≠ [] ∨ ringRoom f = false → f.held.length < 256 → funcAt (raiseEvent s fn e) fn = { f with held := f.held ++ [e] } ∧ (raiseEvent s fn e).net = s.net) ∧
    (256 ≤ f.held.length → funcAt (raiseEvent s fn e) fn = { f with evtDrop := f.evtDrop + 1 } ∧ (raiseEvent s fn e).net = s.net)) ∧
  (∀ (s : State) (v : DWord), (s.ctxs.map (·.1)).Nodup → leadsTo (.vfEn v) s fun t => t = { s with ctxs := t.ctxs, host := { s.host with vfEn := v &&& ~~~1#64, idle := t.host.idle } } ∧
    (∀ f, f ∈ t.host.idle ↔ f ∈ s.host.idle ∨ 1 ≤ f ∧ f < 64 ∧ v.getLsbD f = true ∧ s.host.vfEn.getLsbD f = false) ∧
    ∀ k c, Tab.at? s.ctxs k = some c → ctxAt t k = if c.state = .running ∧ c.func ≠ 0 ∧ v.getLsbD c.func = false then stopping c .vfDisable else c) ∧
  (∀ (s : State) (vf : Nat), 1 ≤ vf → vf ≤ 63 → (s.ctxs.map (·.1)).Nodup → leadsTo (.vfReset vf) s fun t =>
    (∀ k, ctxAt t k = if (ctxAt s k).func = vf ∧ (ctxAt s k).state ≠ .free then ctxFree else ctxAt s k) ∧ (∀ n x, queueAt t n = some x → x.func ≠ vf) ∧
    (∀ m ∈ t.host.monitors, m.2.func ≠ vf) ∧ (∀ p ∈ t.net.stores, capColour p.cap ∉ (funcAt s vf).colours) ∧
    ∀ g, let e := Tab.get 0 s.granules g
      e.extractLsb' 14 2 = 1 → (e.extractLsb' 0 12).toNat ∈ (funcAt s vf).colours → Tab.get 0 t.granules g = 0 ∧ ∀ x, x / 2 ^ 21 = g → readByte t.mem x = 0) ∧
  (∀ (s : State) (fn : Nat), fn < 64 →
    (∀ v, (funcAt s fn).held = [] → leadsTo (.evtHead fn v) s fun t => funcAt t fn = { funcAt s fn with evtHead := v } ∧ t = { s with host := { s.host with funcs := t.host.funcs } }) ∧
    (∀ v, (funcAt s fn).held = [] → leadsTo (.evtCtl fn v) s fun t => funcAt t fn = { funcAt s fn with evtCtl := v &&& 1 } ∧ t = { s with host := { s.host with funcs := t.host.funcs } }) ∧
    leadsTo (.evtDrop fn) s fun t => funcAt t fn = { funcAt s fn with evtDrop := 0 } ∧
      t = { s with host := { s.host with funcs := t.host.funcs }, net := { s.net with out := s.net.out ++ [.barData fn (toBytes 4 (funcAt s fn).evtDrop.toNat)] } }) ∧
  (∀ (s : State) (fn off width : Nat) (v : DWord), fn < 64 → (∀ c ∈ s.ctxs, c.2.state = .running → fnEnabled s c.2.func = true) →
    (off % width ≠ 0 ∨ (width ≠ 4 ∧ width ≠ 8) ∨ off = 0 ∧ width = 4 ∨ off = 0x2000 ∨ off = 0x1000 ∧ width = 8 → leadsTo (.registerWrite fn off width v) s fun t => t = s) ∧
    (off = 0x1000 → width = 4 → leadsTo (.registerWrite fn off width v) s fun t => funcAt t fn = { funcAt s fn with adminTail := v.setWidth 32 }) ∧
    (off = 0x1008 → width = 8 → (funcAt s fn).adminCtl.getLsbD 0 = false → leadsTo (.registerWrite fn off width v) s fun t => funcAt t fn = { funcAt s fn with adminBase := v }) ∧
    (off = 0x1008 → width = 8 → (funcAt s fn).adminCtl.getLsbD 0 = true → leadsTo (.registerWrite fn off width v) s fun t => t = s) ∧
    (off = 0x1018 → width = 4 → leadsTo (.registerWrite fn off width v) s fun t => funcAt t fn = { funcAt s fn with adminCtl := v.setWidth 32 &&& 1 }) ∧
    (off = 0x1100 → width = 8 → leadsTo (.registerWrite fn off width v) s fun t => funcAt t fn = { funcAt s fn with evtBase := v })) ∧
  (∀ (s : State) (fn k : Nat), let f := funcAt s fn
    let b := fun (off width : Nat) => ofBytes (barRead s fn off width).2
    b 0x1000 4 = 0 ∧ b 0 4 = fn % 2 ^ 16 + 0x5358 * 2 ^ 16 ∧ b 0x1008 8 = f.adminBase.toNat ∧ b 0x1014 4 = f.adminHead.toNat ∧ b 0x110C 4 = f.evtTail.toNat ∧
      b 0x1118 4 = f.evtDrop.toNat ∧ (∀ off width, off ≠ 0x1118 → (barRead s fn off width).1 = s) ∧
      (k < 16 → b (0x2000 + 8 * k) 8 = match Tab.at? f.windows k with
        | some w => 1 + w.ctx % 256 * 2 ^ 8 + w.mask.toNat * 2 ^ 16 + w.refusals % 2 ^ 32 * 2 ^ 32
        | none => 0) ∧
      (k < 36 → b (0x4000 + 8 * k) 8 = if fn = 0 then let p := portAt s k
        p.partner % 512 * 2 ^ 31 + p.epoch % 256 * 2 ^ 8 + (if p.sw then 8 else 0) + p.state % 8 else 0)) ∧
  (∀ (s : State) (fn win off a : Nat) (w : Aperture) (c : Cap), fn < 64 → win ≤ 15 →
    (∀ size, 1 ≤ size → size ≤ 4096 →
      (windowCheck s fn win off size accLoad = .ok (a, w, c) → granulesCheck s (localOf a) size (capColour c) = .pass → leadsTo (.apertureRead fn win off size) s fun t =>
        t = { s with slices := t.slices, net := { s.net with out := s.net.out ++ [.barData fn (bytesAt s a size)] } }) ∧
      (windowCheck s fn win off size accLoad = .ok (a, w, c) → granulesCheck s (localOf a) size (capColour c) = .transit → leadsTo (.apertureRead fn win off size) s fun t =>
        t = { s with net := { s.net with held := s.net.held ++ [.window (localOf a / 2 ^ 21) fn win off size none] } }) ∧
      (∀ x, windowCheck s fn win off size accLoad = .error x → leadsTo (.apertureRead fn win off size) s fun t =>
        t.mem = s.mem ∧ t.net.out.getLast? = some (.barData fn (List.replicate size 0xFF)) ∧
          ∀ v, Tab.at? (funcAt s fn).windows win = some v → (Tab.at? (funcAt t fn).windows win).map (·.refusals) = some (min (2 ^ 32 - 1) (v.refusals + 1)))) ∧
    ∀ data, data ≠ [] →
      (windowCheck s fn win off data.length accStore = .ok (a, w, c) → granulesCheck s (localOf a) data.length (capColour c) = .pass → leadsTo (.apertureWrite fn win off data) s fun t =>
        wroteBytes s.mem t.mem (localOf a) data ∧ (∀ g, localOf a < 16 * (g + 1) → 16 * g < localOf a + data.length → Tab.get false t.tags g = false) ∧ t.net = s.net ∧ t.host = s.host) ∧
      (windowCheck s fn win off data.length accStore = .ok (a, w, c) → granulesCheck s (localOf a) data.length (capColour c) = .transit →
        leadsTo (.apertureWrite fn win off data) s fun t =>
          t = { s with net := { s.net with held := s.net.held ++ [.window (localOf a / 2 ^ 21) fn win off data.length (some data)] } }) ∧
      ∀ x, windowCheck s fn win off data.length accStore = .error x → leadsTo (.apertureWrite fn win off data) s fun t => t.mem = s.mem ∧ t.tags = s.tags) ∧
  ∀ (s : State) (ctx k : Nat), k < 8 → 2 ^ 48 ≤ Tab.get 0 (ctxAt s ctx).cnt k → leadsTo (.counterOverflow ctx k) s fun t => ∃ u,
    let c := ctxAt s ctx
    let o := c.ovf ||| BitVec.ofNat 8 (2 ^ k)
    ctxEffect ctx { c with cnt := Tab.put c.cnt k (Tab.get 0 c.cnt k - 2 ^ 48), ovf := o } s u ∧ t = postEvent u c.func 0x04 (ctx + o.toNat * 2 ^ 8) 0

/-- The fabric, the limits of heat, and boot (R425, R427, R428, R430 to R432, R442 to R445): an inbound access has its effect at its home or is refused in its reply; ports
change state, keys and epochs; a hot die stops every context; a boot whose image verifies leaves a usable device.
The model's own readings in it: log entries 14, 49, 50, 51, 52 and 58. -/
def Obligations.FabricAndBoot : Prop :=
  (∀ (s : State) (r : IngressReq), r.op ≠ .sigdone →
    let replies := fun (t : State) (ans : PeerAnswer) => ∃ port, t.net.out = s.net.out ++ [.peerReply port r.peer ans]
    let refusedBy := fun (cause reason : Byte) => leadsTo (.ingressAccess r) s fun t => ∃ port, accounts s t ∧
      t = { s with ctxs := t.ctxs, net := { s.net with out := s.net.out ++ [.peerReply port r.peer { time := 0, data := 0, cap := none, refused := some (cause, reason) }] } }
    let c := (inboundCap s r).1
    let checked := checkCap s.fabric.number (inboundCap s r).2 c (ingressAccess r) r.off (ingressSize r) (accessAlign (ingressSize r))
    (r.cap.codeOk = false → refusedBy causeTag 0x76) ∧ (∀ x, r.cap.codeOk = true → checked = .error x → refusedBy x 0x76) ∧
    ∀ a, r.cap.codeOk = true → checked = .ok a →
      (regionOf s.fabric.number a ≠ .hbm → refusedBy causePerm 0x76) ∧
      (regionOf s.fabric.number a = .hbm →
        (granulesCheck s (localOf a) (ingressSize r) (capColour c) = .fail → refusedBy causeGranule (if ingressStores r.op then 0x75 else 0x74)) ∧
        (granulesCheck s (localOf a) (ingressSize r) (capColour c) = .transit → leadsTo (.ingressAccess r) s fun t => accounts s t ∧
          t = { s with ctxs := t.ctxs, net := { s.net with held := s.net.held ++ [.ingress r] } }) ∧
        (granulesCheck s (localOf a) (ingressSize r) (capColour c) = .pass →
          (r.op = .load → leadsTo (.ingressAccess r) s fun t => ∃ ans, replies t ans ∧ accounts s t ∧
            t = { s with slices := t.slices, ctxs := t.ctxs, net := { s.net with out := t.net.out } } ∧ ans.refused = none ∧ ans.cap = none ∧
            ans.data = BitVec.ofNat 128 (ofBytes (bytesAt s a r.size))) ∧
          (r.op = .loadCap → leadsTo (.ingressAccess r) s fun t => ∃ ans, replies t ans ∧ accounts s t ∧ t.mem = s.mem ∧ ans.refused = none ∧
            let v := rakeFilter s { bits := BitVec.ofNat 128 (ofBytes (bytesAt s a 16)), tag := Tab.get false s.tags (localOf a / 16) }
            ans.cap = some (egress s r.peer v) ∧ (egress s r.peer v).codeOk = (v.tag && capHas v 8)) ∧
          (r.op = .store → 1 ≤ r.size → leadsTo (.ingressAccess r) s fun t => ∃ ans, replies t ans ∧ accounts s t ∧ t.net = { s.net with out := t.net.out } ∧
            ans.refused = none ∧ wroteBytes s.mem t.mem (localOf a) (toBytes r.size r.data.toNat)) ∧
          (r.op = .storeCap → leadsTo (.ingressAccess r) s fun t => ∃ ans, replies t ans ∧ accounts s t ∧ t.net = { s.net with out := t.net.out } ∧ ans.refused = none ∧
            wroteBytes s.mem t.mem (localOf a) (toBytes 16 (arrived s r).bits.toNat) ∧ Tab.get false t.tags (localOf a / 16) = (arrived s r).tag) ∧
          (r.op = .sigwait → leadsTo (.ingressAccess r) s fun t => ∃ ans, replies t ans ∧ accounts s t ∧ t.mem = s.mem ∧ t.net.sigs = s.net.sigs ++ [(localOf a, r)] ∧
            ans.data = BitVec.ofNat 128 (ofBytes (bytesAt s a r.size)))))) ∧
  (∀ (s : State) (port state : Nat), port < 36 → state ≤ 4 → (portAt s port).state ≠ state → (∀ r ∈ s.net.peerReqs, r.port ≠ port) →
    leadsTo (.portStateChange port state) s fun t => ∃ u, portAt u port = { portAt s port with state := state, partner := if state = 0 then 0x1FF else (portAt s port).partner,
                                                                                               sw := (portAt s port).sw && decide (state ≠ 0) } ∧
      (∀ j, j ≠ port → portAt u j = portAt s j) ∧ u = { s with fabric := u.fabric } ∧
      t = if (portAt s port).state = 3 then postEvent u 0 0x09 (port + state * 2 ^ 8) 0 else u) ∧
  (∀ (s : State) (port partner : Nat), port < 36 → partner ≤ 511 →
    ((portAt s port).state = 2 ∨ (portAt s port).state = 3 → leadsTo (.keyAgreement port partner true) s fun t =>
      portAt t port = { state := 3, partner := partner, sw := decide (partner = 0x1FF), epoch := (portAt s port).epoch + 1, grace := some (s.cycle + 1024), crossed := 0 } ∧
      (∀ q, q < 511 → (port ∈ Tab.get [] t.fabric.routes q ↔ if partner = 0x1FF then Config.behindSwitch port q = true else q = partner)) ∧
      t = { s with fabric := t.fabric }) ∧
    ((portAt s port).state = 2 → leadsTo (.keyAgreement port partner false) s fun t => portAt t port = { portAt s port with state := 4 } ∧ t = { s with fabric := t.fabric }) ∧
    leadsTo (.epochGraceEnd port) s fun t => portAt t port = { portAt s port with grace := none } ∧ t = { s with fabric := t.fabric }) ∧
  (∀ (s : State) (die temp : Nat), die < 8 →
    (1150 ≤ temp → (s.ctxs.map (·.1)).Nodup → leadsTo (.thermalStop die temp) s fun t => ∃ u, t = postEvent u 0 0x08 die temp ∧ (dieAt u die).hot = true ∧
      u = { s with ctxs := u.ctxs, dies := u.dies } ∧ ∀ k c, Tab.at? s.ctxs k = some c → ctxAt u k = if c.state = .running then stopping c .thermal else c) ∧
    (temp < 950 → (dieAt s die).hot = true → leadsTo (.thermalResume die temp) s fun t => ∃ u, t = postEvent u 0 0x08 (die + 2 ^ 8) temp ∧ (dieAt u die).hot = false ∧
      (∀ d, d ≠ die → dieAt u d = dieAt s d) ∧ u = { s with dies := u.dies })) ∧
  ∀ (s : State) (b : BootInput), s.boot.done = false →
    (b.bridgesOk = false → leadsTo (.boot b) s fun t => t.boot.done = true ∧ t.boot.usable = false ∧ t = { s with boot := t.boot } ∧ t.boot.measure = s.boot.measure) ∧
    (b.bridgesOk = true → leadsTo (.boot b) s fun t => t.boot.done = true ∧ t.mem = s.mem ∧ t.ctxs = s.ctxs ∧
      if imageOk b.imageA b.sigA = true ∨ imageOk b.imageB b.sigB = true then
        t.boot.usable = true ∧ t.boot.measure = measureStages b.stages ∧ t.boot.log = b.stages ∧
        (∀ p, p < 36 → (portAt t p).state = if portFails s.boot.record b p = true then 4 else 2) ∧
        (∀ d i, d < 8 → d ∈ b.absentStackDies → i < 262144 → Tab.get 0 t.granules (d * 262144 + i) = 0xC000#16) ∧
        (∀ c, c < 64 → (c ∈ t.boot.sixCore ↔ c ∈ b.sixCoreClusters)) ∧ t.fabric.number < 511
      else t = { s with boot := { s.boot with done := true, usable := false } })

/-! ### The machine as a whole -/

/-- The sixteen FP4 codes (R35): their exact values, widened to F32 by UNPK, the negatives of codes 0 to 7 in codes 8 to 15, and code 1 with its negative as the only
subnormals. -/
def Obligations.FourBitFloats : Prop :=
  (∀ x ∈ [(0, 0x00000000), (1, 0x3F000000), (2, 0x3F800000), (3, 0x3FC00000), (4, 0x40000000), (5, 0x40400000), (6, 0x40800000), (7, 0x40C00000)],
    unpackBits 12 2 x.1 = (x.2, 0) ∧ unpackBits 12 2 (x.1 + 8) = (2 ^ 31 + x.2, 0)) ∧
  ∀ v, v < 16 → ((classOf 12 v = 2 ∨ classOf 12 v = 4) ↔ v % 8 = 1) ∧ classOf 12 v ≠ 7 ∧ classOf 12 v ≠ 0 ∧ classOf 12 v ≠ 6

/-- The machine after reset (R259, R264, R271, R311, R401, R425, R438): banks in CACHE mode, tiles never defined, times 0, no context, ports down, registers of the
host 0, and a memory in canonical form.
The model's own readings in it: log entries 4, 7 and 18. -/
def Obligations.ResetState : Prop :=
  let s := State.reset
  (∀ k b, (bankAt (coreAt s k) b).mode = .cache ∧ (bankAt (coreAt s k) b).switching = none) ∧
  (∀ k i, let x := tileAt s k i
    x.state = .empty ∧ x.engine = false ∧ x.flt = false ∧ x.cause = 0 ∧ x.prog = 0 ∧ x.fmt = 0xF#4 ∧ x.rows = 1 ∧ x.pitch = 0 ∧ x.elems = 1 ∧ x.sbase = 0 ∧ x.giv = false) ∧
  (∀ k, (coreAt s k).pts = 0) ∧ (∀ l, homeTimes s l = (0, 0)) ∧ (∀ k, (ctxAt s k).state = .free) ∧ (∀ g, granuleOf s (g * 2 ^ 21) = 0) ∧
  (∀ p, portAt s p = { state := 0, partner := 0x1FF, sw := false, epoch := 0, grace := none, crossed := 0 }) ∧ s.host.vfEn = 0 ∧
  (∀ f, let x := funcAt s f
    x.adminBase = 0 ∧ x.adminSize = 0 ∧ x.adminTail = 0 ∧ x.adminHead = 0 ∧ x.adminCtl = 0 ∧ x.evtBase = 0 ∧ x.evtSize = 0 ∧ x.evtTail = 0 ∧ x.evtHead = 0 ∧
      x.evtCtl = 0 ∧ x.evtDrop = 0) ∧
  (∀ i, qtEntry s i = 0) ∧ s.season = 0 ∧ s.cycle = 0 ∧ Memory.wf s.mem = true

/-- Memory keeps its canonical form (addresses strictly rising, no listed byte zero) in every step, whatever the state holds besides.
The model's own readings in it: log entry 4. -/
def Obligations.StepKeepsMemoryCanonical : Prop :=
  ∀ s t : State, Memory.wf s.mem = true → step s = .next t → Memory.wf t.mem = true

/-- Decoding inverts encoding (R55 to R70): every word of the map that passes the checks of R72 in an allocation decodes to the instruction it encodes, with every field
at every value the checks admit. -/
def Obligations.DecodeEncode : Prop :=
  ∀ (regs preds : Nat) (i : Instr), i.isWord = true → i.wfIn regs preds = true → decode regs preds (encode i) = .ok i

/-- Encoding inverts the reading of fields (R56, R58, R67): no bit of a word is dropped, so two words of the map never read as one instruction. -/
def Obligations.EncodeDecode : Prop :=
  ∀ (w : DWord) (i : Instr), parse w = .ok i → encode i = w

/-- Words of several families decode to the instructions that the spec's worked encodings spell (R55 to R70). -/
def Obligations.DecodeWords : Prop :=
  let r := fun (n : BitVec 8) => ({ reg := n, sel := 0 } : Spec11)
  let all : Guard := { pn := 0, pg := 63 }
  decode 192 48 0x0830608020080182#64 = .ok (.ffma { pn := 0, pg := 3 } { d := 4, a := r 1, b := r 2, c := r 3, t := 2 }) ∧
  decode 192 48 0x1807E10302402029#64 = .ok (.ld all { d := 8, cap := 3, off := 2, sc := 2, disp := 0x10, rh := 0, sz := 2, scope := 2, ord := 1 }) ∧
  decode 192 48 0x8008020438140C00#64 = .ok (.pairWord { op := 0, d := 4, a := 1, b := 2, i := 0 } { op := 14, d := 5, a := 3, b := 0, i := 0 } 0) ∧
  decode 192 48 0x0407E0A2468C0000#64 = .ok (.lih all { d := 5, imm := 0x12346, z := 0, t := 0 }) ∧
  decode 192 48 0x2067E0800C280600#64 =
    .ok (.cnarrow all { d := 4, a := { reg := 0, sel := 3 }, b := { reg := 10, sel := 0 }, c := { reg := 12, sel := 0 }, t := 0 }) ∧
  decode 192 48 0#64 = .error .unknownOpcode

/-- Every step answers a next state: no instruction, and no event, stops the machine.
The model's own readings in it: log entries 5 and 55. -/
def Obligations.StepNeverStops : Prop :=
  ∀ s : State, ∃ t, step s = .next t

/-- A step runs the decoded instruction (R15, R71, R179, R185, R228): where the group first to issue may go on and its word is fetched and decodes to an instruction, the
step is the meaning of that instruction in the state with the group's lanes in focus (and, for a LANE word of a pair, those of the other sheaf), their unissued counts
zero; with no group to issue, the first due step is run; with none due, the clock goes on.
The model's own readings in it: log entries 1, 6 and 60. -/
def Obligations.StepRunsDecoded : Prop :=
  (∀ (s : State) (g : Group) (rest : List Group) (sf : Sheaf) (ln : Nat) (th : Thread) (i : Instr),
    let w := wordAt s th.code th.pc.toNat
    let m := groupMask sf th &&& g.mask
    let other : Option (Nat × Word) := if laneWord w then pairShare s sf th else none
    let pm : Word := (other.map (·.2)).getD 0
    let focus : Group := { sh := g.sh, mask := m, pairMask := pm, rest := if laneWord w then 0 else restMask sf th m, word := if laneWord w then none else th.word }
    let inFocus := fun (x : Nat × Nat) => x.2 < 32 ∧ (x.1 = g.sh ∧ m.getLsbD x.2 = true ∨ other.map (·.1) = some x.1 ∧ pm.getLsbD x.2 = true)
    s.issue = g :: rest → sheaf? s g.sh = some sf → leadOf sf g.mask = some (ln, th) → sf.forming = none → mayGoOn s sf th = true → runBehind sf th = false →
    (∀ x ∈ maskLanes g.sh g.mask, ∀ u, thread? s x.1 x.2 = some u → u.losses = [] ∧ u.overrun = none) → fetchCheck s sf th = none →
    decode sf.allocRegs sf.allocPreds w = .ok i → (laneWord w = true → pairWaits s sf th = false) →
    ∃ u, step s = exec i u ∧ u = { s with issue := rest, sheaves := u.sheaves, ctxs := u.ctxs, focus := some focus } ∧
      (∀ x, inFocus x → thread? u x.1 x.2 = (thread? s x.1 x.2).map fun v => { v with unissued := 0, word := if laneWord w then v.word else none }) ∧
      (∀ x, ¬inFocus x → thread? u x.1 x.2 = thread? s x.1 x.2) ∧
      (∀ j, (sheaf? u j).map (fun x => { x with lanes := [] }) = (sheaf? s j).map fun x => { x with lanes := [] }) ∧
      ∀ k, { ctxAt u k with cnt := [] } = { ctxAt s k with cnt := [] }) ∧
  (∀ (s : State) (d : Due) (rest : List Due), s.issue = [] → s.agenda = d :: rest → step s = runDue d { s with agenda := rest }) ∧
  (∀ s : State, s.issue = [] → s.agenda = [] → step s = tick s) ∧
  ∀ (s : State) (sh ln k : Nat), runDue (.sleepEnd sh ln) s = exec (.sleepEnd sh ln) s ∧ runDue (.homeWrite) s = exec (.homeWrite 0) s ∧
    runDue (.handlerEntry sh ln) s = exec (.handlerEntry sh ln) s ∧ runDue (.ltimeTick k) s = exec (.ltimeTick k) s ∧ runDue .seasonBoundary s = exec .seasonBoundary s ∧
    runDue (.launchComplete k) s = exec (.launchComplete k) s ∧ runDue (.restore k) s = exec (.restore k) s

/-- Where words fault (R15, R25, R27, R71, R72, R148, R380, R388): a rejected word and a fetch that fails park their lane with the codes of their rules; so does an access
that a check of R25 or the granule table refuses; ERET outside handler mode is illegal; a trap in handler mode halts the context.
The model's own readings in it: log entries 14, 22, 23 and 62. -/
def Obligations.FaultsPark : Prop :=
  (∀ (s : State) (g : Group) (rest : List Group) (sf : Sheaf) (ln : Nat) (th : Thread),
    s.issue = g :: rest → ln < 32 → g.mask = BitVec.ofNat 32 (2 ^ ln) → sheaf? s g.sh = some sf → Tab.at? sf.lanes ln = some th → leadOf sf g.mask = some (ln, th) →
    sf.forming = none → mayGoOn s sf th = true → th.run = none → th.park = none → th.losses = [] → th.overrun = none →
    (∀ c, checkCap s.fabric.number (coloursOf s sf) th.code accFetch th.pc.toNat 8 1 = .error c → ∃ t, step s = .next t ∧ t.mem = s.mem ∧ lanesKept s t g.sh ln ∧
      thread? t g.sh ln = some (parkedWith th (freeSub sf) c.toNat 0x70 th.pc.toNat th.pc)) ∧
    ∀ r, fetchCheck s sf th = none → decode sf.allocRegs sf.allocPreds (wordAt s th.code th.pc.toNat) = .error r → ∃ t, step s = .next t ∧ t.mem = s.mem ∧
      lanesKept s t g.sh ln ∧
      thread? t g.sh ln = some (parkedWith { th with unissued := 0 } (freeSub sf) (if r.pair then 2 else 1) r.code.toNat th.pc.toNat th.pc)) ∧
  (∀ (h : Guard) (o : MF),
    let n := szBytes o.sz
    (∀ i ∈ [Instr.ld h o, .ldw h o], ∀ x : Byte,
      aloneDoes i h (fun e => e.th.park = none ∧ checkCap e.s.fabric.number (coloursOf e.s e.sf) (memCap e o) accLoad (memOff e o) n n = .error x)
        (fun e t => parks e.s t e.sh e.ln e.sf e.th x.toNat 0 (faultAddr (memCap e o) (memOff e o) n x) e.th.pc)) ∧
    (∀ x : Byte,
      aloneDoes (.st h o) h (fun e => e.th.park = none ∧ checkCap e.s.fabric.number (coloursOf e.s e.sf) (memCap e o) accStore (memOff e o) n n = .error x)
        (fun e t => parks e.s t e.sh e.ln e.sf e.th x.toNat 0 (faultAddr (memCap e o) (memOff e o) n x) e.th.pc)) ∧
    ∀ a, aloneDoes (.ld h o) h (fun e => e.th.park = none ∧ accessAddr e (memCap e o) accLoad (memOff e o) n n = .ok a ∧ regionOf e.s.fabric.number a = .hbm ∧
        granuleCheck e.s (localOf a) (capColour (memCap e o)) = .fail ∧ quiet e.s (coreOf e.sh) e.sf.ctx ∧ noCopy e (memCap e o) a)
      (fun e t => parks e.s t e.sh e.ln e.sf e.th 0x20 0x74 a e.th.pc ∧ keptBytes e.s.mem t.mem ∧ accounts e.s t)) ∧
  ∀ (h : Guard) (o : SF),
    aloneDoes (.eret h o) h (fun e => e.th.park = none) (fun e t =>
      thread? t e.sh e.ln = some (parkedWith e.th (freeSub e.sf) 1 0x09 e.th.pc.toNat e.th.pc) ∧ lanesKept e.s t e.sh e.ln ∧ t.mem = e.s.mem) ∧
    aloneDoes (.trap h o) h (fun e => inHandler e.th = true ∧ (ctxAt e.s e.sf.ctx).state = .running ∧ (ctxAt e.s e.sf.ctx).why ≠ some .halt) (fun e t =>
      ∃ r : HaltRec, r.reason = 4 ∧ r.cause = 0x51 ∧ r.sheaf = BitVec.ofNat 16 e.sh ∧ r.mask = (((e.th.park.bind fun p => Tab.at? e.sf.subs p.sub).map fun b => b.mask).getD (BitVec.ofNat 32 (2 ^ e.ln))).setWidth 64 ∧ r.fpc = e.th.pc + 8 ∧
        r.finfo = BitVec.ofNat 32 (o.num.toNat * 256) ∧
        ctxBecomes e.s t e.sf.ctx { ctxAt e.s e.sf.ctx with haltrec := r, why := some .halt, state := .stopping, acks := [] } ∧
        becomes e.s t e.sh e.ln { e.th with t := [], hold := none, word := none } ∧
        t = { e.s with ctxs := t.ctxs, agenda := t.agenda, sheaves := t.sheaves, cores := t.cores, focus := none })

/-- Registers by their codes (R13, R60, R62): `zero` reads 0 and discards what is written; the constants read the thread's place; a general register holds what was last
written to it; a run temporary is lost past a word outside a run. -/
def Obligations.RegisterRules : Prop :=
  ∀ (e : Env),
    (readCode e 0xF0 = 0 ∧ readCode e 0xF1 = BitVec.ofNat 32 e.th.lane ∧ readCode e 0xF2 = BitVec.ofNat 32 e.th.tid ∧ readCode e 0xF3 = BitVec.ofNat 32 e.th.gangid ∧
      readCode e 0xF4 = BitVec.ofNat 32 e.th.teamid ∧ (runnerOf e.s e.sf = none → readCode e 0xF5 = BitVec.ofNat 32 e.th.stage) ∧
      ((runnerOf e.s e.sf).isSome = true → readCode e 0xF5 = BitVec.ofNat 32 e.th.seg) ∧ readCode e 0xF7 = BitVec.ofNat 32 e.sf.width) ∧
    (∀ v : Word, applyWr e.th (wrReg 0xF0#8 v) = e.th) ∧
    (∀ (r : BitVec 8) (v : Word), r.toNat < 0xC0 → gReg (retired e.th (wrReg r v)) r.toNat = v ∧
      (∀ k, k ≠ r.toNat → gReg (retired e.th (wrReg r v)) k = gReg e.th k) ∧ (retired e.th (wrReg r v)).p = e.th.p ∧ (retired e.th (wrReg r v)).c = e.th.c) ∧
    (∀ (r : BitVec 8) (v : Word), 0xE0 ≤ r.toNat → r.toNat < 0xF0 → e.th.run = none → (retired e.th (wrReg r v)).t = [] ∧ (retired e.th (wrReg r v)).g = e.th.g) ∧
    ∀ (r : BitVec 8) (v : Word), 0xE0 ≤ r.toNat → r.toNat < 0xF0 → e.th.run.isSome = true → Tab.get 0 (retired e.th (wrReg r v)).t (r.toNat - 0xE0) = v
end

