-- ==== Sys2Proof/Laws/Tab.lean ====
section
/-! SUPPORT. Laws of tables: read after write, canonical form; and of memories as tables of bytes. -/

namespace Sys2Proof

theorem Tab.at?_drop_same {α : Type} (t : Tab α) (x : Nat) : Tab.at? (Tab.drop t x) x = none := by
  induction t with
  | nil => rfl
  | cons e t ih =>
    obtain ⟨k, v⟩ := e
    by_cases h : k = x
    · simp [Tab.drop, h, ih]
    · simp [Tab.drop, Tab.at?, h, ih]

theorem Tab.at?_drop_other {α : Type} (t : Tab α) {x y : Nat} (h : x ≠ y) : Tab.at? (Tab.drop t x) y = Tab.at? t y := by
  induction t with
  | nil => rfl
  | cons e t ih =>
    obtain ⟨k, v⟩ := e
    by_cases hk : k = x
    · subst hk
      simp [Tab.drop, Tab.at?, h, ih]
    · by_cases hy : k = y
      · subst hy; simp [Tab.drop, Tab.at?, hk]
      · simp [Tab.drop, Tab.at?, hk, hy, ih]

theorem Tab.at?_insert_other {α : Type} (t : Tab α) {x y : Nat} (w : α) (h : x ≠ y) : Tab.at? (Tab.insert t x w) y = Tab.at? t y := by
  induction t with
  | nil => simp [Tab.insert, Tab.at?, h]
  | cons e t ih =>
    obtain ⟨k, v⟩ := e
    by_cases hk : k < x
    · by_cases hy : k = y
      · subst hy; simp [Tab.insert, Tab.at?, hk]
      · simp [Tab.insert, Tab.at?, hk, hy, ih]
    · simp [Tab.insert, Tab.at?, hk, h]

theorem Tab.at?_insert_same {α : Type} (t : Tab α) (x : Nat) (w : α) (h : Tab.at? t x = none) : Tab.at? (Tab.insert t x w) x = some w := by
  induction t with
  | nil => simp [Tab.insert, Tab.at?]
  | cons e t ih =>
    obtain ⟨k, v⟩ := e
    by_cases hx : k = x
    · simp [Tab.at?, hx] at h
    · have ht : Tab.at? t x = none := by simpa [Tab.at?, hx] using h
      by_cases hk : k < x
      · simp [Tab.insert, Tab.at?, hk, hx, ih ht]
      · simp [Tab.insert, Tab.at?, hk]

/-- Read after write, the same key. -/
@[simp] theorem Tab.at?_put_same {α : Type} (t : Tab α) (x : Nat) (w : α) : Tab.at? (Tab.put t x w) x = some w :=
  Tab.at?_insert_same _ _ _ (Tab.at?_drop_same t x)

/-- Read after write, another key. -/
theorem Tab.at?_put_other {α : Type} (t : Tab α) {x y : Nat} (w : α) (h : x ≠ y) : Tab.at? (Tab.put t x w) y = Tab.at? t y := by
  rw [Tab.put, Tab.at?_insert_other _ _ h, Tab.at?_drop_other _ h]

@[simp] theorem Tab.get_put_same {α : Type} (d : α) (t : Tab α) (x : Nat) (w : α) : Tab.get d (Tab.put t x w) x = w := by
  simp [Tab.get]

theorem Tab.get_put_other {α : Type} (d : α) (t : Tab α) {x y : Nat} (w : α) (h : x ≠ y) : Tab.get d (Tab.put t x w) y = Tab.get d t y := by
  simp [Tab.get, Tab.at?_put_other _ _ h]

/-- Read after a canonical write, the same key. -/
@[simp] theorem Tab.get_set_same {α : Type} [DecidableEq α] (d : α) (t : Tab α) (x : Nat) (w : α) : Tab.get d (Tab.set d t x w) x = w := by
  by_cases h : w = d
  · simp [Tab.set, h, Tab.get, Tab.at?_drop_same]
  · simp [Tab.set, h]

/-- Read after a canonical write, another key. -/
theorem Tab.get_set_other {α : Type} [DecidableEq α] (d : α) (t : Tab α) {x y : Nat} (w : α) (h : x ≠ y) :
    Tab.get d (Tab.set d t x w) y = Tab.get d t y := by
  by_cases hw : w = d
  · simp [Tab.set, hw, Tab.get, Tab.at?_drop_other _ h]
  · simp [Tab.set, hw, Tab.get_put_other _ _ _ h]

theorem Tab.okFrom_weaken {α : Type} [DecidableEq α] (d : α) (t : Tab α) {a b : Nat} (h : a ≤ b) (ht : Tab.okFrom d (some b) t = true) :
    Tab.okFrom d (some a) t = true := by
  cases t with
  | nil => rfl
  | cons e t =>
    obtain ⟨k, v⟩ := e
    simp only [Tab.okFrom, Bool.and_eq_true, decide_eq_true_eq] at ht ⊢
    exact ⟨⟨by omega, ht.1.2⟩, ht.2⟩

theorem Tab.okFrom_drop {α : Type} [DecidableEq α] (d : α) (t : Tab α) (x : Nat) (b : Option Nat) (ht : Tab.okFrom d b t = true) :
    Tab.okFrom d b (Tab.drop t x) = true := by
  induction t generalizing b with
  | nil => rfl
  | cons e t ih =>
    obtain ⟨k, v⟩ := e
    simp only [Tab.okFrom, Bool.and_eq_true] at ht
    by_cases h : k = x
    · have h1 := ih _ ht.2
      simp only [Tab.drop, h, if_true]
      rw [h] at h1
      cases b with
      | none =>
        cases hd : Tab.drop t x with
        | nil => rfl
        | cons e2 t2 =>
          obtain ⟨k2, v2⟩ := e2
          rw [hd] at h1
          simp only [Tab.okFrom, Bool.and_eq_true] at h1 ⊢
          exact ⟨⟨trivial, h1.1.2⟩, h1.2⟩
      | some a =>
        have ha := ht.1.1
        simp only [decide_eq_true_eq] at ha
        exact Tab.okFrom_weaken d _ (by omega) h1
    · simp only [Tab.drop, h, if_false, Tab.okFrom, Bool.and_eq_true]
      exact ⟨ht.1, ih _ ht.2⟩

theorem Tab.okFrom_insert {α : Type} [DecidableEq α] (d : α) (t : Tab α) (x : Nat) (w : α) (b : Option Nat) (hw : w ≠ d) (hb : ∀ a, b = some a → a < x)
    (hx : Tab.at? t x = none) (ht : Tab.okFrom d b t = true) : Tab.okFrom d b (Tab.insert t x w) = true := by
  induction t generalizing b with
  | nil =>
    cases b with
    | none => simp [Tab.insert, Tab.okFrom, hw]
    | some a => simp [Tab.insert, Tab.okFrom, hw, hb a rfl]
  | cons e t ih =>
    obtain ⟨k, v⟩ := e
    simp only [Tab.okFrom, Bool.and_eq_true] at ht
    have hkx : k ≠ x := fun hk => by simp [Tab.at?, hk] at hx
    have htx : Tab.at? t x = none := by simpa [Tab.at?, hkx] using hx
    by_cases hk : k < x
    · simp only [Tab.insert, hk, if_true, Tab.okFrom, Bool.and_eq_true]
      exact ⟨ht.1, ih (some k) (fun a ha => by cases ha; exact hk) htx ht.2⟩
    · simp only [Tab.insert, hk, if_false, Tab.okFrom, Bool.and_eq_true, decide_eq_true_eq]
      refine ⟨⟨?_, by simpa using hw⟩, ⟨⟨by omega, by simpa using ht.1.2⟩, ht.2⟩⟩
      cases b with
      | none => rfl
      | some a => simpa using hb a rfl

/-- A canonical write keeps the canonical form. -/
theorem Tab.okFrom_set {α : Type} [DecidableEq α] (d : α) (t : Tab α) (x : Nat) (w : α) (ht : Tab.okFrom d none t = true) :
    Tab.okFrom d none (Tab.set d t x w) = true := by
  by_cases h : w = d
  · simpa [Tab.set, h] using Tab.okFrom_drop d t x none ht
  · simpa [Tab.set, h, Tab.put] using
      Tab.okFrom_insert d _ x w none h (fun a ha => by cases ha) (Tab.at?_drop_same t x) (Tab.okFrom_drop d t x none ht)

theorem Tab.okFrom_none_of_some {α : Type} [DecidableEq α] (d : α) (t : Tab α) (a : Nat) (h : Tab.okFrom d (some a) t = true) : Tab.okFrom d none t = true := by
  cases t with
  | nil => rfl
  | cons e t =>
    obtain ⟨k, v⟩ := e
    simp only [Tab.okFrom, Bool.and_eq_true] at h ⊢
    exact ⟨⟨trivial, h.1.2⟩, h.2⟩

/-- Dropping entries by a test keeps the canonical form. -/
theorem Tab.okFrom_filter {α : Type} [DecidableEq α] (d : α) (p : Nat × α → Bool) (t : Tab α) (b : Option Nat) (ht : Tab.okFrom d b t = true) :
    Tab.okFrom d b (t.filter p) = true := by
  induction t generalizing b with
  | nil => rfl
  | cons e t ih =>
    obtain ⟨k, v⟩ := e
    simp only [Tab.okFrom, Bool.and_eq_true] at ht
    by_cases h : p (k, v) = true
    · simp only [List.filter_cons, h, if_true, Tab.okFrom, Bool.and_eq_true]
      exact ⟨ht.1, ih _ ht.2⟩
    · simp only [List.filter_cons, h]
      have h1 := ih _ ht.2
      cases b with
      | none => exact Tab.okFrom_none_of_some d _ k h1
      | some a =>
        have ha := ht.1.1
        simp only [decide_eq_true_eq] at ha
        exact Tab.okFrom_weaken d _ (by omega) h1

namespace Machine

@[simp] theorem readByte_writeByte_same (m : Memory) (a : Nat) (b : Byte) : readByte (writeByte m a b) a = b := Tab.get_set_same _ _ _ _

theorem readByte_writeByte_other (m : Memory) {a x : Nat} (b : Byte) (h : a ≠ x) : readByte (writeByte m a b) x = readByte m x := Tab.get_set_other _ _ _ h

/-- Bytes outside a write read as before. -/
theorem readByte_writeMem_outside (l : List Byte) (m : Memory) (a x : Nat) (h : x < a ∨ a + l.length ≤ x) : readByte (writeMem m a l) x = readByte m x := by
  induction l generalizing m a with
  | nil => rfl
  | cons b t ih =>
    simp only [writeMem]
    rw [ih, readByte_writeByte_other]
    · simp only [List.length_cons] at h; omega
    · simp only [List.length_cons] at h; omega

/-- Bytes of a write read as written. -/
theorem readByte_writeMem_inside (l : List Byte) (m : Memory) (a i : Nat) (h : i < l.length) : readByte (writeMem m a l) (a + i) = l[i] := by
  induction l generalizing m a i with
  | nil => simp at h
  | cons b t ih =>
    cases i with
    | zero =>
      simp only [writeMem, Nat.add_zero, List.getElem_cons_zero]
      rw [readByte_writeMem_outside _ _ _ _ (by omega), readByte_writeByte_same]
    | succ j =>
      have := ih (writeByte m a b) (a + 1) j (by simpa using h)
      simpa [writeMem, Nat.add_assoc, Nat.add_comm 1 j] using this

/-- A byte written keeps the canonical form. -/
theorem wf_writeByte (m : Memory) (a : Nat) (b : Byte) (h : Memory.wf m = true) : Memory.wf (writeByte m a b) = true := Tab.okFrom_set _ _ _ _ h

/-- Bytes written keep the canonical form. -/
theorem wf_writeMem (l : List Byte) (m : Memory) (a : Nat) (h : Memory.wf m = true) : Memory.wf (writeMem m a l) = true := by
  induction l generalizing m a with
  | nil => exact h
  | cons b t ih => exact ih _ _ (wf_writeByte m a b h)

/-- Bytes dropped by a test keep the canonical form. -/
theorem wf_filter (p : Nat × Byte → Bool) (m : Memory) (h : Memory.wf m = true) : Memory.wf (m.filter p) = true := Tab.okFrom_filter _ p m none h

end Machine

end Sys2Proof
end

