-- ==== Sys2Proof/Laws/State.lean ====
section
/-! SUPPORT. What each update of the state leaves alone, field by field; updates of one thread or sheaf leave all but the sheaves. -/

namespace Sys2Proof.Machine

@[simp] theorem setCore_cycle (s : State) (k : Nat) (c : CoreSt) : (setCore s k c).cycle = s.cycle := rfl
@[simp] theorem setCore_season (s : State) (k : Nat) (c : CoreSt) : (setCore s k c).season = s.season := rfl
@[simp] theorem setCore_quadPtr (s : State) (k : Nat) (c : CoreSt) : (setCore s k c).quadPtr = s.quadPtr := rfl
@[simp] theorem setCore_issue (s : State) (k : Nat) (c : CoreSt) : (setCore s k c).issue = s.issue := rfl
@[simp] theorem setCore_focus (s : State) (k : Nat) (c : CoreSt) : (setCore s k c).focus = s.focus := rfl
@[simp] theorem setCore_agenda (s : State) (k : Nat) (c : CoreSt) : (setCore s k c).agenda = s.agenda := rfl
@[simp] theorem setCore_free (s : State) (k : Nat) (c : CoreSt) : (setCore s k c).free = s.free := rfl
@[simp] theorem setCore_nextId (s : State) (k : Nat) (c : CoreSt) : (setCore s k c).nextId = s.nextId := rfl
@[simp] theorem setCore_mem (s : State) (k : Nat) (c : CoreSt) : (setCore s k c).mem = s.mem := rfl
@[simp] theorem setCore_tags (s : State) (k : Nat) (c : CoreSt) : (setCore s k c).tags = s.tags := rfl
@[simp] theorem setCore_granules (s : State) (k : Nat) (c : CoreSt) : (setCore s k c).granules = s.granules := rfl
@[simp] theorem setCore_slices (s : State) (k : Nat) (c : CoreSt) : (setCore s k c).slices = s.slices := rfl
@[simp] theorem setCore_quads (s : State) (k : Nat) (c : CoreSt) : (setCore s k c).quads = s.quads := rfl
@[simp] theorem setCore_sheaves (s : State) (k : Nat) (c : CoreSt) : (setCore s k c).sheaves = s.sheaves := rfl
@[simp] theorem setCore_teams (s : State) (k : Nat) (c : CoreSt) : (setCore s k c).teams = s.teams := rfl
@[simp] theorem setCore_launches (s : State) (k : Nat) (c : CoreSt) : (setCore s k c).launches = s.launches := rfl
@[simp] theorem setCore_ctxs (s : State) (k : Nat) (c : CoreSt) : (setCore s k c).ctxs = s.ctxs := rfl
@[simp] theorem setCore_clusters (s : State) (k : Nat) (c : CoreSt) : (setCore s k c).clusters = s.clusters := rfl
@[simp] theorem setCore_net (s : State) (k : Nat) (c : CoreSt) : (setCore s k c).net = s.net := rfl
@[simp] theorem setCore_rake (s : State) (k : Nat) (c : CoreSt) : (setCore s k c).rake = s.rake := rfl
@[simp] theorem setCore_dies (s : State) (k : Nat) (c : CoreSt) : (setCore s k c).dies = s.dies := rfl
@[simp] theorem setCore_groups (s : State) (k : Nat) (c : CoreSt) : (setCore s k c).groups = s.groups := rfl
@[simp] theorem setCore_fabric (s : State) (k : Nat) (c : CoreSt) : (setCore s k c).fabric = s.fabric := rfl
@[simp] theorem setCore_host (s : State) (k : Nat) (c : CoreSt) : (setCore s k c).host = s.host := rfl
@[simp] theorem setCore_boot (s : State) (k : Nat) (c : CoreSt) : (setCore s k c).boot = s.boot := rfl

@[simp] theorem updCore_cycle (s : State) (k : Nat) (f : CoreSt → CoreSt) : (updCore s k f).cycle = s.cycle := rfl
@[simp] theorem updCore_season (s : State) (k : Nat) (f : CoreSt → CoreSt) : (updCore s k f).season = s.season := rfl
@[simp] theorem updCore_quadPtr (s : State) (k : Nat) (f : CoreSt → CoreSt) : (updCore s k f).quadPtr = s.quadPtr := rfl
@[simp] theorem updCore_issue (s : State) (k : Nat) (f : CoreSt → CoreSt) : (updCore s k f).issue = s.issue := rfl
@[simp] theorem updCore_focus (s : State) (k : Nat) (f : CoreSt → CoreSt) : (updCore s k f).focus = s.focus := rfl
@[simp] theorem updCore_agenda (s : State) (k : Nat) (f : CoreSt → CoreSt) : (updCore s k f).agenda = s.agenda := rfl
@[simp] theorem updCore_free (s : State) (k : Nat) (f : CoreSt → CoreSt) : (updCore s k f).free = s.free := rfl
@[simp] theorem updCore_nextId (s : State) (k : Nat) (f : CoreSt → CoreSt) : (updCore s k f).nextId = s.nextId := rfl
@[simp] theorem updCore_mem (s : State) (k : Nat) (f : CoreSt → CoreSt) : (updCore s k f).mem = s.mem := rfl
@[simp] theorem updCore_tags (s : State) (k : Nat) (f : CoreSt → CoreSt) : (updCore s k f).tags = s.tags := rfl
@[simp] theorem updCore_granules (s : State) (k : Nat) (f : CoreSt → CoreSt) : (updCore s k f).granules = s.granules := rfl
@[simp] theorem updCore_slices (s : State) (k : Nat) (f : CoreSt → CoreSt) : (updCore s k f).slices = s.slices := rfl
@[simp] theorem updCore_quads (s : State) (k : Nat) (f : CoreSt → CoreSt) : (updCore s k f).quads = s.quads := rfl
@[simp] theorem updCore_sheaves (s : State) (k : Nat) (f : CoreSt → CoreSt) : (updCore s k f).sheaves = s.sheaves := rfl
@[simp] theorem updCore_teams (s : State) (k : Nat) (f : CoreSt → CoreSt) : (updCore s k f).teams = s.teams := rfl
@[simp] theorem updCore_launches (s : State) (k : Nat) (f : CoreSt → CoreSt) : (updCore s k f).launches = s.launches := rfl
@[simp] theorem updCore_ctxs (s : State) (k : Nat) (f : CoreSt → CoreSt) : (updCore s k f).ctxs = s.ctxs := rfl
@[simp] theorem updCore_clusters (s : State) (k : Nat) (f : CoreSt → CoreSt) : (updCore s k f).clusters = s.clusters := rfl
@[simp] theorem updCore_net (s : State) (k : Nat) (f : CoreSt → CoreSt) : (updCore s k f).net = s.net := rfl
@[simp] theorem updCore_rake (s : State) (k : Nat) (f : CoreSt → CoreSt) : (updCore s k f).rake = s.rake := rfl
@[simp] theorem updCore_dies (s : State) (k : Nat) (f : CoreSt → CoreSt) : (updCore s k f).dies = s.dies := rfl
@[simp] theorem updCore_groups (s : State) (k : Nat) (f : CoreSt → CoreSt) : (updCore s k f).groups = s.groups := rfl
@[simp] theorem updCore_fabric (s : State) (k : Nat) (f : CoreSt → CoreSt) : (updCore s k f).fabric = s.fabric := rfl
@[simp] theorem updCore_host (s : State) (k : Nat) (f : CoreSt → CoreSt) : (updCore s k f).host = s.host := rfl
@[simp] theorem updCore_boot (s : State) (k : Nat) (f : CoreSt → CoreSt) : (updCore s k f).boot = s.boot := rfl

@[simp] theorem updQuad_cycle (s : State) (q : Nat) (f : Quad → Quad) : (updQuad s q f).cycle = s.cycle := rfl
@[simp] theorem updQuad_season (s : State) (q : Nat) (f : Quad → Quad) : (updQuad s q f).season = s.season := rfl
@[simp] theorem updQuad_quadPtr (s : State) (q : Nat) (f : Quad → Quad) : (updQuad s q f).quadPtr = s.quadPtr := rfl
@[simp] theorem updQuad_issue (s : State) (q : Nat) (f : Quad → Quad) : (updQuad s q f).issue = s.issue := rfl
@[simp] theorem updQuad_focus (s : State) (q : Nat) (f : Quad → Quad) : (updQuad s q f).focus = s.focus := rfl
@[simp] theorem updQuad_agenda (s : State) (q : Nat) (f : Quad → Quad) : (updQuad s q f).agenda = s.agenda := rfl
@[simp] theorem updQuad_free (s : State) (q : Nat) (f : Quad → Quad) : (updQuad s q f).free = s.free := rfl
@[simp] theorem updQuad_nextId (s : State) (q : Nat) (f : Quad → Quad) : (updQuad s q f).nextId = s.nextId := rfl
@[simp] theorem updQuad_mem (s : State) (q : Nat) (f : Quad → Quad) : (updQuad s q f).mem = s.mem := rfl
@[simp] theorem updQuad_tags (s : State) (q : Nat) (f : Quad → Quad) : (updQuad s q f).tags = s.tags := rfl
@[simp] theorem updQuad_granules (s : State) (q : Nat) (f : Quad → Quad) : (updQuad s q f).granules = s.granules := rfl
@[simp] theorem updQuad_slices (s : State) (q : Nat) (f : Quad → Quad) : (updQuad s q f).slices = s.slices := rfl
@[simp] theorem updQuad_cores (s : State) (q : Nat) (f : Quad → Quad) : (updQuad s q f).cores = s.cores := rfl
@[simp] theorem updQuad_sheaves (s : State) (q : Nat) (f : Quad → Quad) : (updQuad s q f).sheaves = s.sheaves := rfl
@[simp] theorem updQuad_teams (s : State) (q : Nat) (f : Quad → Quad) : (updQuad s q f).teams = s.teams := rfl
@[simp] theorem updQuad_launches (s : State) (q : Nat) (f : Quad → Quad) : (updQuad s q f).launches = s.launches := rfl
@[simp] theorem updQuad_ctxs (s : State) (q : Nat) (f : Quad → Quad) : (updQuad s q f).ctxs = s.ctxs := rfl
@[simp] theorem updQuad_clusters (s : State) (q : Nat) (f : Quad → Quad) : (updQuad s q f).clusters = s.clusters := rfl
@[simp] theorem updQuad_net (s : State) (q : Nat) (f : Quad → Quad) : (updQuad s q f).net = s.net := rfl
@[simp] theorem updQuad_rake (s : State) (q : Nat) (f : Quad → Quad) : (updQuad s q f).rake = s.rake := rfl
@[simp] theorem updQuad_dies (s : State) (q : Nat) (f : Quad → Quad) : (updQuad s q f).dies = s.dies := rfl
@[simp] theorem updQuad_groups (s : State) (q : Nat) (f : Quad → Quad) : (updQuad s q f).groups = s.groups := rfl
@[simp] theorem updQuad_fabric (s : State) (q : Nat) (f : Quad → Quad) : (updQuad s q f).fabric = s.fabric := rfl
@[simp] theorem updQuad_host (s : State) (q : Nat) (f : Quad → Quad) : (updQuad s q f).host = s.host := rfl
@[simp] theorem updQuad_boot (s : State) (q : Nat) (f : Quad → Quad) : (updQuad s q f).boot = s.boot := rfl

@[simp] theorem setSheaf_cycle (s : State) (sh : Nat) (x : Sheaf) : (setSheaf s sh x).cycle = s.cycle := rfl
@[simp] theorem setSheaf_season (s : State) (sh : Nat) (x : Sheaf) : (setSheaf s sh x).season = s.season := rfl
@[simp] theorem setSheaf_quadPtr (s : State) (sh : Nat) (x : Sheaf) : (setSheaf s sh x).quadPtr = s.quadPtr := rfl
@[simp] theorem setSheaf_issue (s : State) (sh : Nat) (x : Sheaf) : (setSheaf s sh x).issue = s.issue := rfl
@[simp] theorem setSheaf_focus (s : State) (sh : Nat) (x : Sheaf) : (setSheaf s sh x).focus = s.focus := rfl
@[simp] theorem setSheaf_agenda (s : State) (sh : Nat) (x : Sheaf) : (setSheaf s sh x).agenda = s.agenda := rfl
@[simp] theorem setSheaf_free (s : State) (sh : Nat) (x : Sheaf) : (setSheaf s sh x).free = s.free := rfl
@[simp] theorem setSheaf_nextId (s : State) (sh : Nat) (x : Sheaf) : (setSheaf s sh x).nextId = s.nextId := rfl
@[simp] theorem setSheaf_mem (s : State) (sh : Nat) (x : Sheaf) : (setSheaf s sh x).mem = s.mem := rfl
@[simp] theorem setSheaf_tags (s : State) (sh : Nat) (x : Sheaf) : (setSheaf s sh x).tags = s.tags := rfl
@[simp] theorem setSheaf_granules (s : State) (sh : Nat) (x : Sheaf) : (setSheaf s sh x).granules = s.granules := rfl
@[simp] theorem setSheaf_slices (s : State) (sh : Nat) (x : Sheaf) : (setSheaf s sh x).slices = s.slices := rfl
@[simp] theorem setSheaf_cores (s : State) (sh : Nat) (x : Sheaf) : (setSheaf s sh x).cores = s.cores := rfl
@[simp] theorem setSheaf_quads (s : State) (sh : Nat) (x : Sheaf) : (setSheaf s sh x).quads = s.quads := rfl
@[simp] theorem setSheaf_teams (s : State) (sh : Nat) (x : Sheaf) : (setSheaf s sh x).teams = s.teams := rfl
@[simp] theorem setSheaf_launches (s : State) (sh : Nat) (x : Sheaf) : (setSheaf s sh x).launches = s.launches := rfl
@[simp] theorem setSheaf_ctxs (s : State) (sh : Nat) (x : Sheaf) : (setSheaf s sh x).ctxs = s.ctxs := rfl
@[simp] theorem setSheaf_clusters (s : State) (sh : Nat) (x : Sheaf) : (setSheaf s sh x).clusters = s.clusters := rfl
@[simp] theorem setSheaf_net (s : State) (sh : Nat) (x : Sheaf) : (setSheaf s sh x).net = s.net := rfl
@[simp] theorem setSheaf_rake (s : State) (sh : Nat) (x : Sheaf) : (setSheaf s sh x).rake = s.rake := rfl
@[simp] theorem setSheaf_dies (s : State) (sh : Nat) (x : Sheaf) : (setSheaf s sh x).dies = s.dies := rfl
@[simp] theorem setSheaf_groups (s : State) (sh : Nat) (x : Sheaf) : (setSheaf s sh x).groups = s.groups := rfl
@[simp] theorem setSheaf_fabric (s : State) (sh : Nat) (x : Sheaf) : (setSheaf s sh x).fabric = s.fabric := rfl
@[simp] theorem setSheaf_host (s : State) (sh : Nat) (x : Sheaf) : (setSheaf s sh x).host = s.host := rfl
@[simp] theorem setSheaf_boot (s : State) (sh : Nat) (x : Sheaf) : (setSheaf s sh x).boot = s.boot := rfl

@[simp] theorem updCtx_cycle (s : State) (k : Nat) (f : Ctx → Ctx) : (updCtx s k f).cycle = s.cycle := rfl
@[simp] theorem updCtx_season (s : State) (k : Nat) (f : Ctx → Ctx) : (updCtx s k f).season = s.season := rfl
@[simp] theorem updCtx_quadPtr (s : State) (k : Nat) (f : Ctx → Ctx) : (updCtx s k f).quadPtr = s.quadPtr := rfl
@[simp] theorem updCtx_issue (s : State) (k : Nat) (f : Ctx → Ctx) : (updCtx s k f).issue = s.issue := rfl
@[simp] theorem updCtx_focus (s : State) (k : Nat) (f : Ctx → Ctx) : (updCtx s k f).focus = s.focus := rfl
@[simp] theorem updCtx_agenda (s : State) (k : Nat) (f : Ctx → Ctx) : (updCtx s k f).agenda = s.agenda := rfl
@[simp] theorem updCtx_free (s : State) (k : Nat) (f : Ctx → Ctx) : (updCtx s k f).free = s.free := rfl
@[simp] theorem updCtx_nextId (s : State) (k : Nat) (f : Ctx → Ctx) : (updCtx s k f).nextId = s.nextId := rfl
@[simp] theorem updCtx_mem (s : State) (k : Nat) (f : Ctx → Ctx) : (updCtx s k f).mem = s.mem := rfl
@[simp] theorem updCtx_tags (s : State) (k : Nat) (f : Ctx → Ctx) : (updCtx s k f).tags = s.tags := rfl
@[simp] theorem updCtx_granules (s : State) (k : Nat) (f : Ctx → Ctx) : (updCtx s k f).granules = s.granules := rfl
@[simp] theorem updCtx_slices (s : State) (k : Nat) (f : Ctx → Ctx) : (updCtx s k f).slices = s.slices := rfl
@[simp] theorem updCtx_cores (s : State) (k : Nat) (f : Ctx → Ctx) : (updCtx s k f).cores = s.cores := rfl
@[simp] theorem updCtx_quads (s : State) (k : Nat) (f : Ctx → Ctx) : (updCtx s k f).quads = s.quads := rfl
@[simp] theorem updCtx_sheaves (s : State) (k : Nat) (f : Ctx → Ctx) : (updCtx s k f).sheaves = s.sheaves := rfl
@[simp] theorem updCtx_teams (s : State) (k : Nat) (f : Ctx → Ctx) : (updCtx s k f).teams = s.teams := rfl
@[simp] theorem updCtx_launches (s : State) (k : Nat) (f : Ctx → Ctx) : (updCtx s k f).launches = s.launches := rfl
@[simp] theorem updCtx_clusters (s : State) (k : Nat) (f : Ctx → Ctx) : (updCtx s k f).clusters = s.clusters := rfl
@[simp] theorem updCtx_net (s : State) (k : Nat) (f : Ctx → Ctx) : (updCtx s k f).net = s.net := rfl
@[simp] theorem updCtx_rake (s : State) (k : Nat) (f : Ctx → Ctx) : (updCtx s k f).rake = s.rake := rfl
@[simp] theorem updCtx_dies (s : State) (k : Nat) (f : Ctx → Ctx) : (updCtx s k f).dies = s.dies := rfl
@[simp] theorem updCtx_groups (s : State) (k : Nat) (f : Ctx → Ctx) : (updCtx s k f).groups = s.groups := rfl
@[simp] theorem updCtx_fabric (s : State) (k : Nat) (f : Ctx → Ctx) : (updCtx s k f).fabric = s.fabric := rfl
@[simp] theorem updCtx_host (s : State) (k : Nat) (f : Ctx → Ctx) : (updCtx s k f).host = s.host := rfl
@[simp] theorem updCtx_boot (s : State) (k : Nat) (f : Ctx → Ctx) : (updCtx s k f).boot = s.boot := rfl

@[simp] theorem updNet_cycle (s : State) (f : Net → Net) : (updNet s f).cycle = s.cycle := rfl
@[simp] theorem updNet_season (s : State) (f : Net → Net) : (updNet s f).season = s.season := rfl
@[simp] theorem updNet_quadPtr (s : State) (f : Net → Net) : (updNet s f).quadPtr = s.quadPtr := rfl
@[simp] theorem updNet_issue (s : State) (f : Net → Net) : (updNet s f).issue = s.issue := rfl
@[simp] theorem updNet_focus (s : State) (f : Net → Net) : (updNet s f).focus = s.focus := rfl
@[simp] theorem updNet_agenda (s : State) (f : Net → Net) : (updNet s f).agenda = s.agenda := rfl
@[simp] theorem updNet_free (s : State) (f : Net → Net) : (updNet s f).free = s.free := rfl
@[simp] theorem updNet_nextId (s : State) (f : Net → Net) : (updNet s f).nextId = s.nextId := rfl
@[simp] theorem updNet_mem (s : State) (f : Net → Net) : (updNet s f).mem = s.mem := rfl
@[simp] theorem updNet_tags (s : State) (f : Net → Net) : (updNet s f).tags = s.tags := rfl
@[simp] theorem updNet_granules (s : State) (f : Net → Net) : (updNet s f).granules = s.granules := rfl
@[simp] theorem updNet_slices (s : State) (f : Net → Net) : (updNet s f).slices = s.slices := rfl
@[simp] theorem updNet_cores (s : State) (f : Net → Net) : (updNet s f).cores = s.cores := rfl
@[simp] theorem updNet_quads (s : State) (f : Net → Net) : (updNet s f).quads = s.quads := rfl
@[simp] theorem updNet_sheaves (s : State) (f : Net → Net) : (updNet s f).sheaves = s.sheaves := rfl
@[simp] theorem updNet_teams (s : State) (f : Net → Net) : (updNet s f).teams = s.teams := rfl
@[simp] theorem updNet_launches (s : State) (f : Net → Net) : (updNet s f).launches = s.launches := rfl
@[simp] theorem updNet_ctxs (s : State) (f : Net → Net) : (updNet s f).ctxs = s.ctxs := rfl
@[simp] theorem updNet_clusters (s : State) (f : Net → Net) : (updNet s f).clusters = s.clusters := rfl
@[simp] theorem updNet_rake (s : State) (f : Net → Net) : (updNet s f).rake = s.rake := rfl
@[simp] theorem updNet_dies (s : State) (f : Net → Net) : (updNet s f).dies = s.dies := rfl
@[simp] theorem updNet_groups (s : State) (f : Net → Net) : (updNet s f).groups = s.groups := rfl
@[simp] theorem updNet_fabric (s : State) (f : Net → Net) : (updNet s f).fabric = s.fabric := rfl
@[simp] theorem updNet_host (s : State) (f : Net → Net) : (updNet s f).host = s.host := rfl
@[simp] theorem updNet_boot (s : State) (f : Net → Net) : (updNet s f).boot = s.boot := rfl

@[simp] theorem send_cycle (s : State) (o : Out) : (send s o).cycle = s.cycle := rfl
@[simp] theorem send_season (s : State) (o : Out) : (send s o).season = s.season := rfl
@[simp] theorem send_quadPtr (s : State) (o : Out) : (send s o).quadPtr = s.quadPtr := rfl
@[simp] theorem send_issue (s : State) (o : Out) : (send s o).issue = s.issue := rfl
@[simp] theorem send_focus (s : State) (o : Out) : (send s o).focus = s.focus := rfl
@[simp] theorem send_agenda (s : State) (o : Out) : (send s o).agenda = s.agenda := rfl
@[simp] theorem send_free (s : State) (o : Out) : (send s o).free = s.free := rfl
@[simp] theorem send_nextId (s : State) (o : Out) : (send s o).nextId = s.nextId := rfl
@[simp] theorem send_mem (s : State) (o : Out) : (send s o).mem = s.mem := rfl
@[simp] theorem send_tags (s : State) (o : Out) : (send s o).tags = s.tags := rfl
@[simp] theorem send_granules (s : State) (o : Out) : (send s o).granules = s.granules := rfl
@[simp] theorem send_slices (s : State) (o : Out) : (send s o).slices = s.slices := rfl
@[simp] theorem send_cores (s : State) (o : Out) : (send s o).cores = s.cores := rfl
@[simp] theorem send_quads (s : State) (o : Out) : (send s o).quads = s.quads := rfl
@[simp] theorem send_sheaves (s : State) (o : Out) : (send s o).sheaves = s.sheaves := rfl
@[simp] theorem send_teams (s : State) (o : Out) : (send s o).teams = s.teams := rfl
@[simp] theorem send_launches (s : State) (o : Out) : (send s o).launches = s.launches := rfl
@[simp] theorem send_ctxs (s : State) (o : Out) : (send s o).ctxs = s.ctxs := rfl
@[simp] theorem send_clusters (s : State) (o : Out) : (send s o).clusters = s.clusters := rfl
@[simp] theorem send_rake (s : State) (o : Out) : (send s o).rake = s.rake := rfl
@[simp] theorem send_dies (s : State) (o : Out) : (send s o).dies = s.dies := rfl
@[simp] theorem send_groups (s : State) (o : Out) : (send s o).groups = s.groups := rfl
@[simp] theorem send_fabric (s : State) (o : Out) : (send s o).fabric = s.fabric := rfl
@[simp] theorem send_host (s : State) (o : Out) : (send s o).host = s.host := rfl
@[simp] theorem send_boot (s : State) (o : Out) : (send s o).boot = s.boot := rfl

@[simp] theorem due_cycle (s : State) (i : Due) : (due s i).cycle = s.cycle := rfl
@[simp] theorem due_season (s : State) (i : Due) : (due s i).season = s.season := rfl
@[simp] theorem due_quadPtr (s : State) (i : Due) : (due s i).quadPtr = s.quadPtr := rfl
@[simp] theorem due_issue (s : State) (i : Due) : (due s i).issue = s.issue := rfl
@[simp] theorem due_focus (s : State) (i : Due) : (due s i).focus = s.focus := rfl
@[simp] theorem due_free (s : State) (i : Due) : (due s i).free = s.free := rfl
@[simp] theorem due_nextId (s : State) (i : Due) : (due s i).nextId = s.nextId := rfl
@[simp] theorem due_mem (s : State) (i : Due) : (due s i).mem = s.mem := rfl
@[simp] theorem due_tags (s : State) (i : Due) : (due s i).tags = s.tags := rfl
@[simp] theorem due_granules (s : State) (i : Due) : (due s i).granules = s.granules := rfl
@[simp] theorem due_slices (s : State) (i : Due) : (due s i).slices = s.slices := rfl
@[simp] theorem due_cores (s : State) (i : Due) : (due s i).cores = s.cores := rfl
@[simp] theorem due_quads (s : State) (i : Due) : (due s i).quads = s.quads := rfl
@[simp] theorem due_sheaves (s : State) (i : Due) : (due s i).sheaves = s.sheaves := rfl
@[simp] theorem due_teams (s : State) (i : Due) : (due s i).teams = s.teams := rfl
@[simp] theorem due_launches (s : State) (i : Due) : (due s i).launches = s.launches := rfl
@[simp] theorem due_ctxs (s : State) (i : Due) : (due s i).ctxs = s.ctxs := rfl
@[simp] theorem due_clusters (s : State) (i : Due) : (due s i).clusters = s.clusters := rfl
@[simp] theorem due_net (s : State) (i : Due) : (due s i).net = s.net := rfl
@[simp] theorem due_rake (s : State) (i : Due) : (due s i).rake = s.rake := rfl
@[simp] theorem due_dies (s : State) (i : Due) : (due s i).dies = s.dies := rfl
@[simp] theorem due_groups (s : State) (i : Due) : (due s i).groups = s.groups := rfl
@[simp] theorem due_fabric (s : State) (i : Due) : (due s i).fabric = s.fabric := rfl
@[simp] theorem due_host (s : State) (i : Due) : (due s i).host = s.host := rfl
@[simp] theorem due_boot (s : State) (i : Due) : (due s i).boot = s.boot := rfl

@[simp] theorem bump_cycle (s : State) : (bump s).cycle = s.cycle := rfl
@[simp] theorem bump_season (s : State) : (bump s).season = s.season := rfl
@[simp] theorem bump_quadPtr (s : State) : (bump s).quadPtr = s.quadPtr := rfl
@[simp] theorem bump_issue (s : State) : (bump s).issue = s.issue := rfl
@[simp] theorem bump_focus (s : State) : (bump s).focus = s.focus := rfl
@[simp] theorem bump_agenda (s : State) : (bump s).agenda = s.agenda := rfl
@[simp] theorem bump_nextId (s : State) : (bump s).nextId = s.nextId := rfl
@[simp] theorem bump_mem (s : State) : (bump s).mem = s.mem := rfl
@[simp] theorem bump_tags (s : State) : (bump s).tags = s.tags := rfl
@[simp] theorem bump_granules (s : State) : (bump s).granules = s.granules := rfl
@[simp] theorem bump_slices (s : State) : (bump s).slices = s.slices := rfl
@[simp] theorem bump_cores (s : State) : (bump s).cores = s.cores := rfl
@[simp] theorem bump_quads (s : State) : (bump s).quads = s.quads := rfl
@[simp] theorem bump_sheaves (s : State) : (bump s).sheaves = s.sheaves := rfl
@[simp] theorem bump_teams (s : State) : (bump s).teams = s.teams := rfl
@[simp] theorem bump_launches (s : State) : (bump s).launches = s.launches := rfl
@[simp] theorem bump_ctxs (s : State) : (bump s).ctxs = s.ctxs := rfl
@[simp] theorem bump_clusters (s : State) : (bump s).clusters = s.clusters := rfl
@[simp] theorem bump_net (s : State) : (bump s).net = s.net := rfl
@[simp] theorem bump_rake (s : State) : (bump s).rake = s.rake := rfl
@[simp] theorem bump_dies (s : State) : (bump s).dies = s.dies := rfl
@[simp] theorem bump_groups (s : State) : (bump s).groups = s.groups := rfl
@[simp] theorem bump_fabric (s : State) : (bump s).fabric = s.fabric := rfl
@[simp] theorem bump_host (s : State) : (bump s).host = s.host := rfl
@[simp] theorem bump_boot (s : State) : (bump s).boot = s.boot := rfl

@[simp] theorem updRake_cycle (s : State) (f : Rake → Rake) : (updRake s f).cycle = s.cycle := rfl
@[simp] theorem updRake_season (s : State) (f : Rake → Rake) : (updRake s f).season = s.season := rfl
@[simp] theorem updRake_quadPtr (s : State) (f : Rake → Rake) : (updRake s f).quadPtr = s.quadPtr := rfl
@[simp] theorem updRake_issue (s : State) (f : Rake → Rake) : (updRake s f).issue = s.issue := rfl
@[simp] theorem updRake_focus (s : State) (f : Rake → Rake) : (updRake s f).focus = s.focus := rfl
@[simp] theorem updRake_agenda (s : State) (f : Rake → Rake) : (updRake s f).agenda = s.agenda := rfl
@[simp] theorem updRake_free (s : State) (f : Rake → Rake) : (updRake s f).free = s.free := rfl
@[simp] theorem updRake_nextId (s : State) (f : Rake → Rake) : (updRake s f).nextId = s.nextId := rfl
@[simp] theorem updRake_mem (s : State) (f : Rake → Rake) : (updRake s f).mem = s.mem := rfl
@[simp] theorem updRake_tags (s : State) (f : Rake → Rake) : (updRake s f).tags = s.tags := rfl
@[simp] theorem updRake_granules (s : State) (f : Rake → Rake) : (updRake s f).granules = s.granules := rfl
@[simp] theorem updRake_slices (s : State) (f : Rake → Rake) : (updRake s f).slices = s.slices := rfl
@[simp] theorem updRake_cores (s : State) (f : Rake → Rake) : (updRake s f).cores = s.cores := rfl
@[simp] theorem updRake_quads (s : State) (f : Rake → Rake) : (updRake s f).quads = s.quads := rfl
@[simp] theorem updRake_sheaves (s : State) (f : Rake → Rake) : (updRake s f).sheaves = s.sheaves := rfl
@[simp] theorem updRake_teams (s : State) (f : Rake → Rake) : (updRake s f).teams = s.teams := rfl
@[simp] theorem updRake_launches (s : State) (f : Rake → Rake) : (updRake s f).launches = s.launches := rfl
@[simp] theorem updRake_ctxs (s : State) (f : Rake → Rake) : (updRake s f).ctxs = s.ctxs := rfl
@[simp] theorem updRake_clusters (s : State) (f : Rake → Rake) : (updRake s f).clusters = s.clusters := rfl
@[simp] theorem updRake_net (s : State) (f : Rake → Rake) : (updRake s f).net = s.net := rfl
@[simp] theorem updRake_dies (s : State) (f : Rake → Rake) : (updRake s f).dies = s.dies := rfl
@[simp] theorem updRake_groups (s : State) (f : Rake → Rake) : (updRake s f).groups = s.groups := rfl
@[simp] theorem updRake_fabric (s : State) (f : Rake → Rake) : (updRake s f).fabric = s.fabric := rfl
@[simp] theorem updRake_host (s : State) (f : Rake → Rake) : (updRake s f).host = s.host := rfl
@[simp] theorem updRake_boot (s : State) (f : Rake → Rake) : (updRake s f).boot = s.boot := rfl

@[simp] theorem updCluster_cycle (s : State) (k : Nat) (f : Cluster → Cluster) : (updCluster s k f).cycle = s.cycle := rfl
@[simp] theorem updCluster_season (s : State) (k : Nat) (f : Cluster → Cluster) : (updCluster s k f).season = s.season := rfl
@[simp] theorem updCluster_quadPtr (s : State) (k : Nat) (f : Cluster → Cluster) : (updCluster s k f).quadPtr = s.quadPtr := rfl
@[simp] theorem updCluster_issue (s : State) (k : Nat) (f : Cluster → Cluster) : (updCluster s k f).issue = s.issue := rfl
@[simp] theorem updCluster_focus (s : State) (k : Nat) (f : Cluster → Cluster) : (updCluster s k f).focus = s.focus := rfl
@[simp] theorem updCluster_agenda (s : State) (k : Nat) (f : Cluster → Cluster) : (updCluster s k f).agenda = s.agenda := rfl
@[simp] theorem updCluster_free (s : State) (k : Nat) (f : Cluster → Cluster) : (updCluster s k f).free = s.free := rfl
@[simp] theorem updCluster_nextId (s : State) (k : Nat) (f : Cluster → Cluster) : (updCluster s k f).nextId = s.nextId := rfl
@[simp] theorem updCluster_mem (s : State) (k : Nat) (f : Cluster → Cluster) : (updCluster s k f).mem = s.mem := rfl
@[simp] theorem updCluster_tags (s : State) (k : Nat) (f : Cluster → Cluster) : (updCluster s k f).tags = s.tags := rfl
@[simp] theorem updCluster_granules (s : State) (k : Nat) (f : Cluster → Cluster) : (updCluster s k f).granules = s.granules := rfl
@[simp] theorem updCluster_slices (s : State) (k : Nat) (f : Cluster → Cluster) : (updCluster s k f).slices = s.slices := rfl
@[simp] theorem updCluster_cores (s : State) (k : Nat) (f : Cluster → Cluster) : (updCluster s k f).cores = s.cores := rfl
@[simp] theorem updCluster_quads (s : State) (k : Nat) (f : Cluster → Cluster) : (updCluster s k f).quads = s.quads := rfl
@[simp] theorem updCluster_sheaves (s : State) (k : Nat) (f : Cluster → Cluster) : (updCluster s k f).sheaves = s.sheaves := rfl
@[simp] theorem updCluster_teams (s : State) (k : Nat) (f : Cluster → Cluster) : (updCluster s k f).teams = s.teams := rfl
@[simp] theorem updCluster_launches (s : State) (k : Nat) (f : Cluster → Cluster) : (updCluster s k f).launches = s.launches := rfl
@[simp] theorem updCluster_ctxs (s : State) (k : Nat) (f : Cluster → Cluster) : (updCluster s k f).ctxs = s.ctxs := rfl
@[simp] theorem updCluster_net (s : State) (k : Nat) (f : Cluster → Cluster) : (updCluster s k f).net = s.net := rfl
@[simp] theorem updCluster_rake (s : State) (k : Nat) (f : Cluster → Cluster) : (updCluster s k f).rake = s.rake := rfl
@[simp] theorem updCluster_dies (s : State) (k : Nat) (f : Cluster → Cluster) : (updCluster s k f).dies = s.dies := rfl
@[simp] theorem updCluster_groups (s : State) (k : Nat) (f : Cluster → Cluster) : (updCluster s k f).groups = s.groups := rfl
@[simp] theorem updCluster_fabric (s : State) (k : Nat) (f : Cluster → Cluster) : (updCluster s k f).fabric = s.fabric := rfl
@[simp] theorem updCluster_host (s : State) (k : Nat) (f : Cluster → Cluster) : (updCluster s k f).host = s.host := rfl
@[simp] theorem updCluster_boot (s : State) (k : Nat) (f : Cluster → Cluster) : (updCluster s k f).boot = s.boot := rfl

@[simp] theorem updDie_cycle (s : State) (k : Nat) (f : Die → Die) : (updDie s k f).cycle = s.cycle := rfl
@[simp] theorem updDie_season (s : State) (k : Nat) (f : Die → Die) : (updDie s k f).season = s.season := rfl
@[simp] theorem updDie_quadPtr (s : State) (k : Nat) (f : Die → Die) : (updDie s k f).quadPtr = s.quadPtr := rfl
@[simp] theorem updDie_issue (s : State) (k : Nat) (f : Die → Die) : (updDie s k f).issue = s.issue := rfl
@[simp] theorem updDie_focus (s : State) (k : Nat) (f : Die → Die) : (updDie s k f).focus = s.focus := rfl
@[simp] theorem updDie_agenda (s : State) (k : Nat) (f : Die → Die) : (updDie s k f).agenda = s.agenda := rfl
@[simp] theorem updDie_free (s : State) (k : Nat) (f : Die → Die) : (updDie s k f).free = s.free := rfl
@[simp] theorem updDie_nextId (s : State) (k : Nat) (f : Die → Die) : (updDie s k f).nextId = s.nextId := rfl
@[simp] theorem updDie_mem (s : State) (k : Nat) (f : Die → Die) : (updDie s k f).mem = s.mem := rfl
@[simp] theorem updDie_tags (s : State) (k : Nat) (f : Die → Die) : (updDie s k f).tags = s.tags := rfl
@[simp] theorem updDie_granules (s : State) (k : Nat) (f : Die → Die) : (updDie s k f).granules = s.granules := rfl
@[simp] theorem updDie_slices (s : State) (k : Nat) (f : Die → Die) : (updDie s k f).slices = s.slices := rfl
@[simp] theorem updDie_cores (s : State) (k : Nat) (f : Die → Die) : (updDie s k f).cores = s.cores := rfl
@[simp] theorem updDie_quads (s : State) (k : Nat) (f : Die → Die) : (updDie s k f).quads = s.quads := rfl
@[simp] theorem updDie_sheaves (s : State) (k : Nat) (f : Die → Die) : (updDie s k f).sheaves = s.sheaves := rfl
@[simp] theorem updDie_teams (s : State) (k : Nat) (f : Die → Die) : (updDie s k f).teams = s.teams := rfl
@[simp] theorem updDie_launches (s : State) (k : Nat) (f : Die → Die) : (updDie s k f).launches = s.launches := rfl
@[simp] theorem updDie_ctxs (s : State) (k : Nat) (f : Die → Die) : (updDie s k f).ctxs = s.ctxs := rfl
@[simp] theorem updDie_clusters (s : State) (k : Nat) (f : Die → Die) : (updDie s k f).clusters = s.clusters := rfl
@[simp] theorem updDie_net (s : State) (k : Nat) (f : Die → Die) : (updDie s k f).net = s.net := rfl
@[simp] theorem updDie_rake (s : State) (k : Nat) (f : Die → Die) : (updDie s k f).rake = s.rake := rfl
@[simp] theorem updDie_groups (s : State) (k : Nat) (f : Die → Die) : (updDie s k f).groups = s.groups := rfl
@[simp] theorem updDie_fabric (s : State) (k : Nat) (f : Die → Die) : (updDie s k f).fabric = s.fabric := rfl
@[simp] theorem updDie_host (s : State) (k : Nat) (f : Die → Die) : (updDie s k f).host = s.host := rfl
@[simp] theorem updDie_boot (s : State) (k : Nat) (f : Die → Die) : (updDie s k f).boot = s.boot := rfl

@[simp] theorem raisePts_cycle (s : State) (k t : Nat) : (raisePts s k t).cycle = s.cycle := rfl
@[simp] theorem raisePts_season (s : State) (k t : Nat) : (raisePts s k t).season = s.season := rfl
@[simp] theorem raisePts_quadPtr (s : State) (k t : Nat) : (raisePts s k t).quadPtr = s.quadPtr := rfl
@[simp] theorem raisePts_issue (s : State) (k t : Nat) : (raisePts s k t).issue = s.issue := rfl
@[simp] theorem raisePts_focus (s : State) (k t : Nat) : (raisePts s k t).focus = s.focus := rfl
@[simp] theorem raisePts_agenda (s : State) (k t : Nat) : (raisePts s k t).agenda = s.agenda := rfl
@[simp] theorem raisePts_free (s : State) (k t : Nat) : (raisePts s k t).free = s.free := rfl
@[simp] theorem raisePts_nextId (s : State) (k t : Nat) : (raisePts s k t).nextId = s.nextId := rfl
@[simp] theorem raisePts_mem (s : State) (k t : Nat) : (raisePts s k t).mem = s.mem := rfl
@[simp] theorem raisePts_tags (s : State) (k t : Nat) : (raisePts s k t).tags = s.tags := rfl
@[simp] theorem raisePts_granules (s : State) (k t : Nat) : (raisePts s k t).granules = s.granules := rfl
@[simp] theorem raisePts_slices (s : State) (k t : Nat) : (raisePts s k t).slices = s.slices := rfl
@[simp] theorem raisePts_quads (s : State) (k t : Nat) : (raisePts s k t).quads = s.quads := rfl
@[simp] theorem raisePts_sheaves (s : State) (k t : Nat) : (raisePts s k t).sheaves = s.sheaves := rfl
@[simp] theorem raisePts_teams (s : State) (k t : Nat) : (raisePts s k t).teams = s.teams := rfl
@[simp] theorem raisePts_launches (s : State) (k t : Nat) : (raisePts s k t).launches = s.launches := rfl
@[simp] theorem raisePts_ctxs (s : State) (k t : Nat) : (raisePts s k t).ctxs = s.ctxs := rfl
@[simp] theorem raisePts_clusters (s : State) (k t : Nat) : (raisePts s k t).clusters = s.clusters := rfl
@[simp] theorem raisePts_net (s : State) (k t : Nat) : (raisePts s k t).net = s.net := rfl
@[simp] theorem raisePts_rake (s : State) (k t : Nat) : (raisePts s k t).rake = s.rake := rfl
@[simp] theorem raisePts_dies (s : State) (k t : Nat) : (raisePts s k t).dies = s.dies := rfl
@[simp] theorem raisePts_groups (s : State) (k t : Nat) : (raisePts s k t).groups = s.groups := rfl
@[simp] theorem raisePts_fabric (s : State) (k t : Nat) : (raisePts s k t).fabric = s.fabric := rfl
@[simp] theorem raisePts_host (s : State) (k t : Nat) : (raisePts s k t).host = s.host := rfl
@[simp] theorem raisePts_boot (s : State) (k t : Nat) : (raisePts s k t).boot = s.boot := rfl

@[simp] theorem updSheaf_cycle (s : State) (sh : Nat) (f : Sheaf → Sheaf) : (updSheaf s sh f).cycle = s.cycle := by unfold updSheaf; split <;> rfl
@[simp] theorem updSheaf_season (s : State) (sh : Nat) (f : Sheaf → Sheaf) : (updSheaf s sh f).season = s.season := by unfold updSheaf; split <;> rfl
@[simp] theorem updSheaf_quadPtr (s : State) (sh : Nat) (f : Sheaf → Sheaf) : (updSheaf s sh f).quadPtr = s.quadPtr := by unfold updSheaf; split <;> rfl
@[simp] theorem updSheaf_issue (s : State) (sh : Nat) (f : Sheaf → Sheaf) : (updSheaf s sh f).issue = s.issue := by unfold updSheaf; split <;> rfl
@[simp] theorem updSheaf_focus (s : State) (sh : Nat) (f : Sheaf → Sheaf) : (updSheaf s sh f).focus = s.focus := by unfold updSheaf; split <;> rfl
@[simp] theorem updSheaf_agenda (s : State) (sh : Nat) (f : Sheaf → Sheaf) : (updSheaf s sh f).agenda = s.agenda := by unfold updSheaf; split <;> rfl
@[simp] theorem updSheaf_free (s : State) (sh : Nat) (f : Sheaf → Sheaf) : (updSheaf s sh f).free = s.free := by unfold updSheaf; split <;> rfl
@[simp] theorem updSheaf_nextId (s : State) (sh : Nat) (f : Sheaf → Sheaf) : (updSheaf s sh f).nextId = s.nextId := by unfold updSheaf; split <;> rfl
@[simp] theorem updSheaf_mem (s : State) (sh : Nat) (f : Sheaf → Sheaf) : (updSheaf s sh f).mem = s.mem := by unfold updSheaf; split <;> rfl
@[simp] theorem updSheaf_tags (s : State) (sh : Nat) (f : Sheaf → Sheaf) : (updSheaf s sh f).tags = s.tags := by unfold updSheaf; split <;> rfl
@[simp] theorem updSheaf_granules (s : State) (sh : Nat) (f : Sheaf → Sheaf) : (updSheaf s sh f).granules = s.granules := by unfold updSheaf; split <;> rfl
@[simp] theorem updSheaf_slices (s : State) (sh : Nat) (f : Sheaf → Sheaf) : (updSheaf s sh f).slices = s.slices := by unfold updSheaf; split <;> rfl
@[simp] theorem updSheaf_cores (s : State) (sh : Nat) (f : Sheaf → Sheaf) : (updSheaf s sh f).cores = s.cores := by unfold updSheaf; split <;> rfl
@[simp] theorem updSheaf_quads (s : State) (sh : Nat) (f : Sheaf → Sheaf) : (updSheaf s sh f).quads = s.quads := by unfold updSheaf; split <;> rfl
@[simp] theorem updSheaf_teams (s : State) (sh : Nat) (f : Sheaf → Sheaf) : (updSheaf s sh f).teams = s.teams := by unfold updSheaf; split <;> rfl
@[simp] theorem updSheaf_launches (s : State) (sh : Nat) (f : Sheaf → Sheaf) : (updSheaf s sh f).launches = s.launches := by unfold updSheaf; split <;> rfl
@[simp] theorem updSheaf_ctxs (s : State) (sh : Nat) (f : Sheaf → Sheaf) : (updSheaf s sh f).ctxs = s.ctxs := by unfold updSheaf; split <;> rfl
@[simp] theorem updSheaf_clusters (s : State) (sh : Nat) (f : Sheaf → Sheaf) : (updSheaf s sh f).clusters = s.clusters := by unfold updSheaf; split <;> rfl
@[simp] theorem updSheaf_net (s : State) (sh : Nat) (f : Sheaf → Sheaf) : (updSheaf s sh f).net = s.net := by unfold updSheaf; split <;> rfl
@[simp] theorem updSheaf_rake (s : State) (sh : Nat) (f : Sheaf → Sheaf) : (updSheaf s sh f).rake = s.rake := by unfold updSheaf; split <;> rfl
@[simp] theorem updSheaf_dies (s : State) (sh : Nat) (f : Sheaf → Sheaf) : (updSheaf s sh f).dies = s.dies := by unfold updSheaf; split <;> rfl
@[simp] theorem updSheaf_groups (s : State) (sh : Nat) (f : Sheaf → Sheaf) : (updSheaf s sh f).groups = s.groups := by unfold updSheaf; split <;> rfl
@[simp] theorem updSheaf_fabric (s : State) (sh : Nat) (f : Sheaf → Sheaf) : (updSheaf s sh f).fabric = s.fabric := by unfold updSheaf; split <;> rfl
@[simp] theorem updSheaf_host (s : State) (sh : Nat) (f : Sheaf → Sheaf) : (updSheaf s sh f).host = s.host := by unfold updSheaf; split <;> rfl
@[simp] theorem updSheaf_boot (s : State) (sh : Nat) (f : Sheaf → Sheaf) : (updSheaf s sh f).boot = s.boot := by unfold updSheaf; split <;> rfl

@[simp] theorem updTeam_cycle (s : State) (k : Nat) (f : Team → Team) : (updTeam s k f).cycle = s.cycle := by unfold updTeam; split <;> rfl
@[simp] theorem updTeam_season (s : State) (k : Nat) (f : Team → Team) : (updTeam s k f).season = s.season := by unfold updTeam; split <;> rfl
@[simp] theorem updTeam_quadPtr (s : State) (k : Nat) (f : Team → Team) : (updTeam s k f).quadPtr = s.quadPtr := by unfold updTeam; split <;> rfl
@[simp] theorem updTeam_issue (s : State) (k : Nat) (f : Team → Team) : (updTeam s k f).issue = s.issue := by unfold updTeam; split <;> rfl
@[simp] theorem updTeam_focus (s : State) (k : Nat) (f : Team → Team) : (updTeam s k f).focus = s.focus := by unfold updTeam; split <;> rfl
@[simp] theorem updTeam_agenda (s : State) (k : Nat) (f : Team → Team) : (updTeam s k f).agenda = s.agenda := by unfold updTeam; split <;> rfl
@[simp] theorem updTeam_free (s : State) (k : Nat) (f : Team → Team) : (updTeam s k f).free = s.free := by unfold updTeam; split <;> rfl
@[simp] theorem updTeam_nextId (s : State) (k : Nat) (f : Team → Team) : (updTeam s k f).nextId = s.nextId := by unfold updTeam; split <;> rfl
@[simp] theorem updTeam_mem (s : State) (k : Nat) (f : Team → Team) : (updTeam s k f).mem = s.mem := by unfold updTeam; split <;> rfl
@[simp] theorem updTeam_tags (s : State) (k : Nat) (f : Team → Team) : (updTeam s k f).tags = s.tags := by unfold updTeam; split <;> rfl
@[simp] theorem updTeam_granules (s : State) (k : Nat) (f : Team → Team) : (updTeam s k f).granules = s.granules := by unfold updTeam; split <;> rfl
@[simp] theorem updTeam_slices (s : State) (k : Nat) (f : Team → Team) : (updTeam s k f).slices = s.slices := by unfold updTeam; split <;> rfl
@[simp] theorem updTeam_cores (s : State) (k : Nat) (f : Team → Team) : (updTeam s k f).cores = s.cores := by unfold updTeam; split <;> rfl
@[simp] theorem updTeam_quads (s : State) (k : Nat) (f : Team → Team) : (updTeam s k f).quads = s.quads := by unfold updTeam; split <;> rfl
@[simp] theorem updTeam_sheaves (s : State) (k : Nat) (f : Team → Team) : (updTeam s k f).sheaves = s.sheaves := by unfold updTeam; split <;> rfl
@[simp] theorem updTeam_launches (s : State) (k : Nat) (f : Team → Team) : (updTeam s k f).launches = s.launches := by unfold updTeam; split <;> rfl
@[simp] theorem updTeam_ctxs (s : State) (k : Nat) (f : Team → Team) : (updTeam s k f).ctxs = s.ctxs := by unfold updTeam; split <;> rfl
@[simp] theorem updTeam_clusters (s : State) (k : Nat) (f : Team → Team) : (updTeam s k f).clusters = s.clusters := by unfold updTeam; split <;> rfl
@[simp] theorem updTeam_net (s : State) (k : Nat) (f : Team → Team) : (updTeam s k f).net = s.net := by unfold updTeam; split <;> rfl
@[simp] theorem updTeam_rake (s : State) (k : Nat) (f : Team → Team) : (updTeam s k f).rake = s.rake := by unfold updTeam; split <;> rfl
@[simp] theorem updTeam_dies (s : State) (k : Nat) (f : Team → Team) : (updTeam s k f).dies = s.dies := by unfold updTeam; split <;> rfl
@[simp] theorem updTeam_groups (s : State) (k : Nat) (f : Team → Team) : (updTeam s k f).groups = s.groups := by unfold updTeam; split <;> rfl
@[simp] theorem updTeam_fabric (s : State) (k : Nat) (f : Team → Team) : (updTeam s k f).fabric = s.fabric := by unfold updTeam; split <;> rfl
@[simp] theorem updTeam_host (s : State) (k : Nat) (f : Team → Team) : (updTeam s k f).host = s.host := by unfold updTeam; split <;> rfl
@[simp] theorem updTeam_boot (s : State) (k : Nat) (f : Team → Team) : (updTeam s k f).boot = s.boot := by unfold updTeam; split <;> rfl

@[simp] theorem updThread_cycle (s : State) (sh ln : Nat) (f : Thread → Thread) : (updThread s sh ln f).cycle = s.cycle := updSheaf_cycle s sh _
@[simp] theorem updThread_season (s : State) (sh ln : Nat) (f : Thread → Thread) : (updThread s sh ln f).season = s.season := updSheaf_season s sh _
@[simp] theorem updThread_quadPtr (s : State) (sh ln : Nat) (f : Thread → Thread) : (updThread s sh ln f).quadPtr = s.quadPtr := updSheaf_quadPtr s sh _
@[simp] theorem updThread_issue (s : State) (sh ln : Nat) (f : Thread → Thread) : (updThread s sh ln f).issue = s.issue := updSheaf_issue s sh _
@[simp] theorem updThread_focus (s : State) (sh ln : Nat) (f : Thread → Thread) : (updThread s sh ln f).focus = s.focus := updSheaf_focus s sh _
@[simp] theorem updThread_agenda (s : State) (sh ln : Nat) (f : Thread → Thread) : (updThread s sh ln f).agenda = s.agenda := updSheaf_agenda s sh _
@[simp] theorem updThread_free (s : State) (sh ln : Nat) (f : Thread → Thread) : (updThread s sh ln f).free = s.free := updSheaf_free s sh _
@[simp] theorem updThread_nextId (s : State) (sh ln : Nat) (f : Thread → Thread) : (updThread s sh ln f).nextId = s.nextId := updSheaf_nextId s sh _
@[simp] theorem updThread_mem (s : State) (sh ln : Nat) (f : Thread → Thread) : (updThread s sh ln f).mem = s.mem := updSheaf_mem s sh _
@[simp] theorem updThread_tags (s : State) (sh ln : Nat) (f : Thread → Thread) : (updThread s sh ln f).tags = s.tags := updSheaf_tags s sh _
@[simp] theorem updThread_granules (s : State) (sh ln : Nat) (f : Thread → Thread) : (updThread s sh ln f).granules = s.granules := updSheaf_granules s sh _
@[simp] theorem updThread_slices (s : State) (sh ln : Nat) (f : Thread → Thread) : (updThread s sh ln f).slices = s.slices := updSheaf_slices s sh _
@[simp] theorem updThread_cores (s : State) (sh ln : Nat) (f : Thread → Thread) : (updThread s sh ln f).cores = s.cores := updSheaf_cores s sh _
@[simp] theorem updThread_quads (s : State) (sh ln : Nat) (f : Thread → Thread) : (updThread s sh ln f).quads = s.quads := updSheaf_quads s sh _
@[simp] theorem updThread_teams (s : State) (sh ln : Nat) (f : Thread → Thread) : (updThread s sh ln f).teams = s.teams := updSheaf_teams s sh _
@[simp] theorem updThread_launches (s : State) (sh ln : Nat) (f : Thread → Thread) : (updThread s sh ln f).launches = s.launches := updSheaf_launches s sh _
@[simp] theorem updThread_ctxs (s : State) (sh ln : Nat) (f : Thread → Thread) : (updThread s sh ln f).ctxs = s.ctxs := updSheaf_ctxs s sh _
@[simp] theorem updThread_clusters (s : State) (sh ln : Nat) (f : Thread → Thread) : (updThread s sh ln f).clusters = s.clusters := updSheaf_clusters s sh _
@[simp] theorem updThread_net (s : State) (sh ln : Nat) (f : Thread → Thread) : (updThread s sh ln f).net = s.net := updSheaf_net s sh _
@[simp] theorem updThread_rake (s : State) (sh ln : Nat) (f : Thread → Thread) : (updThread s sh ln f).rake = s.rake := updSheaf_rake s sh _
@[simp] theorem updThread_dies (s : State) (sh ln : Nat) (f : Thread → Thread) : (updThread s sh ln f).dies = s.dies := updSheaf_dies s sh _
@[simp] theorem updThread_groups (s : State) (sh ln : Nat) (f : Thread → Thread) : (updThread s sh ln f).groups = s.groups := updSheaf_groups s sh _
@[simp] theorem updThread_fabric (s : State) (sh ln : Nat) (f : Thread → Thread) : (updThread s sh ln f).fabric = s.fabric := updSheaf_fabric s sh _
@[simp] theorem updThread_host (s : State) (sh ln : Nat) (f : Thread → Thread) : (updThread s sh ln f).host = s.host := updSheaf_host s sh _
@[simp] theorem updThread_boot (s : State) (sh ln : Nat) (f : Thread → Thread) : (updThread s sh ln f).boot = s.boot := updSheaf_boot s sh _

/-- Read after write of a core. -/
@[simp] theorem coreAt_updCore_same (s : State) (k : Nat) (f : CoreSt → CoreSt) : coreAt (updCore s k f) k = f (coreAt s k) := Tab.get_put_same _ _ _ _
theorem coreAt_updCore_other (s : State) {k j : Nat} (f : CoreSt → CoreSt) (h : k ≠ j) : coreAt (updCore s k f) j = coreAt s j := Tab.get_put_other _ _ _ h

/-- Read after write of a context. -/
@[simp] theorem ctxAt_updCtx_same (s : State) (k : Nat) (f : Ctx → Ctx) : ctxAt (updCtx s k f) k = f (ctxAt s k) := Tab.get_put_same _ _ _ _
theorem ctxAt_updCtx_other (s : State) {k j : Nat} (f : Ctx → Ctx) (h : k ≠ j) : ctxAt (updCtx s k f) j = ctxAt s j := Tab.get_put_other _ _ _ h

/-- Read after write of a quadrant. -/
@[simp] theorem quadAt_updQuad_same (s : State) (k : Nat) (f : Quad → Quad) : quadAt (updQuad s k f) k = f (quadAt s k) := Tab.get_put_same _ _ _ _
theorem quadAt_updQuad_other (s : State) {k j : Nat} (f : Quad → Quad) (h : k ≠ j) : quadAt (updQuad s k f) j = quadAt s j := Tab.get_put_other _ _ _ h

/-- Read after write of a cluster unit. -/
@[simp] theorem clusterAt_updCluster_same (s : State) (k : Nat) (f : Cluster → Cluster) : clusterAt (updCluster s k f) k = f (clusterAt s k) := Tab.get_put_same _ _ _ _

/-- Read after write of a die. -/
@[simp] theorem dieAt_updDie_same (s : State) (k : Nat) (f : Die → Die) : dieAt (updDie s k f) k = f (dieAt s k) := Tab.get_put_same _ _ _ _

/-- Read after write of a sheaf. -/
@[simp] theorem sheaf?_setSheaf_same (s : State) (sh : Nat) (x : Sheaf) : sheaf? (setSheaf s sh x) sh = some x := Tab.at?_put_same _ _ _
theorem sheaf?_setSheaf_other (s : State) {sh k : Nat} (x : Sheaf) (h : sh ≠ k) : sheaf? (setSheaf s sh x) k = sheaf? s k := Tab.at?_put_other _ _ h

theorem sheaf?_updSheaf (s : State) (sh k : Nat) (f : Sheaf → Sheaf) :
    sheaf? (updSheaf s sh f) k = if sh = k then (sheaf? s k).map f else sheaf? s k := by
  unfold updSheaf
  by_cases h : sh = k
  · subst h
    cases hs : sheaf? s sh with
    | none => simp [hs]
    | some x => simp
  · cases hs : sheaf? s sh with
    | none => simp [h]
    | some x => simp [h, sheaf?_setSheaf_other]

/-- The lanes of a sheaf with one lane changed. -/
def laneChange (ln : Nat) (f : Thread → Thread) (x : Sheaf) : Sheaf :=
  match Tab.at? x.lanes ln with
  | some th => { x with lanes := Tab.put x.lanes ln (f th) }
  | none => x

theorem updThread_eq (s : State) (sh ln : Nat) (f : Thread → Thread) : updThread s sh ln f = updSheaf s sh (laneChange ln f) := rfl

theorem laneChange_launch (ln : Nat) (f : Thread → Thread) (x : Sheaf) : (laneChange ln f x).launch = x.launch := by unfold laneChange; split <;> rfl

theorem laneChange_skel (ln : Nat) (f : Thread → Thread) (x : Sheaf) : { laneChange ln f x with lanes := [] } = { x with lanes := [] } := by
  unfold laneChange; split <;> rfl

theorem laneChange_at (ln k : Nat) (f : Thread → Thread) (x : Sheaf) :
    Tab.at? (laneChange ln f x).lanes k = if ln = k then (Tab.at? x.lanes k).map f else Tab.at? x.lanes k := by
  unfold laneChange
  by_cases h : ln = k
  · subst h
    cases hs : Tab.at? x.lanes ln with
    | none => simp [hs]
    | some th => simp
  · cases hs : Tab.at? x.lanes ln with
    | none => simp [h]
    | some th => simp [h, Tab.at?_put_other]

theorem thread?_updThread (s : State) (sh ln sh' ln' : Nat) (f : Thread → Thread) :
    thread? (updThread s sh ln f) sh' ln' = if sh = sh' ∧ ln = ln' then (thread? s sh' ln').map f else thread? s sh' ln' := by
  unfold thread?
  rw [updThread_eq, sheaf?_updSheaf]
  by_cases h : sh = sh'
  · subst h
    cases hs : sheaf? s sh with
    | none => simp
    | some x => simp [laneChange_at]
  · simp [h]

/-- Read after write of a thread. -/
theorem thread?_updThread_same (s : State) (sh ln : Nat) (f : Thread → Thread) : thread? (updThread s sh ln f) sh ln = (thread? s sh ln).map f := by
  simp [thread?_updThread]

theorem thread?_updThread_other (s : State) {sh ln sh' ln' : Nat} (f : Thread → Thread) (h : (sh, ln) ≠ (sh', ln')) :
    thread? (updThread s sh ln f) sh' ln' = thread? s sh' ln' := by
  rw [thread?_updThread]
  split
  · next hh => exact absurd (by rw [hh.1, hh.2]) h
  · rfl

end Sys2Proof.Machine
end

