-- ==== Sys2Proof/Laws/Lanes.lean ====
section
/-! SUPPORT. How the results of a word take effect: what `settle` asks of the state, and what `finishWord` does where no lane faults. -/

namespace Sys2Proof.Machine

/-- Two states whose sheaves differ in their lanes only. -/
def sameBut (s t : State) : Prop :=
  ({ t with sheaves := [] } : State) = { s with sheaves := [] } ∧
    ∀ sh, (sheaf? t sh).map (fun sf => { sf with lanes := [] }) = (sheaf? s sh).map (fun sf => { sf with lanes := [] })

theorem sameBut_refl (s : State) : sameBut s s := ⟨rfl, fun _ => rfl⟩

/-- A state that differs in its sheaves only. -/
theorem eq_of_blank {s t : State} (h : ({ t with sheaves := [] } : State) = { s with sheaves := [] }) : t = { s with sheaves := t.sheaves } :=
  congrArg (fun u : State => { u with sheaves := t.sheaves }) h

theorem sameBut_launch {s t : State} (h : sameBut s t) {sh : Nat} {sf sf' : Sheaf} (h1 : sheaf? s sh = some sf) (h2 : sheaf? t sh = some sf') :
    runnerOf t sf' = runnerOf s sf := by
  have hl : t.launches = s.launches := by have := congrArg State.launches h.1; exact this
  have hs := h.2 sh
  rw [h1, h2] at hs
  simp only [Option.map_some, Option.some.injEq] at hs
  have : sf'.launch = sf.launch := by have := congrArg Sheaf.launch hs; exact this
  unfold runnerOf
  rw [hl, this]

/-- `settle` looks at the state and the sheaf only for the runner launch. -/
theorem settle_congr {s t : State} {sf sf' : Sheaf} (h : runnerOf t sf' = runnerOf s sf) (th : Thread) (r : LaneRes) : settle t sf' th r = settle s sf th r := by
  have hm : ∀ th target hop, moveTo t sf' th target hop = moveTo s sf th target hop := by
    intro th target hop
    unfold moveTo
    rw [h]
  cases r <;> simp only [settle, hm]

/-- A result that only changes its own lane's thread. -/
def LaneRes.quietly : LaneRes → Bool
  | .exit => false
  | .repair => false
  | .fault _ => false
  | _ => true

theorem sameBut_updThread {s t : State} (h : sameBut s t) (sh ln : Nat) (f : Thread → Thread) : sameBut s (updThread t sh ln f) := by
  constructor
  · rw [← h.1]
    unfold updThread updSheaf
    split <;> rfl
  · intro k
    rw [updThread_eq, sheaf?_updSheaf]
    rw [← h.2 k]
    split
    · cases sheaf? t k with
      | none => rfl
      | some x => simp [laneChange_skel]
    · rfl

/-- Lanes whose words settle without a fault: every thread is as it settles, and nothing else changes. -/
theorem foldl_settleStep (s : State) (rs : List ((Nat × Nat) × LaneRes)) (new : Nat × Nat → Thread) (hn : (rs.map (·.1)).Nodup)
    (hr : ∀ x ∈ rs, x.2.quietly = true ∧ ∃ sf th, sheaf? s x.1.1 = some sf ∧ thread? s x.1.1 x.1.2 = some th ∧ settle s sf th x.2 = .ok (new x.1))
    (t : State) (ht : sameBut s t) (hs : ∀ x ∈ rs, thread? t x.1.1 x.1.2 = thread? s x.1.1 x.1.2) :
    (rs.foldl settleStep (t, [])).2 = [] ∧ sameBut s (rs.foldl settleStep (t, [])).1 ∧
      (∀ x ∈ rs, thread? (rs.foldl settleStep (t, [])).1 x.1.1 x.1.2 = some (new x.1)) ∧
      ∀ y, y ∉ rs.map (·.1) → thread? (rs.foldl settleStep (t, [])).1 y.1 y.2 = thread? t y.1 y.2 := by
  induction rs generalizing t with
  | nil => exact ⟨rfl, ht, by simp, fun _ _ => rfl⟩
  | cons x rs ih =>
    obtain ⟨hq, sf, th, h1, h2, h3⟩ := hr x (by simp)
    have hx : thread? t x.1.1 x.1.2 = some th := by rw [hs x (by simp), h2]
    have hsf : ∃ sf', sheaf? t x.1.1 = some sf' := by
      unfold thread? at hx
      cases hh : sheaf? t x.1.1 with
      | none => rw [hh] at hx; simp at hx
      | some v => exact ⟨v, rfl⟩
    obtain ⟨sf', hsf'⟩ := hsf
    have hset : settle t sf' th x.2 = .ok (new x.1) := by rw [settle_congr (sameBut_launch ht h1 hsf'), h3]
    have hstep : settleStep (t, []) x = (updThread t x.1.1 x.1.2 fun _ => new x.1, []) := by
      obtain ⟨y, r⟩ := x
      unfold settleStep
      simp only [hsf', hx, hset]
      clear hset h3 hs hr ih hn
      cases r <;> first | rfl | cases hq
    simp only [List.foldl_cons, hstep]
    simp only [List.map_cons, List.nodup_cons] at hn
    have ho : ∀ y : Nat × Nat, x.1 ≠ y → thread? (updThread t x.1.1 x.1.2 fun _ => new x.1) y.1 y.2 = thread? t y.1 y.2 := by
      intro y hy
      exact thread?_updThread_other _ _ (by simpa [Prod.ext_iff] using hy)
    have := ih hn.2 (fun y hy => hr y (List.mem_cons_of_mem _ hy)) (updThread t x.1.1 x.1.2 fun _ => new x.1) (sameBut_updThread ht _ _ _)
      (fun y hy => by
        rw [ho y.1 (fun hc => hn.1 (by rw [hc]; exact List.mem_map_of_mem hy)), hs y (List.mem_cons_of_mem _ hy)])
    refine ⟨this.1, this.2.1, ?_, ?_⟩
    · intro y hy
      rcases List.mem_cons.1 hy with rfl | hy
      · rw [this.2.2.2 _ hn.1, thread?_updThread_same, hx]; rfl
      · exact this.2.2.1 y hy
    · intro y hy
      simp only [List.map_cons, List.mem_cons, not_or] at hy
      rw [this.2.2.2 y hy.2, ho y (fun h => hy.1 h.symm)]

/-- Writing scalars changes one sheaf's s-registers only. -/
theorem writeScalars_frame (s : State) (sh : Nat) (w : Wr) :
    writeScalars s sh w = { s with sheaves := (writeScalars s sh w).sheaves } ∧
      (∀ x : Nat × Nat, thread? (writeScalars s sh w) x.1 x.2 = thread? s x.1 x.2) ∧
      ∀ k, (sheaf? (writeScalars s sh w) k).map (fun sf => { sf with s := [] }) = (sheaf? s k).map (fun sf => { sf with s := [] }) := by
  unfold writeScalars
  cases hs : sheaf? s sh with
  | none => exact ⟨rfl, fun _ => rfl, fun _ => rfl⟩
  | some sf =>
    simp only
    refine ⟨?_, ?_, ?_⟩
    · unfold updSheaf; split <;> rfl
    · intro x
      unfold thread?
      rw [sheaf?_updSheaf]
      generalize (if sf.half = 1 then sf.pair.getD sh else sh) = home
      by_cases hk : home = x.1 <;> simp only [hk, if_true, if_false] <;> cases sheaf? s x.1 <;> rfl
    · intro k
      rw [sheaf?_updSheaf]
      generalize (if sf.half = 1 then sf.pair.getD sh else sh) = home
      by_cases hk : home = k <;> simp only [hk, if_true, if_false] <;> cases sheaf? s k <;> rfl

/-- Writing no s-register leaves every sheaf's s-registers alone. -/
theorem writeScalars_none (s : State) (sh : Nat) (w : Wr) (h : ∀ r ∈ w.regs, ¬(0xC0 ≤ r.1 ∧ r.1 < 0xE0)) (k : Nat) :
    (sheaf? (writeScalars s sh w) k).map (fun sf => sf.s) = (sheaf? s k).map (fun sf => sf.s) := by
  unfold writeScalars
  have hw : (w.regs.filter fun y => decide (0xC0 ≤ y.1 ∧ y.1 < 0xE0)) = [] := List.filter_eq_nil_iff.2 fun r hr => by simpa using h r hr
  cases hs : sheaf? s sh with
  | none => rfl
  | some sf =>
    simp only [hw, List.foldl_nil]
    rw [sheaf?_updSheaf]
    generalize (if sf.half = 1 then sf.pair.getD sh else sh) = home
    by_cases hk : home = k <;> simp only [hk, if_true, if_false] <;> cases sheaf? s k <;> rfl

/-- What a word does where no lane faults: threads as they settle, other lanes untouched, nothing changed outside the sheaves. -/
theorem finishWord_ok (s : State) (rs : List ((Nat × Nat) × LaneRes)) (new : Nat × Nat → Thread) (hn : (rs.map (·.1)).Nodup)
    (hr : ∀ x ∈ rs, x.2.quietly = true ∧ ∃ sf th, sheaf? s x.1.1 = some sf ∧ thread? s x.1.1 x.1.2 = some th ∧ settle s sf th x.2 = .ok (new x.1)) :
    finishWord s rs = { s with sheaves := (finishWord s rs).sheaves } ∧
      (∀ x ∈ rs, thread? (finishWord s rs) x.1.1 x.1.2 = some (new x.1)) ∧
      (∀ y, y ∉ rs.map (·.1) → thread? (finishWord s rs) y.1 y.2 = thread? s y.1 y.2) ∧
      (∀ k, (sheaf? (finishWord s rs) k).map (fun sf => { sf with lanes := [], s := [] }) = (sheaf? s k).map (fun sf => { sf with lanes := [], s := [] })) ∧
      ((∀ x ∈ rs, ∀ r ∈ (LaneWr x.2).regs, ¬(0xC0 ≤ r.1 ∧ r.1 < 0xE0)) →
        ∀ k, (sheaf? (finishWord s rs) k).map (fun sf => sf.s) = (sheaf? s k).map (fun sf => sf.s)) := by
  have h := foldl_settleStep s rs new hn hr s (sameBut_refl s) (fun _ _ => rfl)
  have hskel : ∀ {a b : Option Sheaf}, a.map (fun sf => { sf with lanes := [] }) = b.map (fun sf => { sf with lanes := [] }) →
      a.map (fun sf => { sf with lanes := [], s := [] }) = b.map (fun sf => { sf with lanes := [], s := [] }) := by
    intro a b hab
    have := congrArg (fun o : Option Sheaf => o.map fun sf => { sf with s := [] }) hab
    simpa [Option.map_map, Function.comp_def] using this
  have hskel2 : ∀ {a b : Option Sheaf}, a.map (fun sf => { sf with s := [] }) = b.map (fun sf => { sf with s := [] }) →
      a.map (fun sf => { sf with lanes := [], s := [] }) = b.map (fun sf => { sf with lanes := [], s := [] }) := by
    intro a b hab
    have := congrArg (fun o : Option Sheaf => o.map fun sf => { sf with lanes := [] }) hab
    simpa [Option.map_map, Function.comp_def] using this
  have hscal : ∀ {a b : Option Sheaf}, a.map (fun sf => { sf with lanes := [] }) = b.map (fun sf => { sf with lanes := [] }) →
      a.map (fun sf => sf.s) = b.map (fun sf => sf.s) := by
    intro a b hab
    have := congrArg (fun o : Option Sheaf => o.map fun sf => sf.s) hab
    simpa [Option.map_map, Function.comp_def] using this
  unfold finishWord
  simp only [h.1, parkAll, List.map_nil, List.eraseDups_nil, List.foldl_nil, List.any_nil, Bool.not_false, Bool.true_and]
  split
  · next x hx =>
    obtain ⟨f1, f2, f3⟩ := writeScalars_frame (rs.foldl settleStep (s, [])).1 x.1.1 (LaneWr x.2)
    refine ⟨?_, ?_, ?_, ?_, ?_⟩
    · exact eq_of_blank (by rw [f1]; exact h.2.1.1)
    · intro y hy; rw [f2 y.1, h.2.2.1 y hy]
    · intro y hy; rw [f2 y, h.2.2.2 y hy]
    · intro k; rw [hskel2 (f3 k), hskel (h.2.1.2 k)]
    · intro hw k
      rw [writeScalars_none _ _ _ (hw x (List.mem_of_find?_eq_some hx)), hscal (h.2.1.2 k)]
  · exact ⟨eq_of_blank h.2.1.1, h.2.2.1, h.2.2.2, fun k => hskel (h.2.1.2 k), fun _ k => hscal (h.2.1.2 k)⟩

end Sys2Proof.Machine
end

