-- ==== Sys2Proof/Laws/PerInstr.lean ====
section
/-! SUPPORT. Facts about every instruction as syntax: the top bit K of its word tells a pair word from the others (R55). -/

set_option maxRecDepth 4000

namespace Sys2Proof.Laws.Enc

/-- Bit 63 of the encoding is 1 for a pair word, 0 for any other word; events are no words and encode as zero (R55). -/
def Statement (i : Instr) : Prop := (encode i).getLsbD 63 = match i with
  | .pairWord _ _ _ => true
  | _ => false

theorem putFull_top (op : BitVec 7) (fn : BitVec 4) (h : Guard) (b : BitVec 45) : (putFull op fn h b).getLsbD 63 = false := by
  simp only [putFull, BitVec.getLsbD_append]; simp

theorem putPair_top (x y : Slot) (z : BitVec 1) : (putPair x y z).getLsbD 63 = true := by
  simp only [putPair, BitVec.getLsbD_append]; simp

theorem zero_top : (0#64).getLsbD 63 = false := by decide

theorem add (h : Guard) (o : Tri) : Statement (.add h o) := putFull_top _ _ _ _
theorem sub (h : Guard) (o : Tri) : Statement (.sub h o) := putFull_top _ _ _ _
theorem mul (h : Guard) (o : Tri) : Statement (.mul h o) := putFull_top _ _ _ _
theorem mulh (h : Guard) (o : Tri) : Statement (.mulh h o) := putFull_top _ _ _ _
theorem mulhu (h : Guard) (o : Tri) : Statement (.mulhu h o) := putFull_top _ _ _ _
theorem mad (h : Guard) (o : Tri) : Statement (.mad h o) := putFull_top _ _ _ _
theorem and (h : Guard) (o : Tri) : Statement (.and h o) := putFull_top _ _ _ _
theorem or (h : Guard) (o : Tri) : Statement (.or h o) := putFull_top _ _ _ _
theorem xor (h : Guard) (o : Tri) : Statement (.xor h o) := putFull_top _ _ _ _
theorem andn (h : Guard) (o : Tri) : Statement (.andn h o) := putFull_top _ _ _ _
theorem orn (h : Guard) (o : Tri) : Statement (.orn h o) := putFull_top _ _ _ _
theorem shl (h : Guard) (o : Tri) : Statement (.shl h o) := putFull_top _ _ _ _
theorem shr (h : Guard) (o : Tri) : Statement (.shr h o) := putFull_top _ _ _ _
theorem sar (h : Guard) (o : Tri) : Statement (.sar h o) := putFull_top _ _ _ _
theorem rot (h : Guard) (o : Tri) : Statement (.rot h o) := putFull_top _ _ _ _
theorem sel (h : Guard) (o : Tri) : Statement (.sel h o) := putFull_top _ _ _ _
theorem min (h : Guard) (o : Tri) : Statement (.min h o) := putFull_top _ _ _ _
theorem max (h : Guard) (o : Tri) : Statement (.max h o) := putFull_top _ _ _ _
theorem abs (h : Guard) (o : Tri) : Statement (.abs h o) := putFull_top _ _ _ _
theorem clz (h : Guard) (o : Tri) : Statement (.clz h o) := putFull_top _ _ _ _
theorem popc (h : Guard) (o : Tri) : Statement (.popc h o) := putFull_top _ _ _ _
theorem brev (h : Guard) (o : Tri) : Statement (.brev h o) := putFull_top _ _ _ _
theorem bfx (h : Guard) (o : Tri) : Statement (.bfx h o) := putFull_top _ _ _ _
theorem bfi (h : Guard) (o : Tri) : Statement (.bfi h o) := putFull_top _ _ _ _
theorem div (h : Guard) (o : Tri) : Statement (.div h o) := putFull_top _ _ _ _
theorem rem (h : Guard) (o : Tri) : Statement (.rem h o) := putFull_top _ _ _ _
theorem addc (h : Guard) (o : Tri) : Statement (.addc h o) := putFull_top _ _ _ _
theorem subb (h : Guard) (o : Tri) : Statement (.subb h o) := putFull_top _ _ _ _
theorem lop3 (h : Guard) (o : Tri) : Statement (.lop3 h o) := putFull_top _ _ _ _
theorem prmt (h : Guard) (o : Tri) : Statement (.prmt h o) := putFull_top _ _ _ _
theorem mov (h : Guard) (o : Tri) : Statement (.mov h o) := putFull_top _ _ _ _
theorem sad (h : Guard) (o : Tri) : Statement (.sad h o) := putFull_top _ _ _ _
theorem addi (h : Guard) (o : I12) : Statement (.addi h o) := putFull_top _ _ _ _
theorem andi (h : Guard) (o : I12) : Statement (.andi h o) := putFull_top _ _ _ _
theorem ori (h : Guard) (o : I12) : Statement (.ori h o) := putFull_top _ _ _ _
theorem xori (h : Guard) (o : I12) : Statement (.xori h o) := putFull_top _ _ _ _
theorem shli (h : Guard) (o : I12) : Statement (.shli h o) := putFull_top _ _ _ _
theorem shri (h : Guard) (o : I12) : Statement (.shri h o) := putFull_top _ _ _ _
theorem sari (h : Guard) (o : I12) : Statement (.sari h o) := putFull_top _ _ _ _
theorem muli (h : Guard) (o : I12) : Statement (.muli h o) := putFull_top _ _ _ _
theorem lih (h : Guard) (o : I20) : Statement (.lih h o) := putFull_top _ _ _ _
theorem icmp (h : Guard) (o : Tri) : Statement (.icmp h o) := putFull_top _ _ _ _
theorem fcmp (h : Guard) (o : Tri) : Statement (.fcmp h o) := putFull_top _ _ _ _
theorem fclass (h : Guard) (o : Tri) : Statement (.fclass h o) := putFull_top _ _ _ _
theorem plop3 (h : Guard) (o : Tri) : Statement (.plop3 h o) := putFull_top _ _ _ _
theorem p2g (h : Guard) (o : Tri) : Statement (.p2g h o) := putFull_top _ _ _ _
theorem g2p (h : Guard) (o : Tri) : Statement (.g2p h o) := putFull_top _ _ _ _
theorem fadd (h : Guard) (o : Tri) : Statement (.fadd h o) := putFull_top _ _ _ _
theorem fsub (h : Guard) (o : Tri) : Statement (.fsub h o) := putFull_top _ _ _ _
theorem fmul (h : Guard) (o : Tri) : Statement (.fmul h o) := putFull_top _ _ _ _
theorem ffma (h : Guard) (o : Tri) : Statement (.ffma h o) := putFull_top _ _ _ _
theorem fmin (h : Guard) (o : Tri) : Statement (.fmin h o) := putFull_top _ _ _ _
theorem fmax (h : Guard) (o : Tri) : Statement (.fmax h o) := putFull_top _ _ _ _
theorem fabs (h : Guard) (o : Tri) : Statement (.fabs h o) := putFull_top _ _ _ _
theorem fneg (h : Guard) (o : Tri) : Statement (.fneg h o) := putFull_top _ _ _ _
theorem frnd (h : Guard) (o : Tri) : Statement (.frnd h o) := putFull_top _ _ _ _
theorem fscl (h : Guard) (o : Tri) : Statement (.fscl h o) := putFull_top _ _ _ _
theorem cvt (h : Guard) (o : Tri) : Statement (.cvt h o) := putFull_top _ _ _ _
theorem packh (h : Guard) (o : Tri) : Statement (.packh h o) := putFull_top _ _ _ _
theorem packbl (h : Guard) (o : Tri) : Statement (.packbl h o) := putFull_top _ _ _ _
theorem packbh (h : Guard) (o : Tri) : Statement (.packbh h o) := putFull_top _ _ _ _
theorem packn (h : Guard) (o : Tri) : Statement (.packn h o) := putFull_top _ _ _ _
theorem unpk (h : Guard) (o : Tri) : Statement (.unpk h o) := putFull_top _ _ _ _
theorem dot4i (h : Guard) (o : Tri) : Statement (.dot4i h o) := putFull_top _ _ _ _
theorem dot4u (h : Guard) (o : Tri) : Statement (.dot4u h o) := putFull_top _ _ _ _
theorem dot8i (h : Guard) (o : Tri) : Statement (.dot8i h o) := putFull_top _ _ _ _
theorem dot4f (h : Guard) (o : Tri) : Statement (.dot4f h o) := putFull_top _ _ _ _
theorem dot8f (h : Guard) (o : Tri) : Statement (.dot8f h o) := putFull_top _ _ _ _
theorem dot2h (h : Guard) (o : Tri) : Statement (.dot2h h o) := putFull_top _ _ _ _
theorem frcp (h : Guard) (o : Tri) : Statement (.frcp h o) := putFull_top _ _ _ _
theorem frsq (h : Guard) (o : Tri) : Statement (.frsq h o) := putFull_top _ _ _ _
theorem fsqrt (h : Guard) (o : Tri) : Statement (.fsqrt h o) := putFull_top _ _ _ _
theorem fexp2 (h : Guard) (o : Tri) : Statement (.fexp2 h o) := putFull_top _ _ _ _
theorem flog2 (h : Guard) (o : Tri) : Statement (.flog2 h o) := putFull_top _ _ _ _
theorem fsin (h : Guard) (o : Tri) : Statement (.fsin h o) := putFull_top _ _ _ _
theorem fcos (h : Guard) (o : Tri) : Statement (.fcos h o) := putFull_top _ _ _ _
theorem ftanh (h : Guard) (o : Tri) : Statement (.ftanh h o) := putFull_top _ _ _ _
theorem fdiv (h : Guard) (o : Tri) : Statement (.fdiv h o) := putFull_top _ _ _ _
theorem bra (h : Guard) (o : BF) : Statement (.bra h o) := putFull_top _ _ _ _
theorem brx (h : Guard) (o : BF) : Statement (.brx h o) := putFull_top _ _ _ _
theorem call (h : Guard) (o : BF) : Statement (.call h o) := putFull_top _ _ _ _
theorem callc (h : Guard) (o : BF) : Statement (.callc h o) := putFull_top _ _ _ _
theorem ret (h : Guard) (o : BF) : Statement (.ret h o) := putFull_top _ _ _ _
theorem retFar (h : Guard) (o : BF) : Statement (.retFar h o) := putFull_top _ _ _ _
theorem loop (h : Guard) (o : BF) : Statement (.loop h o) := putFull_top _ _ _ _
theorem jmark (h : Guard) (o : BF) : Statement (.jmark h o) := putFull_top _ _ _ _
theorem join (h : Guard) (o : BF) : Statement (.join h o) := putFull_top _ _ _ _
theorem yield (h : Guard) (o : BF) : Statement (.yield h o) := putFull_top _ _ _ _
theorem exit (h : Guard) (o : BF) : Statement (.exit h o) := putFull_top _ _ _ _
theorem nop (h : Guard) (o : BF) : Statement (.nop h o) := putFull_top _ _ _ _
theorem runb (h : Guard) (o : BF) : Statement (.runb h o) := putFull_top _ _ _ _
theorem rune (h : Guard) (o : BF) : Statement (.rune h o) := putFull_top _ _ _ _
theorem enter (h : Guard) (o : BF) : Statement (.enter h o) := putFull_top _ _ _ _
theorem leave (h : Guard) (o : BF) : Statement (.leave h o) := putFull_top _ _ _ _
theorem shfl (h : Guard) (o : Tri) : Statement (.shfl h o) := putFull_top _ _ _ _
theorem shflp (h : Guard) (o : Tri) : Statement (.shflp h o) := putFull_top _ _ _ _
theorem vany (h : Guard) (o : Tri) : Statement (.vany h o) := putFull_top _ _ _ _
theorem vall (h : Guard) (o : Tri) : Statement (.vall h o) := putFull_top _ _ _ _
theorem ballot (h : Guard) (o : Tri) : Statement (.ballot h o) := putFull_top _ _ _ _
theorem redux (h : Guard) (o : Tri) : Statement (.redux h o) := putFull_top _ _ _ _
theorem scan (h : Guard) (o : Tri) : Statement (.scan h o) := putFull_top _ _ _ _
theorem matchm (h : Guard) (o : Tri) : Statement (.matchm h o) := putFull_top _ _ _ _
theorem rdvinit (h : Guard) (o : Tri) : Statement (.rdvinit h o) := putFull_top _ _ _ _
theorem rdvarr (h : Guard) (o : Tri) : Statement (.rdvarr h o) := putFull_top _ _ _ _
theorem rdvwait (h : Guard) (o : Tri) : Statement (.rdvwait h o) := putFull_top _ _ _ _
theorem rdvaw (h : Guard) (o : Tri) : Statement (.rdvaw h o) := putFull_top _ _ _ _
theorem sigwait (h : Guard) (o : Tri) : Statement (.sigwait h o) := putFull_top _ _ _ _
theorem sigpost (h : Guard) (o : Tri) : Statement (.sigpost h o) := putFull_top _ _ _ _
theorem phase (h : Guard) (o : Tri) : Statement (.phase h o) := putFull_top _ _ _ _
theorem live (h : Guard) (o : Tri) : Statement (.live h o) := putFull_top _ _ _ _
theorem hop (h : Guard) (o : Tri) : Statement (.hop h o) := putFull_top _ _ _ _
theorem launch (h : Guard) (o : Tri) : Statement (.launch h o) := putFull_top _ _ _ _
theorem lwait (h : Guard) (o : Tri) : Statement (.lwait h o) := putFull_top _ _ _ _
theorem ld (h : Guard) (o : MF) : Statement (.ld h o) := putFull_top _ _ _ _
theorem st (h : Guard) (o : MF) : Statement (.st h o) := putFull_top _ _ _ _
theorem ldw (h : Guard) (o : MF) : Statement (.ldw h o) := putFull_top _ _ _ _
theorem ldc (h : Guard) (o : MF) : Statement (.ldc h o) := putFull_top _ _ _ _
theorem stc (h : Guard) (o : MF) : Statement (.stc h o) := putFull_top _ _ _ _
theorem lds (h : Guard) (o : MF) : Statement (.lds h o) := putFull_top _ _ _ _
theorem sts (h : Guard) (o : MF) : Statement (.sts h o) := putFull_top _ _ _ _
theorem cas (h : Guard) (o : MF) : Statement (.cas h o) := putFull_top _ _ _ _
theorem cass (h : Guard) (o : MF) : Statement (.cass h o) := putFull_top _ _ _ _
theorem pref (h : Guard) (o : MF) : Statement (.pref h o) := putFull_top _ _ _ _
theorem atomAdd (h : Guard) (o : MF) : Statement (.atomAdd h o) := putFull_top _ _ _ _
theorem atomMin (h : Guard) (o : MF) : Statement (.atomMin h o) := putFull_top _ _ _ _
theorem atomMax (h : Guard) (o : MF) : Statement (.atomMax h o) := putFull_top _ _ _ _
theorem atomMinu (h : Guard) (o : MF) : Statement (.atomMinu h o) := putFull_top _ _ _ _
theorem atomMaxu (h : Guard) (o : MF) : Statement (.atomMaxu h o) := putFull_top _ _ _ _
theorem atomAnd (h : Guard) (o : MF) : Statement (.atomAnd h o) := putFull_top _ _ _ _
theorem atomOr (h : Guard) (o : MF) : Statement (.atomOr h o) := putFull_top _ _ _ _
theorem atomXor (h : Guard) (o : MF) : Statement (.atomXor h o) := putFull_top _ _ _ _
theorem atomXchg (h : Guard) (o : MF) : Statement (.atomXchg h o) := putFull_top _ _ _ _
theorem atomFadd (h : Guard) (o : MF) : Statement (.atomFadd h o) := putFull_top _ _ _ _
theorem atomFmin (h : Guard) (o : MF) : Statement (.atomFmin h o) := putFull_top _ _ _ _
theorem atomFmax (h : Guard) (o : MF) : Statement (.atomFmax h o) := putFull_top _ _ _ _
theorem atomInc (h : Guard) (o : MF) : Statement (.atomInc h o) := putFull_top _ _ _ _
theorem atomsAdd (h : Guard) (o : MF) : Statement (.atomsAdd h o) := putFull_top _ _ _ _
theorem atomsMin (h : Guard) (o : MF) : Statement (.atomsMin h o) := putFull_top _ _ _ _
theorem atomsMax (h : Guard) (o : MF) : Statement (.atomsMax h o) := putFull_top _ _ _ _
theorem atomsMinu (h : Guard) (o : MF) : Statement (.atomsMinu h o) := putFull_top _ _ _ _
theorem atomsMaxu (h : Guard) (o : MF) : Statement (.atomsMaxu h o) := putFull_top _ _ _ _
theorem atomsAnd (h : Guard) (o : MF) : Statement (.atomsAnd h o) := putFull_top _ _ _ _
theorem atomsOr (h : Guard) (o : MF) : Statement (.atomsOr h o) := putFull_top _ _ _ _
theorem atomsXor (h : Guard) (o : MF) : Statement (.atomsXor h o) := putFull_top _ _ _ _
theorem atomsXchg (h : Guard) (o : MF) : Statement (.atomsXchg h o) := putFull_top _ _ _ _
theorem atomsFadd (h : Guard) (o : MF) : Statement (.atomsFadd h o) := putFull_top _ _ _ _
theorem atomsFmin (h : Guard) (o : MF) : Statement (.atomsFmin h o) := putFull_top _ _ _ _
theorem atomsFmax (h : Guard) (o : MF) : Statement (.atomsFmax h o) := putFull_top _ _ _ _
theorem atomsInc (h : Guard) (o : MF) : Statement (.atomsInc h o) := putFull_top _ _ _ _
theorem fence (h : Guard) (o : MF) : Statement (.fence h o) := putFull_top _ _ _ _
theorem check (h : Guard) (o : MF) : Statement (.check h o) := putFull_top _ _ _ _
theorem wset (h : Guard) (o : MF) : Statement (.wset h o) := putFull_top _ _ _ _
theorem bankcfg (h : Guard) (o : MF) : Statement (.bankcfg h o) := putFull_top _ _ _ _
theorem cgetb (h : Guard) (o : Tri) : Statement (.cgetb h o) := putFull_top _ _ _ _
theorem cgetl (h : Guard) (o : Tri) : Statement (.cgetl h o) := putFull_top _ _ _ _
theorem cgetp (h : Guard) (o : Tri) : Statement (.cgetp h o) := putFull_top _ _ _ _
theorem cgetc (h : Guard) (o : Tri) : Statement (.cgetc h o) := putFull_top _ _ _ _
theorem cgetk (h : Guard) (o : Tri) : Statement (.cgetk h o) := putFull_top _ _ _ _
theorem cgett (h : Guard) (o : Tri) : Statement (.cgett h o) := putFull_top _ _ _ _
theorem cnarrow (h : Guard) (o : Tri) : Statement (.cnarrow h o) := putFull_top _ _ _ _
theorem candp (h : Guard) (o : Tri) : Statement (.candp h o) := putFull_top _ _ _ _
theorem cseal (h : Guard) (o : Tri) : Statement (.cseal h o) := putFull_top _ _ _ _
theorem cunseal (h : Guard) (o : Tri) : Statement (.cunseal h o) := putFull_top _ _ _ _
theorem cmov (h : Guard) (o : Tri) : Statement (.cmov h o) := putFull_top _ _ _ _
theorem cclrt (h : Guard) (o : Tri) : Statement (.cclrt h o) := putFull_top _ _ _ _
theorem ctest (h : Guard) (o : Tri) : Statement (.ctest h o) := putFull_top _ _ _ _
theorem csend (h : Guard) (o : Tri) : Statement (.csend h o) := putFull_top _ _ _ _
theorem crecv (h : Guard) (o : Tri) : Statement (.crecv h o) := putFull_top _ _ _ _
theorem csetu (h : Guard) (o : Tri) : Statement (.csetu h o) := putFull_top _ _ _ _
theorem tdef (h : Guard) (o : XF) : Statement (.tdef h o) := putFull_top _ _ _ _
theorem tfill (h : Guard) (o : XF) : Statement (.tfill h o) := putFull_top _ _ _ _
theorem tfillResume (h : Guard) (o : XF) : Statement (.tfillResume h o) := putFull_top _ _ _ _
theorem tdrain (h : Guard) (o : XF) : Statement (.tdrain h o) := putFull_top _ _ _ _
theorem tdrainResume (h : Guard) (o : XF) : Statement (.tdrainResume h o) := putFull_top _ _ _ _
theorem twait (h : Guard) (o : XF) : Statement (.twait h o) := putFull_top _ _ _ _
theorem tstat (h : Guard) (o : XF) : Statement (.tstat h o) := putFull_top _ _ _ _
theorem tfree (h : Guard) (o : XF) : Statement (.tfree h o) := putFull_top _ _ _ _
theorem tgive (h : Guard) (o : XF) : Statement (.tgive h o) := putFull_top _ _ _ _
theorem fstart (h : Guard) (o : XF) : Statement (.fstart h o) := putFull_top _ _ _ _
theorem fpush (h : Guard) (o : XF) : Statement (.fpush h o) := putFull_top _ _ _ _
theorem fpop (h : Guard) (o : XF) : Statement (.fpop h o) := putFull_top _ _ _ _
theorem fwait (h : Guard) (o : XF) : Statement (.fwait h o) := putFull_top _ _ _ _
theorem fstop (h : Guard) (o : XF) : Statement (.fstop h o) := putFull_top _ _ _ _
theorem cmdrun (h : Guard) (o : XF) : Statement (.cmdrun h o) := putFull_top _ _ _ _
theorem cmdpoll (h : Guard) (o : XF) : Statement (.cmdpoll h o) := putFull_top _ _ _ _
theorem rkmark (h : Guard) (o : XF) : Statement (.rkmark h o) := putFull_top _ _ _ _
theorem rkmarkRelocate (h : Guard) (o : XF) : Statement (.rkmarkRelocate h o) := putFull_top _ _ _ _
theorem rkpass (h : Guard) (o : XF) : Statement (.rkpass h o) := putFull_top _ _ _ _
theorem rkpassRelocate (h : Guard) (o : XF) : Statement (.rkpassRelocate h o) := putFull_top _ _ _ _
theorem rkwait (h : Guard) (o : XF) : Statement (.rkwait h o) := putFull_top _ _ _ _
theorem rkstat (h : Guard) (o : XF) : Statement (.rkstat h o) := putFull_top _ _ _ _
theorem stmr (h : Guard) (o : XF) : Statement (.stmr h o) := putFull_top _ _ _ _
theorem mrwait (h : Guard) (o : XF) : Statement (.mrwait h o) := putFull_top _ _ _ _
theorem mma (h : Guard) (o : XF) : Statement (.mma h o) := putFull_top _ _ _ _
theorem accalloc (h : Guard) (o : XF) : Statement (.accalloc h o) := putFull_top _ _ _ _
theorem accfree (h : Guard) (o : XF) : Statement (.accfree h o) := putFull_top _ _ _ _
theorem acczero (h : Guard) (o : XF) : Statement (.acczero h o) := putFull_top _ _ _ _
theorem accrd (h : Guard) (o : XF) : Statement (.accrd h o) := putFull_top _ _ _ _
theorem accwr (h : Guard) (o : XF) : Statement (.accwr h o) := putFull_top _ _ _ _
theorem accst (h : Guard) (o : XF) : Statement (.accst h o) := putFull_top _ _ _ _
theorem bht (h : Guard) (o : XF) : Statement (.bht h o) := putFull_top _ _ _ _
theorem tqnt (h : Guard) (o : XF) : Statement (.tqnt h o) := putFull_top _ _ _ _
theorem ttrn (h : Guard) (o : XF) : Statement (.ttrn h o) := putFull_top _ _ _ _
theorem srr (h : Guard) (o : SF) : Statement (.srr h o) := putFull_top _ _ _ _
theorem srw (h : Guard) (o : SF) : Statement (.srw h o) := putFull_top _ _ _ _
theorem trap (h : Guard) (o : SF) : Statement (.trap h o) := putFull_top _ _ _ _
theorem eret (h : Guard) (o : SF) : Statement (.eret h o) := putFull_top _ _ _ _
theorem brk (h : Guard) (o : SF) : Statement (.brk h o) := putFull_top _ _ _ _
theorem perf (h : Guard) (o : SF) : Statement (.perf h o) := putFull_top _ _ _ _
theorem sleep (h : Guard) (o : SF) : Statement (.sleep h o) := putFull_top _ _ _ _
theorem parkq (h : Guard) (o : SF) : Statement (.parkq h o) := putFull_top _ _ _ _
theorem pairWord (x y : Slot) (z : BitVec 1) : Statement (.pairWord x y z) := putPair_top _ _ _
theorem sheafChoice (core quad : Nat) : Statement (.sheafChoice core quad) := zero_top
theorem yieldHoldEnd (sh ln : Nat) : Statement (.yieldHoldEnd sh ln) := zero_top
theorem runCommit (sh ln : Nat) : Statement (.runCommit sh ln) := zero_top
theorem joinRelease (sh ln : Nat) : Statement (.joinRelease sh ln) := zero_top
theorem sleepEnd (sh ln : Nat) : Statement (.sleepEnd sh ln) := zero_top
theorem phaseOverrun (team : Nat) : Statement (.phaseOverrun team) := zero_top
theorem asyncFaultDelivery (sh ln : Nat) : Statement (.asyncFaultDelivery sh ln) := zero_top
theorem sigwaitReload (sh ln : Nat) : Statement (.sigwaitReload sh ln) := zero_top
theorem sigwaitHostPoll (sh ln : Nat) (value : DWord) : Statement (.sigwaitHostPoll sh ln value) := zero_top
theorem ltimeTick (core : Nat) : Statement (.ltimeTick core) := zero_top
theorem seasonBoundary : Statement (.seasonBoundary) := zero_top
theorem homeRenew (i : Nat) : Statement (.homeRenew i) := zero_top
theorem loadReply (i : Nat) (ans : PeerAnswer) : Statement (.loadReply i ans) := zero_top
theorem homeWrite (i : Nat) : Statement (.homeWrite i) := zero_top
theorem homeRead (core addr : Nat) : Statement (.homeRead core addr) := zero_top
theorem storeAck (i : Nat) (ans : PeerAnswer) : Statement (.storeAck i ans) := zero_top
theorem otherPartyWrite (addr : Nat) (data : List Byte) : Statement (.otherPartyWrite addr data) := zero_top
theorem csendAtHome (i : Nat) : Statement (.csendAtHome i) := zero_top
theorem crecvAtHome (i : Nat) : Statement (.crecvAtHome i) := zero_top
theorem conditionalWriteback (i : Nat) : Statement (.conditionalWriteback i) := zero_top
theorem writebackReply (i : Nat) : Statement (.writebackReply i) := zero_top
theorem writeLostAnswer (i : Nat) : Statement (.writeLostAnswer i) := zero_top
theorem granuleEntryWrite (die granule : Nat) (entry : BitVec 16) : Statement (.granuleEntryWrite die granule entry) := zero_top
theorem heldAccessRecheck (i : Nat) : Statement (.heldAccessRecheck i) := zero_top
theorem eccUncorrectable (target : EccTarget) : Statement (.eccUncorrectable target) := zero_top
theorem bankSwitchDone (core bank : Nat) : Statement (.bankSwitchDone core bank) := zero_top
theorem stageSetDispatch (cluster : Nat) : Statement (.stageSetDispatch cluster) := zero_top
theorem stealRequest (thief : Nat) : Statement (.stealRequest thief) := zero_top
theorem stealReply (thief : Nat) : Statement (.stealReply thief) := zero_top
theorem teamRetire (team : Nat) : Statement (.teamRetire team) := zero_top
theorem launchComplete (launch : Nat) : Statement (.launchComplete launch) := zero_top
theorem runnerStart (launch : Nat) : Statement (.runnerStart launch) := zero_top
theorem runnerComplete (launch : Nat) : Statement (.runnerComplete launch) := zero_top
theorem travelDepart (sh ln : Nat) : Statement (.travelDepart sh ln) := zero_top
theorem packetRelay (i : Nat) : Statement (.packetRelay i) := zero_top
theorem ringToFifo (launch seg core : Nat) : Statement (.ringToFifo launch seg core) := zero_top
theorem packetPlace (launch seg core : Nat) : Statement (.packetPlace launch seg core) := zero_top
theorem sheafRelease (sh : Nat) : Statement (.sheafRelease sh) := zero_top
theorem depthBroadcast (core : Nat) : Statement (.depthBroadcast core) := zero_top
theorem cuttingAdd (launch seg core : Nat) : Statement (.cuttingAdd launch seg core) := zero_top
theorem cuttingRemove (launch seg slot : Nat) : Statement (.cuttingRemove launch seg slot) := zero_top
theorem copyRow (core : Nat) : Statement (.copyRow core) := zero_top
theorem tileTransferDone (core : Nat) : Statement (.tileTransferDone core) := zero_top
theorem commandCopyDone (core : Nat) : Statement (.commandCopyDone core) := zero_top
theorem mmaComplete (core array : Nat) : Statement (.mmaComplete core array) := zero_top
theorem arrayOpDone (core array : Nat) : Statement (.arrayOpDone core array) := zero_top
theorem accallocGrant (core : Nat) : Statement (.accallocGrant core) := zero_top
theorem rakePassStart : Statement (.rakePassStart) := zero_top
theorem rakeBatch : Statement (.rakeBatch) := zero_top
theorem rakePeerReport (peer : Nat) : Statement (.rakePeerReport peer) := zero_top
theorem rakePassComplete : Statement (.rakePassComplete) := zero_top
theorem permitRequest (core : Nat) (unit : PermitUnit) : Statement (.permitRequest core unit) := zero_top
theorem permitGrant (die : Nat) : Statement (.permitGrant die) := zero_top
theorem mrDelivery (group line : Nat) : Statement (.mrDelivery group line) := zero_top
theorem mrSwitchSum (group line : Nat) (sum : List Word) : Statement (.mrSwitchSum group line sum) := zero_top
theorem mrGroupInvalidate (group : Nat) : Statement (.mrGroupInvalidate group) := zero_top
theorem handlerEntry (sh sub : Nat) : Statement (.handlerEntry sh sub) := zero_top
theorem stopRequest (ctx : Nat) (why : StopReason) : Statement (.stopRequest ctx why) := zero_top
theorem unitAck (ctx die : Nat) : Statement (.unitAck ctx die) := zero_top
theorem contextStopped (ctx : Nat) : Statement (.contextStopped ctx) := zero_top
theorem save (ctx : Nat) : Statement (.save ctx) := zero_top
theorem restore (ctx : Nat) : Statement (.restore ctx) := zero_top
theorem quantumChange : Statement (.quantumChange) := zero_top
theorem queueMapping : Statement (.queueMapping) := zero_top
theorem queueKick (fn queue : Nat) (tail : Word) : Statement (.queueKick fn queue tail) := zero_top
theorem queueCommandBegin (queue : Nat) (host : List Byte) : Statement (.queueCommandBegin queue host) := zero_top
theorem queueNop (queue : Nat) : Statement (.queueNop queue) := zero_top
theorem queueLaunch (queue : Nat) : Statement (.queueLaunch queue) := zero_top
theorem queueWait (queue : Nat) (host : DWord) : Statement (.queueWait queue host) := zero_top
theorem queuePost (queue : Nat) : Statement (.queuePost queue) := zero_top
theorem adminDb (fn : Nat) (tail : Word) : Statement (.adminDb fn tail) := zero_top
theorem ctxCreate (fn : Nat) (cmd : List Byte) : Statement (.ctxCreate fn cmd) := zero_top
theorem ctxHandler (fn : Nat) (cmd : List Byte) : Statement (.ctxHandler fn cmd) := zero_top
theorem ctxDestroy (fn : Nat) (cmd : List Byte) : Statement (.ctxDestroy fn cmd) := zero_top
theorem objLoad (fn : Nat) (cmd file : List Byte) : Statement (.objLoad fn cmd file) := zero_top
theorem qCreate (fn : Nat) (cmd : List Byte) : Statement (.qCreate fn cmd) := zero_top
theorem qDestroy (fn : Nat) (cmd : List Byte) : Statement (.qDestroy fn cmd) := zero_top
theorem monSet (fn : Nat) (cmd : List Byte) : Statement (.monSet fn cmd) := zero_top
theorem cntClear (fn : Nat) (cmd : List Byte) : Statement (.cntClear fn cmd) := zero_top
theorem aperture (fn : Nat) (cmd : List Byte) : Statement (.aperture fn cmd) := zero_top
theorem monRead (fn : Nat) (cmd : List Byte) : Statement (.monRead fn cmd) := zero_top
theorem ctxQuery (fn : Nat) (cmd : List Byte) : Statement (.ctxQuery fn cmd) := zero_top
theorem vfColours (fn : Nat) (cmd : List Byte) (colours : List Nat) : Statement (.vfColours fn cmd colours) := zero_top
theorem qtabWrite (fn : Nat) (cmd : List Byte) : Statement (.qtabWrite fn cmd) := zero_top
theorem ctxMigrate (fn : Nat) (cmd mask : List Byte) (queues : List Nat) : Statement (.ctxMigrate fn cmd mask queues) := zero_top
theorem pctWrite (fn : Nat) (cmd : List Byte) : Statement (.pctWrite fn cmd) := zero_top
theorem attest (fn : Nat) (cmd : List Byte) : Statement (.attest fn cmd) := zero_top
theorem vfEn (value : DWord) : Statement (.vfEn value) := zero_top
theorem vfReset (vf : Nat) : Statement (.vfReset vf) := zero_top
theorem evtHead (fn : Nat) (value : Word) : Statement (.evtHead fn value) := zero_top
theorem evtDrop (fn : Nat) : Statement (.evtDrop fn) := zero_top
theorem registerWrite (fn off width : Nat) (value : DWord) : Statement (.registerWrite fn off width value) := zero_top
theorem apertureRead (fn win off size : Nat) : Statement (.apertureRead fn win off size) := zero_top
theorem apertureWrite (fn win off : Nat) (data : List Byte) : Statement (.apertureWrite fn win off data) := zero_top
theorem counterOverflow (ctx k : Nat) : Statement (.counterOverflow ctx k) := zero_top
theorem ingressAccess (req : IngressReq) : Statement (.ingressAccess req) := zero_top
theorem portStateChange (port state : Nat) : Statement (.portStateChange port state) := zero_top
theorem keyAgreement (port : Nat) (partner : Nat) (signed : Bool) : Statement (.keyAgreement port partner signed) := zero_top
theorem epochGraceEnd (port : Nat) : Statement (.epochGraceEnd port) := zero_top
theorem thermalStop (die temp : Nat) : Statement (.thermalStop die temp) := zero_top
theorem thermalResume (die temp : Nat) : Statement (.thermalResume die temp) := zero_top
theorem boot (input : BootInput) : Statement (.boot input) := zero_top
theorem stackCacheSpill (core quad line : Nat) (fill : Bool) : Statement (.stackCacheSpill core quad line fill) := zero_top
theorem objectUnload (ctx object : Nat) : Statement (.objectUnload ctx object) := zero_top
theorem groupDescriptorSet (group : Nat) (desc : GroupDesc) : Statement (.groupDescriptorSet group desc) := zero_top
theorem peerSweep (peer pass : Nat) (ranges : List SweepRange) : Statement (.peerSweep peer pass ranges) := zero_top
theorem pcieCompletion (i : Nat) (ans : PcieAnswer) : Statement (.pcieCompletion i ans) := zero_top
theorem pcieWriteDeparture (i : Nat) : Statement (.pcieWriteDeparture i) := zero_top
theorem evtCtl (fn : Nat) (value : Word) : Statement (.evtCtl fn value) := zero_top

end Sys2Proof.Laws.Enc
end

