-- ==== Sys2Proof/Laws/Words.lean ====
section
/-! SUPPORT. What a word does in the lanes of its group: words whose lanes act on their own threads only, and words of a single lane. -/

namespace Sys2Proof.Machine

theorem presentLanes_eq {s : State} (hd : lanesDistinct s) : presentLanes s = activeLanes s := by
  unfold presentLanes
  exact List.filter_eq_self.2 hd.2.1

theorem envOf_isSome {s : State} {acts parts : List (Nat × Nat)} {x : Nat × Nat} (h : (thread? s x.1 x.2).isSome = true) :
    ∃ sf th, sheaf? s x.1 = some sf ∧ thread? s x.1 x.2 = some th ∧
      envOf s acts parts x = some { s := s, sh := x.1, ln := x.2, sf := sf, th := th, acts := acts, parts := parts } := by
  cases ht : thread? s x.1 x.2 with
  | none => rw [ht] at h; cases h
  | some th =>
    have ht' := ht
    unfold thread? at ht
    cases hs : sheaf? s x.1 with
    | none => rw [hs] at ht; cases ht
    | some sf => exact ⟨sf, th, rfl, rfl, by simp only [envOf, hs, ht']⟩

theorem envOf_state {s : State} {acts parts : List (Nat × Nat)} {x : Nat × Nat} {e : Env} (h : envOf s acts parts x = some e) : e.s = s := by
  unfold envOf at h
  split at h
  · cases h; rfl
  · cases h

/-- A lane whose word is one that goes past it may advance (R211), and no lane waits for it. -/
def goesFreely (e : Env) (r : LaneRes) : Prop := (edgeFault e = none ∨ resAdvances r = false) ∧ resWaits r = false

theorem resStops_of_waits {r : LaneRes} (h : resWaits r = false) : resStops r = false := by
  cases r with
  | hold x => cases x <;> first | rfl | cases h
  | _ => rfl

theorem evalLane_free {f : Env → State → State × LaneRes} {e : Env} {s : State} (h : goesFreely e (f e s).2) : evalLane f e s = f e s := by
  unfold evalLane
  rcases h.1 with h1 | h1
  · rw [h1]
  · cases edgeFault e <;> simp [h1]

/-- The lanes of a word that leave the state alone until they settle, each evaluated on the state before the word. -/
theorem evalLanes_pure (acts parts order : List (Nat × Nat)) (f : Env → State → State × LaneRes) (res : Env → LaneRes)
    (hf : ∀ e : Env, f e e.s = (e.s, res e)) (s : State) (out : Nat × Nat → LaneRes)
    (h : ∀ x ∈ order, ∃ e, envOf s acts parts x = some e ∧ res e = out x ∧ goesFreely e (res e)) :
    evalLanes acts parts f order s = (s, order.map fun x => (x, out x), []) := by
  induction order with
  | nil => rfl
  | cons x order ih =>
    obtain ⟨e, he, ho, hq⟩ := h x (by simp)
    have hfe : f e s = (s, res e) := by
      have := hf e
      rw [envOf_state he] at this
      exact this
    have hev : evalLane f e s = (s, out x) := by
      rw [evalLane_free (by rw [hfe]; exact hq), hfe, ho]
    have hst : resStops (out x) = false := by rw [← ho]; exact resStops_of_waits hq.2
    simp only [evalLanes, he, hev, hst, Bool.false_eq_true, if_false, ih fun y hy => h y (List.mem_cons_of_mem _ hy), List.map_cons]

theorem byLane_map (acts : List (Nat × Nat)) (p : Nat × Nat → Bool) (out : Nat × Nat → LaneRes) :
    byLane acts ((acts.filter p).map fun x => (x, out x)) = (acts.filter p).map fun x => (x, out x) := by
  unfold byLane
  have hf : ∀ x ∈ acts, ((acts.filter p).map fun x => (x, out x)).find? (fun y => decide (y.1 = x)) = if p x then some (x, out x) else none := by
    intro x hx
    by_cases hp : p x = true
    · simp only [hp, if_true]
      rw [List.find?_map]
      have : (acts.filter p).find? ((fun y : (Nat × Nat) × LaneRes => decide (y.1 = x)) ∘ fun x => (x, out x)) = some x := by
        have hm : x ∈ acts.filter p := List.mem_filter.2 ⟨hx, hp⟩
        generalize acts.filter p = l at hm
        induction l with
        | nil => cases hm
        | cons y l ih =>
          by_cases hy : y = x
          · subst hy; simp
          · rw [List.find?_cons_of_neg (by simpa using hy)]
            rcases List.mem_cons.1 hm with rfl | hm
            · exact absurd rfl hy
            · exact ih hm
      rw [this]; rfl
    · simp only [hp]
      rw [List.find?_eq_none.2]
      · rfl
      · intro y hy
        obtain ⟨z, hz, rfl⟩ := List.mem_map.1 hy
        have hzp := (List.mem_filter.1 hz).2
        simp only [decide_eq_true_eq]
        rintro rfl
        exact hp hzp
  have hg : ∀ l : List (Nat × Nat), (∀ x ∈ l, x ∈ acts) →
      l.filterMap (fun x => ((acts.filter p).map fun x => (x, out x)).find? fun y => decide (y.1 = x)) = (l.filter p).map fun x => (x, out x) := by
    intro l hl
    induction l with
    | nil => rfl
    | cons x l ih =>
      rw [List.filterMap_cons, hf x (hl x (by simp)), ih fun y hy => hl y (List.mem_cons_of_mem _ hy)]
      by_cases hp : p x = true <;> simp [hp]
  exact hg acts fun _ h => h

/-- A word that begins has no lane that has done its part before. -/
theorem restLanes_fresh {s : State} (h : fresh s) : restLanes s = [] := by
  unfold restLanes
  cases hf : s.focus with
  | none => rfl
  | some g =>
    simp only [(h g hf).1]
    unfold maskLanes
    rw [List.filter_eq_nil_iff.2]
    · rfl
    · intro k _; simp

/-- A fresh word at which no lane waits ends at once. -/
theorem endWord_fresh {s : State} (h : fresh s) {rs idle : List ((Nat × Nat) × LaneRes)} (hw : ∀ x ∈ rs, resWaits x.2 = false) :
    endWord s [] rs idle = finishWord s (rs ++ idle) := by
  have hg : (s.focus.getD { sh := 0, mask := 0, pairMask := 0, rest := 0, word := none }).word = none := by
    cases hf : s.focus with
    | none => rfl
    | some g => exact (h g hf).2
  have ha : rs.any (fun x => resWaits x.2) = false := by
    rw [List.any_eq_false]
    intro x hx
    simp [hw x hx]
  unfold endWord
  rw [if_pos (by rw [hg, ha]; rfl)]

/-- The result of a lane of a word: that of the word where its guard is true, else nothing written. -/
def laneResult (h : Guard) (res : Env → LaneRes) (e : Env) : LaneRes := if guardTrue e.th h then res e else .ok wrNone

/-- A word whose lanes act on their own threads only, in every lane of its group. -/
theorem runWord_lanes (k : WordCfg) (f : Env → State → State × LaneRes) (res : Env → LaneRes) (hf : ∀ e : Env, f e e.s = (e.s, res e)) (s : State) (new : Nat × Nat → Thread) (hd : lanesDistinct s) (hk : k.store = false)
    (hk2 : k.resolve = false) (hstop : ∀ x ∈ activeLanes s, wordStop s k x.1 x.2 = none)
    (hr : ∀ x ∈ activeLanes s, ∀ e, laneEnv s k.guard x = some e →
      (laneResult k.guard res e).quietly = true ∧ goesFreely e (laneResult k.guard res e) ∧
        settle s e.sf e.th (laneResult k.guard res e) = .ok (new x)) :
    let t := runWord k f s
    t = { s with sheaves := t.sheaves, focus := none } ∧
      (∀ x ∈ activeLanes s, thread? t x.1 x.2 = some (new x)) ∧
      (∀ y, y ∉ activeLanes s → thread? t y.1 y.2 = thread? s y.1 y.2) ∧
      (∀ j, (sheaf? t j).map (fun sf => { sf with lanes := [], s := [] }) = (sheaf? s j).map (fun sf => { sf with lanes := [], s := [] })) ∧
      ((∀ x ∈ activeLanes s, ∀ e, laneEnv s k.guard x = some e → ∀ r ∈ (LaneWr (laneResult k.guard res e)).regs, ¬(0xC0 ≤ r.1 ∧ r.1 < 0xE0)) →
        ∀ j, (sheaf? t j).map (fun sf => sf.s) = (sheaf? s j).map (fun sf => sf.s)) := by
  have hp := presentLanes_eq hd
  have hst : wordStops s k = [] := by
    unfold wordStops
    rw [hp]
    apply List.filterMap_eq_nil_iff.2
    intro x hx
    rw [hstop x hx]; rfl
  let g : Nat × Nat → Bool := fun x => match thread? s x.1 x.2 with
    | some th => guardTrue th k.guard
    | none => false
  have htk : takingLanes s k.guard = (activeLanes s).filter g := by rw [← hp]; rfl
  have henv : ∀ x ∈ activeLanes s, ∃ e, laneEnv s k.guard x = some e ∧ envOf s (activeLanes s) ((activeLanes s).filter g) x = some e ∧
      guardTrue e.th k.guard = g x ∧ sheaf? s x.1 = some e.sf ∧ thread? s x.1 x.2 = some e.th := by
    intro x hx
    obtain ⟨sf, th, h1, h2, h3⟩ := envOf_isSome (acts := activeLanes s) (parts := (activeLanes s).filter g) (hd.2.1 x hx)
    refine ⟨_, h3, h3, ?_, h1, h2⟩
    show guardTrue th k.guard = g x
    simp only [g, h2]
  let out : Nat × Nat → LaneRes := fun x => match envOf s (activeLanes s) ((activeLanes s).filter g) x with
    | some e => res e
    | none => .ok wrNone
  have hfree : ∀ x ∈ (activeLanes s).filter g, ∃ e, envOf s (activeLanes s) ((activeLanes s).filter g) x = some e ∧ res e = out x ∧ goesFreely e (res e) := by
    intro x hx
    obtain ⟨e, h1, h2, h3, _⟩ := henv x (List.mem_filter.1 hx).1
    have := (hr x (List.mem_filter.1 hx).1 e h1).2.1
    rw [laneResult, if_pos (by rw [h3]; exact (List.mem_filter.1 hx).2)] at this
    exact ⟨e, h2, by simp only [out, h2], this⟩
  have hev : evalLanes (presentLanes s ++ restLanes s) (takingLanes s k.guard) f (takingLanes s k.guard) s =
      (s, ((activeLanes s).filter g).map (fun x => (x, out x)), []) := by
    rw [hp, htk, restLanes_fresh hd.2.2, List.append_nil]
    exact evalLanes_pure (activeLanes s) ((activeLanes s).filter g) ((activeLanes s).filter g) f res hf s out hfree
  have hwait : ∀ x ∈ ((activeLanes s).filter g).map (fun x => (x, out x)), resWaits x.2 = false := by
    intro x hx
    obtain ⟨y, hy, rfl⟩ := List.mem_map.1 hx
    obtain ⟨e, _, ho, hq⟩ := hfree y hy
    show resWaits (out y) = false
    rw [← ho]
    exact hq.2
  have hrun : runWord k f s =
      { finishWord s (((activeLanes s).filter g).map (fun x => (x, out x)) ++ ((activeLanes s).filter fun x => !g x).map fun x => (x, LaneRes.ok wrNone))
        with focus := none } := by
    have he : entriesWait s k (takingLanes s k.guard) = false := by simp [entriesWait, hk2]
    unfold runWord runWordIn
    simp only [hst, List.isEmpty_nil, Bool.not_true, Bool.false_eq_true, if_false, hk, id_eq, hev, he]
    rw [hp, byLane_map, endWord_fresh hd.2.2 hwait]
    have hid : idleLanes s k.guard = ((activeLanes s).filter fun x => !g x).map fun x => (x, LaneRes.ok wrNone) := by
      unfold idleLanes
      rw [hp, htk]
      refine congrArg (List.map _) (List.filter_congr ?_)
      intro x hx
      simp [List.contains_eq_mem, List.mem_filter, hx]
    rw [hid]
  have hkeys : ((((activeLanes s).filter g).map (fun x => (x, out x)) ++ ((activeLanes s).filter fun x => !g x).map fun x => (x, LaneRes.ok wrNone)).map (·.1))
      = (activeLanes s).filter g ++ (activeLanes s).filter fun x => !g x := by
    simp [Function.comp_def]
  have hmem : ∀ x, x ∈ (activeLanes s).filter g ++ (activeLanes s).filter (fun x => !g x) ↔ x ∈ activeLanes s := by
    intro x
    simp only [List.mem_append, List.mem_filter]
    cases g x <;> simp
  have hnd : ((activeLanes s).filter g ++ (activeLanes s).filter fun x => !g x).Nodup := by
    rw [List.nodup_append]
    refine ⟨hd.1.filter _, hd.1.filter _, ?_⟩
    intro a ha b hb hab
    have h1 := (List.mem_filter.1 ha).2
    have h2 := (List.mem_filter.1 hb).2
    rw [hab] at h1
    simp [h1] at h2
  have hfin := finishWord_ok s _ new (by rw [hkeys]; exact hnd) (by
    intro x hx
    rcases List.mem_append.1 hx with hx | hx
    · obtain ⟨y, hy, rfl⟩ := List.mem_map.1 hx
      obtain ⟨hya, hyg⟩ := List.mem_filter.1 hy
      obtain ⟨e, h1, h2, h3, h4, h5⟩ := henv y hya
      have := hr y hya e h1
      have ho : laneResult k.guard res e = out y := by simp only [laneResult, out, h2, h3, hyg, if_true]
      rw [ho] at this
      exact ⟨this.1, e.sf, e.th, h4, h5, this.2.2⟩
    · obtain ⟨y, hy, rfl⟩ := List.mem_map.1 hx
      obtain ⟨hya, hyg⟩ := List.mem_filter.1 hy
      obtain ⟨e, h1, h2, h3, h4, h5⟩ := henv y hya
      have := hr y hya e h1
      have hg : g y = false := by simpa using hyg
      have ho : laneResult k.guard res e = .ok wrNone := by simp only [laneResult, h3, hg]; rfl
      rw [ho] at this
      exact ⟨this.1, e.sf, e.th, h4, h5, this.2.2⟩)
  intro t
  have ht : t = { finishWord s (((activeLanes s).filter g).map (fun x => (x, out x)) ++ ((activeLanes s).filter fun x => !g x).map fun x => (x, LaneRes.ok wrNone))
        with focus := none } := hrun
  rw [hkeys] at hfin
  rw [ht]
  refine ⟨?_, ?_, ?_, hfin.2.2.2.1, ?_⟩
  · conv_lhs => rw [hfin.1]
  · intro x hx
    have := (hmem x).2 hx
    rw [← hkeys] at this
    obtain ⟨y, hy, rfl⟩ := List.mem_map.1 this
    exact hfin.2.1 y hy
  · intro y hy
    exact hfin.2.2.1 y (fun h => hy ((hmem y).1 h))
  · intro hw j
    refine hfin.2.2.2.2 ?_ j
    intro x hx r hrr
    rcases List.mem_append.1 hx with hx | hx
    · obtain ⟨y, hy, rfl⟩ := List.mem_map.1 hx
      obtain ⟨hya, hyg⟩ := List.mem_filter.1 hy
      obtain ⟨e, h1, h2, h3, h4, h5⟩ := henv y hya
      have ho : laneResult k.guard res e = out y := by simp only [laneResult, out, h2, h3, hyg, if_true]
      exact hw y hya e h1 r (by rw [ho]; exact hrr)
    · obtain ⟨y, hy, rfl⟩ := List.mem_map.1 hx
      cases hrr

/-- `settle` of writes in place: the thread is past its word. -/
theorem settle_ok {s : State} {sf : Sheaf} {th : Thread} {w : Wr} (hf : runForbids th w = false) (hp : inPlace s sf th (th.pc + 8) = true) :
    settle s sf th (.ok w) = .ok (retired th w) := by
  simp only [settle, hf, Bool.false_eq_true, if_false]
  have : moveTo s sf (pastWord (applyWr th w)) (th.pc + 8) false = .ok (pastWord { applyWr th w with pc := th.pc + 8 }) := by
    simp only [inPlace, Bool.and_eq_true, decide_eq_true_eq] at hp
    unfold moveTo
    rw [if_neg (not_not.2 hp.1)]
    cases hr : runnerOf s sf with
    | none => rfl
    | some r =>
      simp only [hr] at hp
      have hp2 := hp.2
      simp only [Bool.or_eq_true, decide_eq_true_eq] at hp2
      have hin : inHandler (pastWord (applyWr th w)) = inHandler th := rfl
      have hseg : (pastWord (applyWr th w)).seg = th.seg := rfl
      simp only [hin]
      by_cases h1 : inHandler th = true
      · rw [if_pos h1]; rfl
      · rw [if_neg h1]
        rcases hp2 with h2 | h2
        · exact absurd h2 h1
        · rw [h2]
          simp only [hseg, Bool.not_false, and_self, if_true]
          rfl
  rw [this]
  rfl

/-- `settle` of a transfer in place: the thread is at the target. -/
theorem settle_jump {s : State} {sf : Sheaf} {th : Thread} {w : Wr} {target : Word} (hf : runForbids th w = false) (hp : inPlace s sf th target = true) :
    settle s sf th (.jump w target) = .ok (moved th w target) := by
  simp only [settle, hf, Bool.false_eq_true, if_false]
  have : moveTo s sf (pastWord (applyWr th w)) target false = .ok (pastWord { applyWr th w with pc := target }) := by
    simp only [inPlace, Bool.and_eq_true, decide_eq_true_eq] at hp
    unfold moveTo
    rw [if_neg (not_not.2 hp.1)]
    cases hr : runnerOf s sf with
    | none => rfl
    | some r =>
      simp only [hr] at hp
      have hp2 := hp.2
      simp only [Bool.or_eq_true, decide_eq_true_eq] at hp2
      have hin : inHandler (pastWord (applyWr th w)) = inHandler th := rfl
      have hseg : (pastWord (applyWr th w)).seg = th.seg := rfl
      simp only [hin]
      by_cases h1 : inHandler th = true
      · rw [if_pos h1]; rfl
      · rw [if_neg h1]
        rcases hp2 with h2 | h2
        · exact absurd h2 h1
        · rw [h2]
          simp only [hseg, Bool.not_false, and_self, if_true]
          rfl
  rw [this]
  rfl

/-- A word that may advance in place meets no edge of its segment (R211). -/
theorem edgeFault_inPlace {e : Env} (h : inPlace e.s e.sf e.th (e.th.pc + 8) = true) : edgeFault e = none := by
  unfold edgeFault
  cases hr : runnerOf e.s e.sf with
  | none => rfl
  | some r =>
    simp only [inPlace, hr, Bool.and_eq_true, Bool.or_eq_true, decide_eq_true_eq] at h
    rcases h.2 with h2 | h2
    · simp [h2]
    · simp only [h2]; simp

theorem runForbids_none (th : Thread) : runForbids th wrNone = false := by
  unfold runForbids
  cases th.run <;> rfl

/-- A word whose lanes compute and write registers alone, once its own condition rules its faults out. -/
theorem compute_writes {i : Instr} {k : WordCfg} {f : Env → Except FaultInfo Wr} {ok : Env → Prop} {w : Env → Wr}
    (hi : ∀ s, exec i s = .next (compute k f s)) (hk : k.store = false)
    (hk2 : k.resolve = false) (hf : ∀ e, ok e → f e = .ok (w e)) : wordWrites i k ok w := by
  intro s hs
  obtain ⟨hd, hl⟩ := hs
  let res : Env → LaneRes := fun e => match f e with
    | .ok w => .ok w
    | .error fi => .fault fi
  have hres : ∀ x ∈ activeLanes s, ∀ e, laneEnv s k.guard x = some e →
      laneResult k.guard res e = .ok (if guardTrue e.th k.guard then w e else wrNone) := by
    intro x hx e he
    unfold laneResult
    by_cases hg : guardTrue e.th k.guard = true
    · rw [if_pos hg, if_pos hg]
      simp only [res, hf e (((hl x hx).2 e he).2 hg).1]
    · rw [if_neg hg, if_neg hg]
  have := runWord_lanes k (fun e s => (s, res e)) res (fun _ => rfl) s (fun x => match laneEnv s k.guard x with
    | some e => retired e.th (if guardTrue e.th k.guard then w e else wrNone)
    | none => threadStart) hd hk hk2 (fun x hx => (hl x hx).1) (by
    intro x hx e he
    rw [hres x hx e he]
    have hpl := ((hl x hx).2 e he).1
    refine ⟨rfl, ⟨.inl (edgeFault_inPlace (by rw [envOf_state he]; exact hpl)), rfl⟩, ?_⟩
    simp only [he]
    apply settle_ok
    · by_cases hg : guardTrue e.th k.guard = true
      · rw [if_pos hg]; exact (((hl x hx).2 e he).2 hg).2
      · rw [if_neg hg]; exact runForbids_none _
    · exact ((hl x hx).2 e he).1)
  refine ⟨_, hi s, this.1, ?_, this.2.2.1, this.2.2.2.1, ?_⟩
  · intro x hx e he
    have := this.2.1 x hx
    simp only [he] at this
    exact this
  · intro hw j
    refine this.2.2.2.2 ?_ j
    intro x hx e he r hr
    rw [hres x hx e he] at hr
    by_cases hg : guardTrue e.th k.guard = true
    · rw [if_pos hg] at hr
      have := hw x hx e he r hr
      omega
    · rw [if_neg hg] at hr; cases hr

/-- A word whose lanes act on their own threads alone. -/
theorem runWord_leaves {i : Instr} {k : WordCfg} {f : Env → State → State × LaneRes} {res : Env → LaneRes} {ok : Env → Prop} {new : Env → Thread}
    (hi : ∀ s, exec i s = .next (runWord k f s)) (hf : ∀ e : Env, f e e.s = (e.s, res e)) (hk : k.store = false) (hk2 : k.resolve = false)
    (hq : ∀ e, ok e → (res e).quietly = true ∧ resWaits (res e) = false) (hr : ∀ e, ok e → settle e.s e.sf e.th (res e) = .ok (new e)) : wordLeaves i k ok new := by
  intro s hs
  obtain ⟨hd, hl⟩ := hs
  have := runWord_lanes k f res hf s (fun x => match laneEnv s k.guard x with
    | some e => if guardTrue e.th k.guard then new e else retired e.th wrNone
    | none => threadStart) hd hk hk2 (fun x hx => (hl x hx).1) (by
    intro x hx e he
    have hed := edgeFault_inPlace (e := e) (by rw [envOf_state he]; exact ((hl x hx).2 e he).1)
    unfold laneResult
    simp only [he]
    by_cases hg : guardTrue e.th k.guard = true
    · simp only [hg, if_true]
      have h2 := hr e (((hl x hx).2 e he).2 hg)
      rw [envOf_state he] at h2
      exact ⟨(hq e (((hl x hx).2 e he).2 hg)).1, ⟨.inl hed, (hq e (((hl x hx).2 e he).2 hg)).2⟩, h2⟩
    · simp only [hg]
      exact ⟨rfl, ⟨.inl hed, rfl⟩, settle_ok (runForbids_none _) ((hl x hx).2 e he).1⟩)
  refine ⟨_, hi s, this.1, ?_, this.2.2.1, this.2.2.2.1⟩
  intro x hx e he
  have := this.2.1 x hx
  simp only [he] at this
  exact this

end Sys2Proof.Machine
end

