-- ==== Sys2Proof/Laws/Solo.lean ====
section
/-! SUPPORT. Words of one lane: where a single lane is the whole group, a word is its one evaluation and its one result. -/

namespace Sys2Proof.Machine

theorem maskLanes_zero (sh : Nat) : maskLanes sh 0 = [] := by
  unfold maskLanes
  rw [List.filter_eq_nil_iff.2]
  · rfl
  · intro k _; simp

theorem maskLanes_one (sh ln : Nat) (h : ln < 32) : maskLanes sh (BitVec.ofNat 32 (2 ^ ln)) = [(sh, ln)] := by
  unfold maskLanes
  have : ((List.range 32).filter fun k => (BitVec.ofNat 32 (2 ^ ln)).getLsbD k) = [ln] := by
    have hall : ∀ n : Fin 32, ((List.range 32).filter fun k => (BitVec.ofNat 32 (2 ^ n.val)).getLsbD k) = [n.val] := by decide
    exact hall ⟨ln, h⟩
  rw [this]; rfl

theorem activeLanes_one {s : State} {g : Guard} {sh ln : Nat} {sf : Sheaf} {th : Thread} (h : oneLane s g sh ln sf th) : activeLanes s = [(sh, ln)] := by
  obtain ⟨h1, h2, h3, _⟩ := h
  unfold activeLanes
  rw [h1]
  simp only [h3]
  cases sf.pair with
  | none => simp only [maskLanes_one sh ln h2]
  | some p => simp only [maskLanes_one sh ln h2, maskLanes_zero]; split <;> rfl

theorem thread_one {s : State} {g : Guard} {sh ln : Nat} {sf : Sheaf} {th : Thread} (h : oneLane s g sh ln sf th) : thread? s sh ln = some th := by
  obtain ⟨_, _, h3, h4, _⟩ := h
  unfold thread?
  rw [h3]; exact h4

theorem presentLanes_one {s : State} {g : Guard} {sh ln : Nat} {sf : Sheaf} {th : Thread} (h : oneLane s g sh ln sf th) : presentLanes s = [(sh, ln)] := by
  unfold presentLanes
  rw [activeLanes_one h]
  simp [thread_one h]

theorem takingLanes_one {s : State} {g : Guard} {sh ln : Nat} {sf : Sheaf} {th : Thread} (h : oneLane s g sh ln sf th) : takingLanes s g = [(sh, ln)] := by
  unfold takingLanes
  rw [presentLanes_one h]
  simp [thread_one h, h.2.2.2.2.1]

theorem idleLanes_one {s : State} {g : Guard} {sh ln : Nat} {sf : Sheaf} {th : Thread} (h : oneLane s g sh ln sf th) : idleLanes s g = [] := by
  unfold idleLanes
  rw [presentLanes_one h, takingLanes_one h]
  simp

theorem envOf_one {s : State} {g : Guard} {sh ln : Nat} {sf : Sheaf} {th : Thread} (h : oneLane s g sh ln sf th) :
    envOf s [(sh, ln)] [(sh, ln)] (sh, ln) = some (soloEnv s sh ln sf th) := by
  unfold envOf
  simp only [h.2.2.1, thread_one h]
  rfl

/-- A lane outside runs and runner launches, not asked for handler mode, is stopped by no word. -/
theorem wordStop_one {s : State} {g : Guard} {sh ln : Nat} {sf : Sheaf} {th : Thread} (h : oneLane s g sh ln sf th) (k : WordCfg)
    (hk : k.handler = false) : wordStop s k sh ln = none := by
  unfold wordStop
  simp only [h.2.2.1, thread_one h, hk, h.2.2.2.2.2.2.2.1, h.2.2.2.2.2.1]
  simp

theorem wordStops_one {s : State} {g : Guard} {sh ln : Nat} {sf : Sheaf} {th : Thread} (h : oneLane s g sh ln sf th) (k : WordCfg)
    (hk : k.handler = false) : wordStops s k = [] := by
  unfold wordStops
  rw [presentLanes_one h]
  simp [wordStop_one h k hk]

theorem countStore_one {s : State} {g : Guard} {sh ln : Nat} {sf : Sheaf} {th : Thread} (h : oneLane s g sh ln sf th) : countStore s [(sh, ln)] = s := by
  unfold countStore
  simp [thread_one h, h.2.2.2.2.2.1]

theorem fresh_one {s : State} {g : Guard} {sh ln : Nat} {sf : Sheaf} {th : Thread} (h : oneLane s g sh ln sf th) : fresh s := by
  intro x hx
  rw [h.1] at hx
  cases hx
  exact ⟨rfl, rfl⟩

/-- Outside runner launches no word meets the edge of a segment. -/
theorem edgeFault_one {s : State} {g : Guard} {sh ln : Nat} {sf : Sheaf} {th : Thread} (h : oneLane s g sh ln sf th) : edgeFault (soloEnv s sh ln sf th) = none := by
  unfold edgeFault
  simp only [soloEnv, h.2.2.2.2.2.2.2.1]

/-- A word in one lane that resolves nothing, or has nothing to resolve. -/
theorem runWordIn_one {s : State} {sh ln : Nat} {sf : Sheaf} {th : Thread} (k : WordCfg) (h : oneLane s k.guard sh ln sf th) (hk : k.handler = false)
    (he : entriesWait s k [(sh, ln)] = false) (order : List (Nat × Nat) → List (Nat × Nat)) (ho : order [(sh, ln)] = [(sh, ln)])
    (f : Env → State → State × LaneRes) (hw : resStops (f (soloEnv s sh ln sf th) s).2 = false) :
    runWordIn order k f s =
      { endWord (f (soloEnv s sh ln sf th) s).1 [] [((sh, ln), (f (soloEnv s sh ln sf th) s).2)] [] with focus := none } := by
  unfold runWordIn
  have hc : (if k.store = true then countStore s (presentLanes s) else s) = s := by
    rw [presentLanes_one h, countStore_one h]; simp
  have hev : evalLane f (soloEnv s sh ln sf th) s = f (soloEnv s sh ln sf th) s := by
    unfold evalLane
    rw [edgeFault_one h]
  simp only [wordStops_one h k hk, List.isEmpty_nil, Bool.not_true, Bool.false_eq_true, if_false, takingLanes_one h, he, ho, hc, idleLanes_one h]
  rw [presentLanes_one h, restLanes_fresh (fresh_one h)]
  simp only [evalLanes, List.append_nil, envOf_one h, hev, hw, Bool.false_eq_true, if_false, byLane]
  simp

/-- A word in one lane, lanes ascending. -/
theorem runWord_one {s : State} {sh ln : Nat} {sf : Sheaf} {th : Thread} (k : WordCfg) (h : oneLane s k.guard sh ln sf th) (hk : k.handler = false)
    (he : entriesWait s k [(sh, ln)] = false) (f : Env → State → State × LaneRes) (hw : resStops (f (soloEnv s sh ln sf th) s).2 = false) :
    runWord k f s = { endWord (f (soloEnv s sh ln sf th) s).1 [] [((sh, ln), (f (soloEnv s sh ln sf th) s).2)] [] with focus := none } :=
  runWordIn_one k h hk he id rfl f hw

theorem freeOrder_one (s : State) (x : Nat × Nat) : freeOrder s [x] = [x] := rfl

theorem atomOrder_one (s : State) (n : Nat) (x : Nat × Nat) : atomOrder s n [x] = [x] := by
  unfold atomOrder
  split <;> rfl

/-- A word-scope operation in one lane. -/
theorem wordScope_one {s : State} {sh ln : Nat} {sf : Sheaf} {th : Thread} (k : WordCfg) (h : oneLane s k.guard sh ln sf th) (hk : k.handler = false)
    (f : Env → State → State × (Nat → LaneRes)) :
    wordScope k f s = { endWord (f (soloEnv s sh ln sf th) s).1 [] [((sh, ln), (f (soloEnv s sh ln sf th) s).2 ln)] [] with focus := none } := by
  have hev : evalScope f (soloEnv s sh ln sf th) s = f (soloEnv s sh ln sf th) s := by
    unfold evalScope
    rw [edgeFault_one h]
  unfold wordScope
  simp only [wordStops_one h k hk, List.isEmpty_nil, Bool.not_true, Bool.false_eq_true, if_false, takingLanes_one h, presentLanes_one h, envOf_one h,
    idleLanes_one h, hev, List.map_cons, List.map_nil]

/-- One lane's result without a fault: its thread as it settles; nothing else of the state changes but the sheaf. -/
theorem finishWord_one {s : State} {sh ln : Nat} {sf : Sheaf} {th new : Thread} {r : LaneRes} (h1 : sheaf? s sh = some sf) (h2 : thread? s sh ln = some th)
    (hq : r.quietly = true) (h3 : settle s sf th r = .ok new) :
    finishWord s [((sh, ln), r)] = { s with sheaves := (finishWord s [((sh, ln), r)]).sheaves } ∧
      thread? (finishWord s [((sh, ln), r)]) sh ln = some new ∧
      (∀ y, y ≠ (sh, ln) → thread? (finishWord s [((sh, ln), r)]) y.1 y.2 = thread? s y.1 y.2) ∧
      ∀ k, (sheaf? (finishWord s [((sh, ln), r)]) k).map (fun sf => { sf with lanes := [], s := [] }) = (sheaf? s k).map (fun sf => { sf with lanes := [], s := [] }) := by
  have h := finishWord_ok s [((sh, ln), r)] (fun _ => new) (by simp) (by
    intro x hx
    simp only [List.mem_singleton] at hx
    subst hx
    exact ⟨hq, sf, th, h1, h2, h3⟩)
  exact ⟨h.1, h.2.1 ((sh, ln), r) (List.mem_singleton.2 rfl), fun y hy => h.2.2.1 y (by simpa using hy), h.2.2.2.1⟩

theorem soloEnv_parts (s : State) (sh ln : Nat) (sf : Sheaf) (th : Thread) : (soloEnv s sh ln sf th).parts = [(sh, ln)] := rfl

/-- With nothing on its way there is nothing of a lane's own to perform first. -/
theorem drainSome_quiet {s : State} (h : s.net = netEmpty) (sel : PStore → Bool) : drainSome s sel = s := by
  unfold drainSome
  simp only [h, netEmpty]
  rfl

theorem drainOwn_quiet {s : State} (h : s.net = netEmpty) (sh ln : Nat) : drainOwn s sh ln = s := by
  unfold drainOwn
  simp only [drainSome_quiet h, ackSome, h, netEmpty]
  rfl

/-- With no watch entry there is nothing to resolve. -/
theorem resolveWatch_quiet {s : State} (sh ln : Nat) (h : (coreAt s (coreOf sh)).watch = []) : resolveWatch s sh ln = (s, .clear) := by
  unfold resolveWatch watchPending watchStruck
  simp [h]

theorem laneEnv_one {s : State} {g : Guard} {sh ln : Nat} {sf : Sheaf} {th : Thread} (h : oneLane s g sh ln sf th) :
    laneEnv s g (sh, ln) = some (soloEnv s sh ln sf th) := by
  unfold laneEnv
  rw [activeLanes_one h]
  simp only [List.filter_cons, thread_one h, h.2.2.2.2.1, if_true, List.filter_nil]
  exact envOf_one h

theorem lanesDistinct_one {s : State} {g : Guard} {sh ln : Nat} {sf : Sheaf} {th : Thread} (h : oneLane s g sh ln sf th) : lanesDistinct s := by
  refine ⟨?_, ?_, fresh_one h⟩
  · rw [activeLanes_one h]; simp
  · rw [activeLanes_one h]; simp [thread_one h]

theorem runForbids_noRun {th : Thread} (h : th.run = none) (w : Wr) : runForbids th w = false := by unfold runForbids; rw [h]

/-- A single lane meets what a group is asked. -/
theorem lanesGoOn_one {s : State} {k : WordCfg} {sh ln : Nat} {sf : Sheaf} {th : Thread} (h : oneLane s k.guard sh ln sf th) (hk : k.handler = false)
    {ok : Env → Prop} {w : Env → Wr} (hok : ok (soloEnv s sh ln sf th)) (hp : inPlace s sf th (th.pc + 8) = true) : lanesGoOn s k ok w := by
  refine ⟨lanesDistinct_one h, ?_⟩
  rw [activeLanes_one h]
  intro x hx
  rw [List.mem_singleton] at hx
  subst hx
  refine ⟨wordStop_one h k hk, ?_⟩
  intro e he
  rw [laneEnv_one h] at he
  cases he
  exact ⟨hp, fun _ => ⟨hok, runForbids_noRun h.2.2.2.2.2.1 _⟩⟩

theorem lanesMay_one {s : State} {k : WordCfg} {sh ln : Nat} {sf : Sheaf} {th : Thread} (h : oneLane s k.guard sh ln sf th) (hk : k.handler = false)
    {ok : Env → Prop} (hok : ok (soloEnv s sh ln sf th)) (hp : inPlace s sf th (th.pc + 8) = true) : lanesMay s k ok := by
  refine ⟨lanesDistinct_one h, ?_⟩
  rw [activeLanes_one h]
  intro x hx
  rw [List.mem_singleton] at hx
  subst hx
  refine ⟨wordStop_one h k hk, ?_⟩
  intro e he
  rw [laneEnv_one h] at he
  cases he
  exact ⟨hp, fun _ => hok⟩

end Sys2Proof.Machine
end

