-- ==== Sys2Proof/Tests/Slice0.lean ====
section
/-! SUPPORT. Tests: ill-formed words for every check of R72, words written out from the encodings of the manual, single steps on small
states whose results come from the manual's examples and tables, and a witness for the hypotheses of every statement. -/

open Sys2Proof Sys2Proof.Machine

namespace Sys2Proof.Tests

set_option Elab.async false
set_option linter.unusedTactic false
set_option linter.unusedVariables false

/-! ### Small states -/

/-- The guard that always takes effect. -/
abbrev tG : Guard := { pn := 0, pg := 63 }

/-- An operand that is a register code. -/
def tR (n : Nat) : Spec11 := { reg := BitVec.ofNat 8 n, sel := 0 }

/-- An operand that is a capability register. -/
def tC (n : Nat) : Spec11 := { reg := BitVec.ofNat 8 (n / 8), sel := BitVec.ofNat 3 (n % 8) }

/-- A TRI body. -/
def tTri (d : Nat) (a b c : Spec11) (t : Nat) : Tri := { d := BitVec.ofNat 8 d, a := a, b := b, c := c, t := BitVec.ofNat 4 t }

/-- A capability over local HBM with colour 1. -/
def tCap (base len perm kind : Nat) : Cap :=
  { bits := capBits (BitVec.ofNat 52 (Config.selfDevice * 2 ^ 43 + base)) 0 (BitVec.ofNat 34 len) (BitVec.ofNat 10 perm) 1 (BitVec.ofNat 3 kind) 0 0 0,
    tag := true }

/-- The heap range of the tests: 4096 bytes in granule 1. -/
def tHeap : Cap := tCap 0x201000 4096 0x3FF 0

/-- One thread alone at offset 64 of the code capability, its word in focus. -/
def tState (th : Thread) : State :=
  { placeWord State.reset 0 with
    issue := [], focus := some { sh := 0, mask := 1, pairMask := 0, rest := 0, word := none },
    sheaves := [(0, { setupSheaf with lanes := [(0, { th with pc := 64 })] })] }

/-- A thread with some registers. -/
def tThread (g : Tab Word) (p : Tab Bool) (c : Tab Cap) : Thread := { setupThread with g := g, p := p, c := c }

/-- Bytes placed in memory. -/
def tMem (s : State) (l : List (Nat × List Byte)) : State := { s with mem := l.foldl (fun m x => writeMem m x.1 x.2) s.mem }

/-- Some lane alone meets the hypotheses of a word. -/
def tMeets (s : State) (h : Guard) (ok : Env → Prop) : Prop :=
  ∃ sf th, oneLane s h 0 0 sf th ∧ ok (soloEnv s 0 0 sf th)


/-- The lane that a state of the tests has in focus, as its word sees it: sheaf 0, thread 0. -/
def tSf (s : State) : Sheaf := (sheaf? s 0).getD setupSheaf
def tTh (s : State) : Thread := (Tab.at? (tSf s).lanes 0).getD setupThread
def tEnv (s : State) : Env := soloEnv s 0 0 (tSf s) (tTh s)

/-- Bodies of the other forms. -/
def tB (disp aux reg flags : Nat) : BF := { disp := BitVec.ofNat 25 disp, aux := BitVec.ofNat 8 aux, reg := BitVec.ofNat 8 reg, flags := BitVec.ofNat 4 flags }
def tS (d a num : Nat) : SF := { d := BitVec.ofNat 8 d, a := tR a, num := BitVec.ofNat 16 num, flags := 0, t := 0 }
def tX (a b c d f t : Nat) : XF :=
  { x0 := BitVec.ofNat 8 a, x1 := BitVec.ofNat 8 b, x2 := BitVec.ofNat 8 c, x3 := BitVec.ofNat 8 d, flags := BitVec.ofNat 9 f, t := BitVec.ofNat 4 t }
/-! ### States for capabilities, transfers and stack frames -/

/-- A sealing authority over the object types 0 to 255, with SEAL and UNSEAL. -/
def tAuth : Cap := { bits := capBits 0 0 256 0x0C0 1 5 0 0 0, tag := true }

/-- A stack capability of 4096 bytes. -/
def tStack : Cap := tCap 0x202000 4096 0x003 4

/-- A state whose stack capability is given, with 1024 in `g191`. -/
def tFrame (c1 : Cap) : State :=
  tState (tThread [(1, 5), (5, 128), (7, 1), (10, 16), (12, 64), (14, 8), (20, 0x3), (191, 1024)] [(1, true)]
    [(1, c1), (2, tHeap), (3, tAuth), (4, capSeal tHeap 8), (5, setupCode), (6, capSeal setupCode 0xFF)])

/-- Entries at the start of the code region: two, at offsets 64 and 128. -/
def tEntries (s : State) : State := tMem s [(setupBase, toBytes 4 2 ++ toBytes 4 64 ++ toBytes 4 128)]

/-- The state with capabilities of every kind and a stack. -/
def tCaps : State := tEntries (tFrame tStack)

/-- A run of two words at offset 64: RUNB 2, two NOPs, RUNE g4. -/
def tRunForm : State :=
  tMem (tFrame tStack) [(setupBase + 64, wordBytes 0x10B7E00000002FF0 ++ wordBytes 0x10A7E00000000FF0 ++ wordBytes 0x10A7E00000000FF0 ++
    wordBytes 0x10C7E0809FEFFFF0)]

/-! ### States for rejoining, exceptions, runs and pauses -/

/-- A second lane beside lane 0. -/
def tBeside (s : State) (ln : Nat) (th : Thread) : State :=
  { s with sheaves := s.sheaves.map fun e => (e.1, { e.2 with lanes := e.2.lanes ++ [(ln, { th with lane := ln, tid := ln })] }) }

/-- The sheaf changed. -/
def tSheaf (s : State) (f : Sheaf → Sheaf) : State := { s with sheaves := s.sheaves.map fun e => (e.1, f e.2) }

/-- Lane 0 changed. -/
def tLane (s : State) (f : Thread → Thread) : State := tSheaf s fun sf => { sf with lanes := sf.lanes.map fun l => (l.1, if l.1 = 0 then f l.2 else l.2) }

/-- The context changed. -/
def tCtx (s : State) (f : Ctx → Ctx) : State := { s with ctxs := s.ctxs.map fun e => (e.1, if e.1 = 1 then f e.2 else e.2) }

/-- The core changed. -/
def tCore (s : State) (f : CoreSt → CoreSt) : State := { s with cores := Tab.put s.cores 0 (f (coreAt s 0)) }

/-- A plain thread. -/
def tPlain : State := tState (tThread [(1, 5), (2, 0x100), (4, 0x11), (5, 0x22), (6, 40), (7, 128)] [(1, true)] [(2, tHeap)])

/-- A live member of the rejoin mask elsewhere: JOIN waits. -/
def tJoinWaits : State := tSheaf (tBeside tPlain 1 { setupThread with pc := 128 }) fun sf => { sf with j := [(0, 3)] }

/-- Both members at the JOIN, the first of them held: JOIN_RELEASE. -/
def tJoinMet : State :=
  tLane (tSheaf (tBeside tPlain 1 { setupThread with pc := 64, hold := some (.join 0) }) fun sf => { sf with j := [(0, 3)] }) fun th => { th with hold := some (.join 0) }

/-- Special registers with something in them, a watch entry and counters. -/
def tSpecial : State :=
  let p : Spr := { sprStart with frm := 3, fexc := 0x11, wrep := 0x80, wstat := 0x80020000, stklim := 0x40, cause := 0x10, faddr := 7, faddrhi := 8, fpc := 0x48, finfo := 9 }
  tCtx (tCore (tSheaf (tLane tPlain fun th => { th with spr := p }) fun sf => { sf with j := [(2, 9)] }) fun c => { c with pts := 77, watch := [{ sh := 0, ln := 0, line := 0x4020, w := 5, pts := 0, struck := false, inRun := false }] })
    fun c => { c with csel := [(1, 0x80000004), (2, 0x8000000A), (3, 0x80000001)], cnt := [(1, 9), (2, 10), (3, 11)], phmargin := 0x05000010, func := 3 }

/-- A lane in handler mode. -/
def tHandler : State :=
  tSheaf (tLane tPlain fun th => { th with park := some { sub := 2, inHandler := true }, spr := { th.spr with fpc := 0x90, cause := 0x10 } })
    fun sf => { sf with subs := [(2, { mask := 1, savedCode := tCap 0x200000 2048 5 1, inHandler := true })] }

/-- A waiting loss of a write, then an overrun. -/
def tLoss (n : Nat) : State := tLane tPlain fun th => { th with losses := (List.range n).map fun k => { addr := 0xFF800000201000 + k, colour := 1 }, lossMore := n / 2, overrun := some 9 }

/-- A parked lane and a handler to enter. -/
def tEnters : State :=
  tCtx (tSheaf (tLane (tEntries tPlain) fun th => { th with park := some { sub := 0, inHandler := false } })
    fun sf => { sf with subs := [(0, { mask := 1, savedCode := setupCode, inHandler := false })] }) fun c => { c with handler := setupCode, hentry := 1 }

/-- A run at its trailer, nothing buffered. -/
def tRunEnd (hold : Option Hold) : State :=
  let r : Run := { start := 40, n := 2, pos := 3, pub := [4], g0 := [(1, 9)], p0 := [], fexc0 := 0, stores := [], nst := 0, late := none, after := [], going := false }
  tCore (tLane tPlain fun th => { th with t := [(0, 3)], hold := hold, run := some r }) fun c => { c with watch := [{ sh := 0, ln := 0, line := 0x4020, w := 5, pts := 0, struck := false, inRun := true }] }

/-- A lane held for something. -/
def tHeld (s : State) (h : Hold) : State := tLane s fun th => { th with hold := some h }

/-- A runner launch of two segments: offsets 0 to 127 and from 128 on. -/
def tRunner : Runner :=
  { ovf := tCap 0x400000 0x10000 0x00B 0, rsize := 8, segs := [{ codeOff := 0, codeLen := 128, choice := 0, gather := 0, fifob := 4, holders := [0, 1], pending := none, draining := [] },
      { codeOff := 128, codeLen := 3968, choice := 1, gather := 16, fifob := 4, holders := [1, 2], pending := none, draining := [] }],
    fifos := [], depths := [], banks := [], threads := 4, exits := 1, started := true }

/-- A thread of a runner launch. -/
def tRunnerLane : State := { tPlain with launches := [(0, { setupLaunch with runner := some tRunner })] }

/-! ### States for memory -/

/-- The global address of a local address. -/
def tAddr (l : Nat) : Nat := Config.selfDevice * 2 ^ 43 + l

/-- A mailbox capability: header and two entries at 0x201200. -/
def tBox : Cap := tCap 0x201200 128 0x3FF 3

/-- A capability into the host window. -/
def tHostCap : Cap := tCap 0x40000000000 4096 0x3FF 0

/-- A thread with data to load and store, and a mailbox whose header is given. -/
def tData (head tail : Nat) : State :=
  let s := tMem (tState (tThread [(1, 5), (2, 0x40), (8, 0x11223344), (9, 0x55667788), (10, 0x33), (11, 0x44), (12, 7), (20, 0x1000)] [(1, true)]
      [(2, tHeap), (3, tHeap), (7, tBox), (8, tHostCap)]))
    [(0x201040, (List.range 32).map fun k => BitVec.ofNat 8 (0xF0 + k)), (0x201200, toBytes 4 head ++ toBytes 4 tail ++ toBytes 4 2),
     (0x201240, toBytes 16 tHeap.bits.toNat ++ toBytes 8 77 ++ toBytes 8 88)]
  { s with tags := [(0x201240 / 16, true), (0x201050 / 16, true)], teams := [(0, { setupTeam with slen := 256, sbase := 65536 })],
           cores := [(0, { coreReset with scratch := writeMem [] (65536 + 0x40) ((List.range 32).map fun k => BitVec.ofNat 8 (0x10 + k)), stags := [(4100, true)] })] }

/-- A copy of the line at 0x201000 in the data cache of core 0, whose lease ends at a time. -/
def tCopied (rts : Nat) : State :=
  tCore (tData 0 1) fun c => { c with pts := 8, dcache := [(0x201000 / 128, { data := BitVec.ofNat 1024 0xABCDEF, tags := 0, wts := 5, rts := rts, colour := 1, valid := 3, hint := 0, bank := 47, used := 1 })] }

/-- The state after an instruction, the same group in focus. -/
def tAfter (i : Instr) (s : State) : State := match exec i s with
  | .next t => { t with focus := s.focus }
  | _ => s

/-- A memory operand: `g2` scaled by one and a displacement, through a capability register. -/
def tM (d cap disp sz scope : Nat) : MF :=
  { d := BitVec.ofNat 8 d, cap := BitVec.ofNat 5 cap, off := 2, sc := 0, disp := BitVec.ofNat 12 disp, rh := 0, sz := BitVec.ofNat 3 sz, scope := BitVec.ofNat 2 scope, ord := 0 }

/-- A store of the lane on its way. -/
def tPosted : State := tAfter (.st tG (tM 8 2 0 2 0)) (tData 0 1)

/-- A watch entry of the lane, struck or pending. -/
def tWatch (struck : Bool) : State :=
  tLane (tCore (tData 0 1) fun c => { c with watch := [{ sh := 0, ln := 0, line := 0x4020, w := 5, pts := 0, struck := struck, inRun := false }] })
    fun th => { th with spr := { th.spr with wrep := 0x80 } }

/-- The lane in a run. -/
def tInRun : State :=
  let r : Run := { start := 40, n := 4, pos := 3, pub := [4], g0 := [], p0 := [], fexc0 := 0, stores := [], nst := 7, late := none, after := [], going := false }
  tLane (tData 0 1) fun th => { th with run := some r }

/-- A CSEND or a CRECV waiting for the mailbox's home. -/
def tMail (send : Bool) : State :=
  let m : Mail := { sh := 0, ln := 0, cap := tBox, carried := tHeap, word := 9, pred := 2, cd := 9, wreg := 14, sreg := 16 }
  let s := tHeld (tData 0 1) .mail
  { s with net := if send then { netEmpty with csends := [m] } else { netEmpty with crecvs := [m] } }

/-- The store that `tPosted` has on its way. -/
def tStore : PStore :=
  tPosted.net.stores.headD { sh := 9, ln := 9, who := { ctx := 0, launch := 0, stage := 0, teamid := 0, gangid := 0, tid := 0 }, core := 0, pts := 0, addr := 0, size := 0, data := 0, tagged := false,
                             cap := nullCap, hint := 0, kind := .plain, pos := 0, seq := 0 }

/-! ### States for banks, rendezvous points, signals and launches -/

/-- The team changed. -/
def tTeam (s : State) (f : Team → Team) : State := { s with teams := s.teams.map fun e => (e.1, if e.1 = 0 then f e.2 else e.2) }

/-- Bank 1 in a mode, with a switch in progress or none, reserved or not. -/
def tBank (m : BankMode) (sw : Option BankMode) (res : Bool) : State :=
  tCore (tData 0 1) fun c => { c with banks := [(1, { mode := m, switching := sw, reserved := res, byUnit := false, byCfg := false })] }

/-- Another context's team on the core. -/
def tShared : State := { tData 0 1 with teams := [(0, setupTeam), (1, { setupTeam with ctx := 2 })] }

/-- A lane that waits for a switch of bank 1. -/
def tBankWait : State := tHeld (tBank .cache (some .scratch) false) (.bank 1 9)

/-- The team's point 3 expects a number of arrivals and has had some; lane 1 waits there where asked. -/
def tRdv (expect arrived : Nat) (phase waits : Bool) : State :=
  tBeside (tTeam tPlain fun x => { x with rps := [(3, { expect := expect, arrived := arrived, turns := if phase then 1 else 0 })] }) 1
    { setupThread with pc := 64, hold := if waits then some (.rdv 3 (if phase then 1 else 0)) else none }

/-- A word in memory with a value, that a lane waits for. -/
def tSignal (v : Nat) (hold : Option Hold) : State := tLane (tMem (tData 0 1) [(0x201000, toBytes 8 v)]) fun th => { th with hold := hold }

/-- A phase timer that has run over. -/
def tTimer : State := tCtx (tTeam tPlain fun x => { x with phaseN := some 100, phaseCount := 107 }) fun c => { c with phmargin := 0x05000001 }

/-- A launch descriptor (R246) with an entry, gangs and a register count in units of 16. -/
def tDescBytes (entry gangs regs : Nat) : List Byte :=
  toBytes 16 setupCode.bits.toNat ++ toBytes 16 0 ++ toBytes 16 (tCap 0x201100 8 0x3FF 0).bits.toNat ++ toBytes 16 0 ++ toBytes 16 0 ++ toBytes 2 entry ++ toBytes 1 8 ++
    toBytes 1 gangs ++ toBytes 4 3 ++ toBytes 1 1 ++ toBytes 1 regs ++ toBytes 1 16 ++ toBytes 1 0 ++ toBytes 4 32 ++ toBytes 4 0 ++ toBytes 2 0 ++ toBytes 26 0

/-- A context with an object of two entries, one of them a kernel, and its cores. -/
def tObject (s : State) : State :=
  let o : Object := { handle := 1, lo := 0, hi := 64, gbase := 0, code := setupCode, entries := 2, time := 0,
                      kernels := [{ entry := 0, offset := 64, gang := 0, regs := 16, preds := 16, stages := 1, tiles := 0, scratch := 16 }], exports := [] }
  let s1 := tCtx (tEntries s) fun c => { c with objects := [o], slots := [(0, { gen := 4, launch := some 0 })] }
  { s1 with host := { s1.host with grants := [(1, [0, 1, 2])] } }

/-- A thread with a descriptor at the heap. -/
def tDesc (entry gangs regs : Nat) : State :=
  let s := tMem (tObject (tData 0 1)) [(0x201000, tDescBytes entry gangs regs)]
  { s with tags := [(0x201000 / 16, true), (0x201020 / 16, true)] }
/-! ### States for engines and the rake -/

/-- Tile 0 of the team of a state, with a number of rows done. -/
def tTile (st : TileState) (fmt : Nat) (flt : Bool) (prog : Nat) : State :=
  let x : Tile := { state := st, engine := false, flt := flt, cause := 0x14, faddr := 0xFF800000201080, prog := prog, fmt := BitVec.ofNat 4 fmt, team := 0, rows := 2,
                    pitch := 4, elems := 16, sbase := 4096, giv := false }
  tLane (tTeam (tCore (tData 0 1) fun c => { c with tiles := [(0, x)] }) fun t => { t with tcount := 2 }) fun th => { th with g := [(1, 5), (2, 0x40), (12, 0x0F01), (13, 64)] }

/-- A copy request at the head of the queue of core 0, for tile 0 with rows done. -/
def tCopyTile (drain : Bool) (prog : Nat) : State :=
  tCore (tTile (if drain then .draining else .filling) 2 false prog) fun c =>
    { c with copyq := [.tile 1 0 0 drain tHeap 0 128 0 false] }

/-- A command copy of 200 bytes at the head of the queue, with bytes done. -/
def tCopyCommand (done : Nat) (failed : Bool) : State :=
  tCore (tData 0 1) fun c => { c with copyq := [.command 1 0 tHeap tHeap (tCap 0x201800 8 0x3FF 0) 0 0x400 200 done true 0 failed] }

/-- A command block at 0x201400 and a sealed capability to it in `c9`. -/
def tCommand : State :=
  let s := tMem (tData 0 1) [(0x201400, toBytes 16 tHeap.bits.toNat ++ toBytes 16 tHeap.bits.toNat ++ toBytes 4 0 ++ toBytes 4 0x400 ++ toBytes 4 200 ++ toBytes 4 1 ++
    toBytes 16 (tCap 0x201800 8 0x3FF 0).bits.toNat)]
  let c : Cap := capField (capSeal (tCap 0x201400 64 1 2) 4) 15 3 2
  tLane { s with tags := [(0x201400 / 16, true), (0x201410 / 16, true), (0x201430 / 16, true)] } fun th => { th with c := [(2, tHeap), (9, c)] }

/-- The command with other flags in its block. -/
def tCommandFlags (n : Nat) : State := tMem tCommand [(0x20142C, toBytes 4 n)]

/-- The feeder of core 0 serving the team, with quads in queue 1. -/
def tFeeder (q : List QWord) (closed : Bool) (faulted : Option (Byte × Word)) : State :=
  tCore (tEntries tPlain) fun c => { c with feeder := { feederReset with team := some 0, ctx := 1, bank := 3, code := setupCode, closed := closed, faulted := faulted,
                                                                         queues := [(1, q)] },
                                            banks := [(3, { mode := .fifo, switching := none, reserved := true, byUnit := false, byCfg := false })] }

/-- No feeder, and banks in CACHE mode or none. -/
def tNoFeeder (banks : Bool) : State :=
  tCore (tEntries tPlain) fun c => { c with banks := if banks then [] else (List.range 48).map fun b => (b, { bankReset with mode := .scratch }) }

/-- A word of the feed program. -/
def tFeedWord (q : List QWord) : State :=
  let s := tFeeder q false none
  { s with sheaves := s.sheaves.map fun e => (feederBase, e.2), focus := some { sh := feederBase, mask := 1, pairMask := 0, rest := 0, word := none } }

/-- A RAKE capability over the first 1024 bytes of HBM, offsets and lengths in registers. -/
def tRake (entries passes : Nat) : State :=
  let c : Cap := tCap 0 1024 0x3FF 6
  let s := tLane tPlain fun th => { th with c := [(2, c), (4, tCap 48 16 3 0)], g := [(1, 7), (2, 32), (4, 64), (6, 5), (7, 1), (20, 1), (21, 3)] }
  let e : RakeEntry := { base := 0xFF80000000000020, len := 64, relocate := false, delta := 0, colour := 1, pass := none, unloads := none }
  let p : Nat → Pass := fun k => { number := k + 1, relocate := false, ranges := [], peers := [], swept := false, cursor := 0, leases := 0, origin := none, ctx := none }
  { s with rake := { entries := List.replicate entries e, running := if passes = 0 then none else some (p 0), waiting := ((List.range passes).drop 1).map p, last := passes } }

/-- A RAKE capability in `c2` and a mask of peers, fabric numbers 3 and 7, at 0x201000. -/
def tRakeMask : State :=
  tLane (tMem (tData 0 1) [(0x201000, toBytes 1 0x88)]) fun th => { th with c := [(2, tCap 0 1024 0x3FF 6), (5, tHeap)] }

/-- A pass over the ranges that hold bytes 32 to 127 of HBM, with capabilities in a register and in memory. -/
def tPass (relocate swept : Bool) (cursor : Nat) (origin : Option Nat) (peers : List Nat) : State :=
  let r : SweepRange := { base := tAddr 32, len := 96, relocate := relocate, delta := 256, colour := 1 }
  let p : Pass := { number := 4, relocate := relocate, ranges := [r], peers := peers, swept := swept, cursor := cursor, leases := 0, origin := origin, ctx := none }
  let s := tMem (tRake 1 0) [(48, toBytes 16 (tCap 64 16 3 0).bits.toNat), (64, toBytes 16 (tCap 160 16 3 0).bits.toNat)]
  { s with tags := [(3, true), (4, true)], rake := { s.rake with running := some p, last := 4 } }

/-- A pass of a context that stops. -/
def tPassStops : State :=
  let s := tCtx (tPass false false 0 none []) fun c => { c with state := .stopping }
  { s with rake := { s.rake with running := s.rake.running.map fun p => { p with ctx := some 1 } } }

/-- A pass that waits, with an entry that it marked. -/
def tPassWaits : State :=
  let s := tPass false false 0 none [7]
  { s with rake := { s.rake with running := none, waiting := s.rake.running.toList, entries := [{ base := tAddr 32, len := 64, relocate := false, delta := 0, colour := 1, pass := some 4, unloads := none }] } }

/-! ### States for groups, accumulators and arrays -/

/-- A group of dies 0 and 1 that reduces two lines of 32-bit integers into the heap, one word of each member waiting for line 0. -/
def tGroupDesc (type : Nat) : GroupDesc := { type := BitVec.ofNat 2 type, dies := [0, 1], peers := [], lines := 2, dest := [(0, tHeap)] }

/-- Group 5 with words contributed, its window in `c4`, and where asked a lane that waits for a generation. -/
def tGroup (type : Nat) (hold : Option Hold) : State :=
  let words : Nat → Tab (List Word) := fun m => (List.range 32).map fun i => (i, [BitVec.ofNat 32 (0xFFFFFFF0 * m + i), 1])
  let x : MrGroup := { desc := tGroupDesc type, valid := true, gens := [(0, 3), (1, 3)], contrib := [(0, words 0), (1, words 1)], atSwitch := [(0, [[1, 2]])],
                       delivered := [(1, 1)], owners := [], time := 0 }
  let s := tLane (tData 0 1) fun th => { th with c := [(2, tHeap), (4, tCap (0x60000000000 + 5 * 2 ^ 30) 1024 0x3FF 0)], g := [(1, 4), (2, 8), (3, 3)], hold := hold }
  { s with groups := [(5, x)] }

/-- Blocks 3 to 5 of the accumulators held by the team with something in them, so many MMAs pending on block 4, and others by another team. -/
def tAccs (others : List Nat) (pending : Nat) : State :=
  let own : Nat → Nat × AccBlock := fun b => (b, { team := some 0, words := [(8, 5), (9, BitVec.ofNat 32 (6 + b)), (500, 1)], pending := if b = 4 then pending else 0, freeing := false })
  let s := tCore tPlain fun c => { c with acc := (if others = [] then [own 3, own 4, own 5] else []) ++ others.map fun b => (b, { accReset with team := some 9 }) }
  tLane s fun th => { th with g := [(1, 4), (2, 3), (5, 0x11), (6, 0x22), (7, 0x33), (8, 0x44)] }

/-- Tiles 0 and 1 of the team, and accumulator block 4. -/
def tTiles (a b : Nat × Nat × Nat) (sa : TileState) : State :=
  let x : Tile := { tileReset with state := sa, fmt := BitVec.ofNat 4 a.1, rows := a.2.1, elems := a.2.2, pitch := 8, sbase := 4096 }
  let y : Tile := { tileReset with state := .ready, fmt := BitVec.ofNat 4 b.1, rows := b.2.1, elems := b.2.2, pitch := 8, sbase := 4096 + 256 }
  tTeam (tCore (tAccs [] 0) fun c => { c with tiles := [(0, x), (1, y)], scratch := writeMem [] 65536 ((List.range 64).map fun k => BitVec.ofNat 8 (k * 3)) })
    fun t => { t with tcount := 2, sbase := 65536, slen := 65536 }

/-- An operation at the head of array 0, its lane held. -/
def tArray (s : State) (op : ArrayOp) : State := tHeld (tCore s fun c => { c with array0 := { queue := [op], steps := 1, permit := 0 } }) .array

/-- A waiting ACCALLOC of two blocks. -/
def tAccWaits : State :=
  tHeld (tCore (tAccs [0, 1, 3] 0) fun c => { c with accq := [{ team := 0, sh := 0, mask := 1, pred := 2, dest := 9, m := 2, arr := 1 }] }) .acc

/-! ### States for homes, answers, dispatch and retirement -/

/-- Something on its way. -/
def tNet (s : State) (f : Net → Net) : State := { s with net := f s.net }

/-- A renewal on its way to the home of the line at 0x201000, which was last written at a time. -/
def tRenew (w : Option Nat) (colour : Nat) : State :=
  tNet (tAfter (.st tG (tM 8 2 0 2 3)) (tData 0 1)) fun n => { n with renews := [{ core := 0, line := 0x4020, pts := 9, w := w, colour := colour, hint := 0, sector := 0, seq := 0 }] }

/-- A reply on its way to core 0, which watches the line. -/
def tReply : State :=
  tNet (tWatch false) fun n => { n with replies := [{ core := 0, line := 0x4020, wts := 12, rts := 90, data := some (7, 0), colour := 1, hint := 0, sector := 0, fill := true }] }

/-- An acknowledgement on its way, of a write that performed or was lost. -/
def tAck (lost : Bool) : State :=
  let a : Ack := { sh := 0, ln := 0, who := { ctx := 1, launch := 0, stage := 0, teamid := 0, gangid := 0, tid := 0 }, core := 0, addr := tAddr 0x201000, size := 4, data := 7, tagged := false,
                   colour := 1, wts := 44, line := 0, tags := 0, hint := 0, lost := lost }
  tNet (tData 0 1) fun n => { n with acks := [a] }

/-- A conditional write-back of a line at a time. -/
def tWriteBack (wts : Nat) : State := tNet (tData 0 1) fun n => { n with wbs := [{ cluster := 0, line := 0x4020, data := 0x77, wts := wts, colour := 1 }] }

/-- The answer to a write-back on its way to a unit that holds the line. -/
def tWbReply (ok : Bool) : State :=
  let s := tNet (tData 0 1) fun n => { n with wbReplies := [{ cluster := 0, line := 0x4020, accepted := ok, wts := 8, data := 0x99, tags := 1, granule := false }] }
  let u : Upd := { sh := 0, ln := 0, who := { ctx := 1, launch := 0, stage := 0, teamid := 0, gangid := 0, tid := 0 }, addr := tAddr 0x201000, colour := 1 }
  let l : CaLine := { data := 0x77, tags := 0, wts := 4, rts := 4, colour := 1, outstanding := true, sent := [u], waiting := [], used := 1 }
  { s with clusters := [(0, { clusterReset with lines := [(0x4020, l)] })] }

/-- A store or a lane held at a granule that is in transit no more. -/
def tTransit (lane : Bool) : State :=
  let s := if lane then tHeld (tData 0 1) .transit else tData 0 1
  tNet s fun n => { n with held := if lane then [.lane 0 0 1] else tPosted.net.stores.map Held.store }

/-- Another access held at a granule that is in transit no more. -/
def tHeldIn (x : Held) : State := tNet (tData 0 1) fun n => { n with held := [x] }

/-- An access of the lane that left the device. -/
def tAway (peer : Bool) (w : Want) : State :=
  let r : Req := { sh := 0, ln := 0, want := w, cap := tHeap, addr := tAddr 0x201000, size := 4, data := 0, data2 := 0, pos := 0, port := 2 }
  tNet (tHeld (tData 0 1) .reply) fun n => if peer then { n with peerReqs := [r] } else { n with pcieReqs := [r] }

/-- A write to host memory that is ready to leave. -/
def tHostStore : State := tAfter (.st tG (tM 8 8 0 2 0)) (tData 0 1)

/-- A launch of one gang of eight threads whose stage set waits in cluster 0, and no team yet. -/
def tDealt : State :=
  let s := tCore (tObject tPlain) fun c => { c with banks := [(2, { bankReset with mode := .scratch })] }
  { s with sheaves := [], teams := [], launches := [(0, { setupLaunch with w := 8, signal := tCap 0x201100 8 0x3FF 0, scratch := 32, regs := 16, preds := 16 })],
           clusters := [(0, { clusterReset with queue := [{ launch := 0, index := 0 }] })] }

/-- Cluster 1 has sets that cluster 0 may take. -/
def tSteal (asking : Bool) : State :=
  let s := tDealt
  { s with host := { s.host with grants := [(1, [0, 7])] },
           clusters := [(0, { clusterReset with asking := if asking then some 1 else none }), (1, { clusterReset with queue := (List.range 6).map fun k => { launch := 0, index := k } })] }

/-- The team's only thread has exited. -/
def tExited : State := tLane (tData 0 1) fun th => { th with status := .exited }

/-- The launch is finished and nothing of it is left; a lane of its context waits for it. -/
def tFinished : State :=
  let s := tHeld (tObject (tData 0 1)) (.lwait 4096)
  { s with teams := [], launches := [(0, { setupLaunch with left := 0, signal := tCap 0x201100 8 0x3FF 0, handle := some 4096 }), (3, setupLaunch)],
           sheaves := s.sheaves.map fun e => (e.1, { e.2 with launch := 3, team := none }) }

/-! ### States for runner launches -/

/-- A packet of the launch to a segment and its holder. -/
def tPacket (seg holder tpc : Nat) : Packet :=
  { launch := 0, tpc := BitVec.ofNat 32 tpc, seg := seg, tid := 3, gangid := 1, teamid := 2, pts := 70, live := 0x0000000100000003, pred := 0x8001, spr := { sprStart with frm := 2, wrep := 16 },
    g189 := 9, g190 := 8, g191 := 7, c := (List.range 8).map fun k => (k, if k = 2 then tHeap else nullCap), g := [(0, 4), (1, 5), (32, 6)], holder := holder, sender := 0, old := false, stamp := 0 }

/-- A runner launch with something of its runner changed, and its ring owned. -/
def tRun (s : State) (f : Runner → Runner) : State :=
  { s with launches := [(0, { setupLaunch with w := 8, n := 1, g := 2, signal := tCap 0x201100 8 0x3FF 0, runner := some (f tRunner) })],
           granules := s.granules ++ [(2, 0x4001)], host := { s.host with grants := [(1, [0, 1, 2, 3])] } }

/-- Not started, and no team on its cores. -/
def tRunNew : State := { tRun tPlain (fun r => { r with started := false, threads := 16, exits := 0 }) with teams := [], sheaves := [] }

/-- Its threads have all ended. -/
def tRunOver : State := { tRun tPlain (fun r => { r with exits := 4 }) with teams := [], sheaves := [] }

/-- A lane of it travels to offset 136. -/
def tTravels : State := tRun (tHeld (tBeside tPlain 1 { setupThread with pc := 64 }) (.travel 136 64)) id

/-- A packet on its way. -/
def tRelay (full ring : Bool) : State :=
  let s := tNet (tRun tPlain fun r => { r with fifos := if full then [(0, (List.range 512).map fun _ => tPacket 0 0 64)] else [] }) fun n => { n with packets := [tPacket 0 0 64] }
  if ring then tMem s [(0x400004, [3])] else s

/-- A packet in the ring of segment 0. -/
def tRing : State :=
  let s := tMem (tRun tPlain id) [(0x400000, [2]), (0x400004, [3]), (0x400000 + 512 * 3, packetBytes (tPacket 0 0 64))]
  { s with tags := [((0x400000 + 512 * 3) / 16 + 7, true)] }

/-- A packet at the head of the FIFO of segment 0 at core 0, and a forming sheaf for it or none. -/
def tArrives (forming : Bool) : State :=
  let s := tRun tPlain fun r => { r with fifos := [(0, [tPacket 0 0 64, tPacket 0 0 72])] }
  let sf : Sheaf := { sheafEmpty with ctx := 1, launch := 0, width := 8, regs := 192, forming := some { seg := 0, tpc := 64, start := 0, stamps := [0] }, lanes := [(0, setupThread), (1, setupThread)] }
  { s with sheaves := if forming then [(5, sf)] else [], cycle := 64 }

/-! ### States for tenancy and host queues -/

/-- A host queue of context 1 with a ring of two commands at 0x201400. -/
def tQ (head tail : Nat) : QueueSt :=
  { ring := ringCap (tAddr 0x201400) 256 1, size := 2, head := head, tail := tail, ctx := 1, prio := 3, state := 0, func := 0, waited := 0, pending := false, slot := some 0,
    marked := none, raw := none, waiting := none, answered := none, buf := [], launch := none }

/-- A machine with some queues. -/
def tQueues (l : Tab QueueSt) : State := let s := tObject (tData 0 1); { s with host := { s.host with queues := l, vfEn := 2 } }

/-- The bytes of a command of a kind: 127 bytes and the kind. -/
def tQCommand (b : List Byte) (kind : Byte) : List Byte := (b ++ List.replicate 127 0).take 127 ++ [kind]

/-- A queue with a command at HEAD in its ring. -/
def tQBegin (kind : Byte) (head tail : Nat) : State := tMem (tQueues [(0, tQ head tail)]) [(0x201400 + 128 * (head % 2), tQCommand [1, 2, 3] kind)]

/-- A queue with a command in progress; its capability is the heap, whose first word is 9. -/
def tQAt (kind : Byte) (thr inc : Nat) : State :=
  tMem (tQueues [(0, { tQ 1 2 with state := 1, raw := some (tQCommand (toBytes 16 tHeap.bits.toNat ++ toBytes 8 (thr + 2 ^ 32 * 0 + inc)) kind, 1) })]) [(0x201000, toBytes 8 9)]

/-- A queue with a launch in progress, whose descriptor asks for an entry. -/
def tQLaunch (entry : Nat) : State := tQueues [(0, { tQ 1 2 with state := 1, raw := some (tQCommand (tDescBytes entry 2 2) 1, 5) })]

/-- The state a result holds. -/
def tNext (r : Result) (s : State) : State := match r with
  | .next t => { t with focus := s.focus }
  | _ => s

/-- A context in a state. -/
def tCtxIn (st : CtxState) (f : Ctx → Ctx) (s : State) : State := tCtx s fun c => f { c with state := st }

/-- A context that stops, with some dies' acknowledgements. -/
def tStopping (acks : List Nat) : State := tCtxIn .stopping (fun c => { c with why := some .quantum, acks := acks }) tPlain

/-- A context that is saved: its image, and its function's clusters. -/
def tSaved (st : CtxState) : State :=
  let s := tCtxIn .stopped (fun c => { c with why := some .quantum }) tPlain
  let s1 := { s with host := { s.host with grants := [(1, [0, 1, 2, 3, 4, 5, 6])], queues := [(0, tQ 0 1)], shares := [(0, [0])] } }
  tCtxIn st (fun c => { c with why := none }) (tNext (execSave 1 s1) s1)

/-- The quantum table: entry 3 gives function 0 two clusters and function 1 one. -/
def tQtab (shares : Tab (List Nat)) : State :=
  let e := 0x80000000000000000000000000000000#128 ||| BitVec.ofNat 128 (2 + 2 * 2 ^ 50 + 1 * 2 ^ 44 + 9 * 2 ^ 111 + 1 * 2 ^ 99)
  let s := tPlain
  { s with host := { s.host with qtab := [(3, e)], shares := shares, grants := [(1, [0, 1, 2, 3, 4, 5, 6])] } }

/-! ### States for the host's commands -/

/-- A command of 64 bytes: its code, its CID 7, and fields. -/
def tCmd (code : Nat) (l : List (Nat × List Byte)) : List Byte :=
  readMem ((l ++ [(0, toBytes 1 code), (2, toBytes 2 7)]).foldl (fun (m : Memory) (x : Nat × List Byte) => writeMem m x.1 x.2) []) 0 64

/-- A function whose admin ring holds a command, in a machine that has booted. -/
def tAdmin (fn : Nat) (s : State) : State :=
  let f := { funcReset with adminCtl := 1, adminTail := 1, colours := if fn = 0 then [] else [1, 2] }
  { s with boot := { s.boot with usable := true, done := true }, host := { s.host with vfEn := 6, funcs := [(fn, f)] } }

/-- The objects of `tObject` in a context in a state. -/
def tOwned (st : CtxState) : State := tAdmin 0 (tCtxIn st (fun c => { c with c0 := tHeap }) (tObject (tData 0 1)))

/-- A context alone, with granules of its colour, a save area in granule 9, and a queue. -/
def tOnly (st : CtxState) : State :=
  let s := { tOwned st with sheaves := [], teams := [], launches := [], granules := [(1, 0x4001), (4, 0x4001), (9, 0x4000)] }
  let s1 := tCtx s fun c => { c with saveBase := tAddr (9 * 2 ^ 21), saveLen := 2 ^ 21, cnt := [(0, 2 ^ 48 + 5), (1, 3)], ovf := 3 }
  { s1 with host := { s1.host with queues := [(3, { tQ 0 1 with marked := some 4 }), (4, { tQ 0 0 with ctx := 2 })] } }

/-- An object file with a code section of 16 bytes and no entry. -/
def tObjFile : List Byte :=
  toBytes 4 0x004F564C ++ toBytes 4 1 ++ toBytes 4 64 ++ toBytes 4 16 ++ toBytes 4 80 ++ toBytes 4 16 ++ toBytes 4 0 ++ toBytes 4 16 ++ toBytes 4 32 ++ List.replicate 24 0 ++ toBytes 4 0 ++
    toBytes 16 0 ++ List.replicate 16 0xAB

/-- A monitor point of the PF. -/
def tMonitor : State :=
  let s := tOwned .running
  { s with host := { s.host with monitors := [(0x12, { func := 0, kind := 1, quantity := 0, site := 3, colour := 1, min := 5, max := 9, bins := [(2, 7)] }),
                                              (0x13, { func := 4, kind := 1, quantity := 0, site := 3, colour := 1, min := 5, max := 9, bins := [] })] } }

/-- A window of function 1 on the heap of context 1, with a mask of rights. -/
def tWindow (mask : BitVec 10) : State :=
  let s := tOwned .running
  { s with host := { s.host with funcs := s.host.funcs ++ [(1, { funcReset with windows := [(2, { ctx := 1, off := 0, len := 4096, mask := mask, refusals := 3 })] })] } }

/-- A port in a state, with a route. -/
def tPort (st : Nat) : State := { tPlain with fabric := { tPlain.fabric with ports := [(3, { portReset with state := st, partner := 0x1FF, epoch := 2 })], pct := [(0, 0x800000003FF#64 ||| BitVec.ofNat 64 (5 * 2 ^ 34 + 9 * 2 ^ 22 + 2 ^ 10))] } }

/-- An inbound access of peer 5 through the capability of the heap, in colour 9 there. -/
def tInbound (op : IngressOp) (off size : Nat) (ok : Bool) : IngressReq :=
  { peer := 5, time := 3, cap := { bits := (capField tHeap 18 12 9).bits, home := 0, codeOk := ok }, op := op, off := off, size := size, data := 0x1122334455667788#128, data2 := 0,
    carried := none, sender := 0 }

/-- A state before boot, and what a boot meets. -/
def tBoot (record : Tab BootMark) : State := { State.reset with boot := { State.reset.boot with record := record } }
def tBootInput (bridges : Bool) : BootInput :=
  { imageA := [1], sigA := [2], imageB := [3], sigB := [4], stages := [5, 6], absentStackDies := [], sixCoreClusters := [4], failedPorts := [7], bridgesOk := bridges }


/-! ### Ill-formed terms -/

/-- A well-formed ADD.I32 g4, g1, g2. -/
def tAdd : Tri := tTri 4 (tR 1) (tR 2) (tR 0xFF) 0

/-- Each check of R72 refuses a term that breaks it alone: the term itself is well-formed, and each change of one field is refused. -/
theorem test_wf_good : Instr.wf (.add tG tAdd) = true := by decide +kernel
theorem test_wf_guard : Instr.wf (.add { pn := 0, pg := 48 } tAdd) = false ∧ Instr.wf (.add { pn := 1, pg := 63 } tAdd) = false := by decide +kernel
theorem test_wf_always : Instr.wf (.runb tG (tB 0 3 0xFF 0)) = true ∧ Instr.wf (.runb { pn := 0, pg := 3 } (tB 0 3 0xFF 0)) = false := by decide +kernel
theorem test_wf_unused : Instr.wf (.add tG { tAdd with c := tR 0 }) = false ∧ Instr.wf (.nop tG (tB 0 1 0xFF 0)) = false := by decide +kernel
theorem test_wf_register : Instr.wf (.add tG { tAdd with a := tR 0xF8 }) = false ∧ Instr.wf (.add tG { tAdd with d := 0xF1 }) = false := by decide +kernel
theorem test_wf_allocation : Instr.wfIn 64 48 (.add tG { tAdd with d := 60 }) = true ∧ Instr.wfIn 64 48 (.add tG { tAdd with d := 190 }) = true ∧
    Instr.wfIn 64 48 (.add tG { tAdd with d := 61 }) = false := by decide +kernel
theorem test_wf_predicates : Instr.wfIn 192 16 (.add { pn := 0, pg := 15 } tAdd) = true ∧ Instr.wfIn 192 16 (.add { pn := 0, pg := 16 } tAdd) = false := by decide +kernel
theorem test_wf_type : Instr.wf (.add tG { tAdd with t := 2 }) = false := by decide +kernel
theorem test_wf_wide : Instr.wf (.fadd tG { tAdd with t := 14 }) = false ∧ Instr.wf (.fadd tG (tTri 4 (tR 6) (tR 2) (tR 0xFF) 14)) = true := by decide +kernel
theorem test_wf_pair_dest : Instr.wf (.pairWord { op := 0, d := 4, a := 1, b := 2, i := 0 } { op := 14, d := 4, a := 3, b := 0, i := 0 } 0) = false := by decide +kernel
theorem test_wf_pair_bank : Instr.wf (.pairWord { op := 0, d := 4, a := 1, b := 5, i := 0 } { op := 14, d := 5, a := 3, b := 0, i := 0 } 0) = false := by decide +kernel
theorem test_wf_pair_immediate : Instr.wf (.pairWord { op := 0, d := 4, a := 1, b := 2, i := 0 } { op := 14, d := 5, a := 3, b := 0, i := 1 } 0) = false := by decide +kernel
theorem test_wf_row : Instr.wf (.ret tG (tB 0 0 0xFF 1)) = false := by decide +kernel

/-- The reasons of R72 that words report, one word for each: an all-zero word, FN 15 of PRED, op6 21 in a pair, PG 48, a C field of 0 in ADD.I32 g4, g1, g2, source
code 0xF8, g64 in an allocation of 64, type F32 on ADD, destination g5 of FADD.F64, and the three pairs that R69 names as illegal. -/
theorem test_reject :
    decode 192 48 0 = .error .unknownOpcode ∧ decode 192 48 0x05F7E08020087F80 = .error .unknownFunction ∧ decode 192 48 0xAA08020438140C00 = .error .unknownFunction ∧
    decode 192 48 0x0106008020087F80 = .error .badGuard ∧ decode 192 48 0x0107E08020080000 = .error .reservedField ∧
    decode 192 48 0x0107E09F00087F80 = .error .badRegister ∧ decode 64 48 0x0107E80020087F80 = .error .notAllocated ∧ decode 192 48 0x0107E08020087F82 = .error .badCode ∧
    decode 192 48 0x0807E0A0C0087F8E = .error .badWide ∧ decode 192 48 0x8008020438100C00 = .error .pairDest := by decide +kernel
theorem test_reject_pairs : decode 192 48 0x8008020404181700 = .error .pairBank ∧ decode 192 48 0x8008020438140C02 = .error .pairImmediate := by decide +kernel

/-! ### Words written out from the encodings of R56, R58, R60, R63, R64, R67 and R70 -/

/-- ADD.I32 g4, g1, g2: OP 0x01, FN 0, D 4, A 0x008, B 0x010, C unused. -/
theorem test_decode_add : decode 192 48 0x0107E08020087F80 = .ok (.add tG (tTri 4 (tR 1) (tR 2) (tR 0xFF) 0)) := by decide +kernel
/-- ADDI g190, g190, 40: OP 0x03, FN 0, IMM12 40. -/
theorem test_decode_addi : decode 192 48 0x0307F7D7C00A0000 = .ok (.addi tG { d := 190, a := tR 190, imm := 40, z := 0, t := 0 }) := by decide +kernel
/-- LIH g5, 0x12346: OP 0x04, IMM20. -/
theorem test_decode_lih : decode 192 48 0x0407E0A2468C0000 = .ok (.lih tG { d := 5, imm := 0x12346, z := 0, t := 0 }) := by decide +kernel
/-- ICMP.I32 p2, g1, g2, condition 2: OP 0x05, FN 0, the condition in the control byte. -/
theorem test_decode_icmp : decode 192 48 0x0507E04020080020 = .ok (.icmp tG (tTri 2 (tR 1) (tR 2) { reg := 0, sel := 2 } 0)) := by decide +kernel
/-- (p3) FFMA.F32 g4, g1, g2, g3: the worked word of the encoding file. -/
theorem test_decode_ffma : decode 192 48 0x0830608020080182 = .ok (.ffma { pn := 0, pg := 3 } (tTri 4 (tR 1) (tR 2) (tR 3) 2)) := by decide +kernel
/-- PACKBL.E4M3X4.F32.RNE.SAT g7, g1, g2: OP 0x09, FN 2, control byte 0x20 (STYPE F32, SAT, RNE), T 9. -/
theorem test_decode_packbl : decode 192 48 0x0927E0E020080209 = .ok (.packbl tG (tTri 7 (tR 1) (tR 2) (tR 4) 9)) := by decide +kernel
/-- FRCP.F32 g4, g1: OP 0x0A, FN 0, B and C unused. -/
theorem test_decode_sfu : decode 192 48 0x0A07E08023FC7F82 = .ok (.frcp tG (tTri 4 (tR 1) (tR 0xFF) (tR 0xFF) 2)) := by decide +kernel
/-- JOIN j0: OP 0x10, FN 7. -/
theorem test_decode_join : decode 192 48 0x1077E00000000FF0 = .ok (.join tG (tB 0 0 0xFF 0)) := by decide +kernel
/-- REDUX.I32 g2, g1, ADD, zero: OP 0x11, FN 5. -/
theorem test_decode_redux : decode 192 48 0x1157E04020007800 = .ok (.redux tG (tTri 2 (tR 1) (tR 0) (tR 0xF0) 0)) := by decide +kernel
/-- RDVAW rp0: OP 0x12, FN 3. -/
theorem test_decode_rdvaw : decode 192 48 0x1237FFFFE3FC0000 = .ok (.rdvaw tG (tTri 0xFF (tR 0xFF) (tR 0xFF) (tR 0) 0)) := by decide +kernel
/-- LIVE g2, zero: OP 0x13, FN 0. -/
theorem test_decode_live : decode 192 48 0x1307FFE043C07F80 = .ok (.live tG (tTri 0xFF (tR 2) (tR 0xF0) (tR 0xFF) 0)) := by decide +kernel
/-- LD.F32.ACQ g8, [c3 + g2*4 + 16]: the worked word of the encoding file. -/
theorem test_decode_ld : decode 192 48 0x1807E10302402029 = .ok (.ld tG { d := 8, cap := 3, off := 2, sc := 2, disp := 16, rh := 0, sz := 2, scope := 2, ord := 1 }) := by decide +kernel
/-- LDW.32 g1, [c2]: OP 0x18, FN 2. -/
theorem test_decode_ldw : decode 192 48 0x1827E022FF000028 = .ok (.ldw tG { d := 1, cap := 2, off := 0xFF, sc := 0, disp := 0, rh := 0, sz := 2, scope := 2, ord := 0 }) := by decide +kernel
/-- CAS.32.ACQ g2, [c2]: OP 0x18, FN 7. -/
theorem test_decode_cas : decode 192 48 0x1877E042FF000029 = .ok (.cas tG { d := 2, cap := 2, off := 0xFF, sc := 0, disp := 0, rh := 0, sz := 2, scope := 2, ord := 1 }) := by decide +kernel
/-- WSET pc + 10: OP 0x1B, FN 2. -/
theorem test_decode_wset : decode 192 48 0x1B27FFE0FF001400 = .ok (.wset tG { d := 0xFF, cap := 0, off := 0xFF, sc := 0, disp := 10, rh := 0, sz := 0, scope := 0, ord := 0 }) := by decide +kernel
/-- CSEND p1, c3, c7, g16: OP 0x20, FN 13. -/
theorem test_decode_csend : decode 192 48 0x20D7E0200C038800 = .ok (.csend tG (tTri 1 (tC 3) (tC 7) (tR 16) 0)) := by decide +kernel
/-- CNARROW c4, c3, g10, g12: OP 0x20, FN 6. -/
theorem test_decode_cnarrow : decode 192 48 0x2067E0800C280600 = .ok (.cnarrow tG (tTri 4 (tC 3) (tR 10) (tR 12) 0)) := by decide +kernel
/-- TFILL 3, c3, g4, g5: OP 0x28, FN 1. -/
theorem test_decode_tfill : decode 192 48 0x2817E0606080A000 = .ok (.tfill tG (tX 3 3 4 5 0 0)) := by decide +kernel
/-- FSTOP: OP 0x29, FN 4. -/
theorem test_decode_fstop : decode 192 48 0x2947FFFFFFFFE000 = .ok (.fstop tG (tX 0xFF 0xFF 0xFF 0xFF 0 0)) := by decide +kernel
/-- CMDRUN c5: OP 0x2A, FN 0. -/
theorem test_decode_cmdrun : decode 192 48 0x2A07FFE0BFFFE000 = .ok (.cmdrun tG (tX 0xFF 5 0xFF 0xFF 0 0)) := by decide +kernel
/-- MMA g8, 1, 2: OP 0x30, FN 0. -/
theorem test_decode_mma : decode 192 48 0x3007E100205FE000 = .ok (.mma tG (tX 8 1 2 0xFF 0 0)) := by decide +kernel
/-- ACCST.BF16X2.RNE.NAN 3, g8, g7: OP 0x30, FN 6, flags 2, T 4. -/
theorem test_decode_accst : decode 192 48 0x3067E06100FFE024 = .ok (.accst tG (tX 3 8 7 0xFF 2 4)) := by decide +kernel
/-- SRR g190, sr.fpc: OP 0x3C, FN 0, number 0x33. -/
theorem test_decode_srr : decode 192 48 0x3C07F7DFE000CC00 = .ok (.srr tG (tS 190 0xFF 0x33)) := by decide +kernel
/-- ERET: OP 0x3C, FN 3. -/
theorem test_decode_eret : decode 192 48 0x3C37FFFFE0000000 = .ok (.eret tG (tS 0xFF 0xFF 0)) := by decide +kernel
/-- ADD.I32 g4, g1, g2 || FMUL.F32 g5, g3, g0: the worked word of the encoding file. -/
theorem test_decode_pair : decode 192 48 0x8008020438140C00 = .ok (.pairWord { op := 0, d := 4, a := 1, b := 2, i := 0 } { op := 14, d := 5, a := 3, b := 0, i := 0 } 0) := by decide +kernel

/-! ### Single steps: results from the manual's tables and worked sequences, or by hand from its rules -/

/-- A general register, the flags and the pc of the lane in focus after an instruction. -/
def tG1 (i : Instr) (s : State) (n : Nat) : Word := gReg (tTh (tAfter i s)) n
def tFx (i : Instr) (s : State) : Word := (tTh (tAfter i s)).spr.fexc
def tPc (i : Instr) (s : State) : Word := (tTh (tAfter i s)).pc

/-- Registers for arithmetic. -/
def tRegs (l : Tab Word) : State := tState (tThread l [(1, true), (2, false)] [(2, tHeap)])

/-- ADD keeps the low bits (R54) and each packed element its own. -/
theorem test_add_wraps : tG1 (.add tG (tTri 4 (tR 1) (tR 2) (tR 0xFF) 0)) (tRegs [(1, 0xFFFFFFFF), (2, 2)]) 4 = 1 := by decide +kernel
theorem test_add_packed : tG1 (.add tG (tTri 4 (tR 1) (tR 2) (tR 0xFF) 7)) (tRegs [(1, 0x00FF80FF), (2, 0x01018001)]) 4 = 0x01000000 := by decide +kernel
/-- SUB reads A first; the destination may be a source. -/
theorem test_sub_order : tG1 (.sub tG (tTri 1 (tR 1) (tR 2) (tR 0xFF) 0)) (tRegs [(1, 5), (2, 7)]) 1 = 0xFFFFFFFE := by decide +kernel
theorem test_mulh_signs : tG1 (.mulh tG (tTri 4 (tR 1) (tR 2) (tR 0xFF) 0)) (tRegs [(1, 0xFFFFFFFF), (2, 3)]) 4 = 0xFFFFFFFF ∧
    tG1 (.mulhu tG (tTri 4 (tR 1) (tR 2) (tR 0xFF) 1)) (tRegs [(1, 0xFFFFFFFF), (2, 3)]) 4 = 2 := by decide +kernel
/-- Division by zero and the one quotient that overflows (R54). -/
theorem test_div_corners : tG1 (.div tG (tTri 4 (tR 1) (tR 2) (tR 0xFF) 0)) (tRegs [(1, 9), (2, 0)]) 4 = 0xFFFFFFFF ∧
    tG1 (.div tG (tTri 4 (tR 1) (tR 2) (tR 0xFF) 0)) (tRegs [(1, 0x80000000), (2, 0xFFFFFFFF)]) 4 = 0x80000000 ∧
    tG1 (.rem tG (tTri 4 (tR 1) (tR 2) (tR 0xFF) 0)) (tRegs [(1, 0xFFFFFFF9), (2, 2)]) 4 = 0xFFFFFFFF := by decide +kernel
/-- A shift takes its count modulo the width. -/
theorem test_shift_count : tG1 (.shl tG (tTri 4 (tR 1) (tR 2) (tR 0xFF) 0)) (tRegs [(1, 3), (2, 33)]) 4 = 6 ∧
    tG1 (.sar tG (tTri 4 (tR 1) (tR 2) (tR 0xFF) 0)) (tRegs [(1, 0x80000000), (2, 31)]) 4 = 0xFFFFFFFF := by decide +kernel
theorem test_addi_negative : tG1 (.addi tG { d := 4, a := tR 1, imm := 0xFFF, z := 0, t := 0 }) (tRegs [(1, 0)]) 4 = 0xFFFFFFFF := by decide +kernel
theorem test_lih : tG1 (.lih tG { d := 5, imm := 0x12346, z := 0, t := 0 }) (tRegs []) 5 = 0x12346000 := by decide +kernel
/-- A false guard writes nothing and the pc still passes the word (R57). -/
theorem test_guard_false : tG1 (.add { pn := 0, pg := 2 } (tTri 4 (tR 1) (tR 1) (tR 0xFF) 0)) (tRegs [(1, 5), (4, 9)]) 4 = 9 ∧
    tPc (.add { pn := 0, pg := 2 } (tTri 4 (tR 1) (tR 1) (tR 0xFF) 0)) (tRegs [(1, 5), (4, 9)]) = 72 := by decide +kernel
theorem test_icmp_signed : (tTh (tAfter (.icmp tG (tTri 3 (tR 1) (tR 2) { reg := 0, sel := 2 } 0)) (tRegs [(1, 0xFFFFFFFF), (2, 0)]))).p.lookup 3 = some true ∧
    ((tTh (tAfter (.icmp tG (tTri 3 (tR 1) (tR 2) { reg := 0, sel := 2 } 1)) (tRegs [(1, 0xFFFFFFFF), (2, 0)]))).p.lookup 3).getD false = false := by decide +kernel

/-- Four values to FP8 and back: the table of the sequence, each row from the registers of the row before. -/
def tFour (g7 fexc : Word) : State :=
  tLane (tRegs [(1, 0x3F800000), (2, 0x3E99999A), (3, 0x43EB0000), (4, 0xBA83126F), (7, g7), (8, 0x38383838), (9, 0)]) fun th => { th with spr := { th.spr with fexc := fexc } }
theorem test_packbl : (tG1 (.packbl tG (tTri 7 (tR 1) (tR 2) (tR 4) 9)) (tFour 0xFFFFFFFF 0) 7, tFx (.packbl tG (tTri 7 (tR 1) (tR 2) (tR 4) 9)) (tFour 0xFFFFFFFF 0)) =
    (0xFFFF2A38, 0x10) := by decide +kernel
theorem test_packbh : (tG1 (.packbh tG (tTri 7 (tR 3) (tR 4) (tR 4) 9)) (tFour 0xFFFF2A38 0x10) 7, tFx (.packbh tG (tTri 7 (tR 3) (tR 4) (tR 4) 9)) (tFour 0xFFFF2A38 0x10)) =
    (0x817E2A38, 0x1C) := by decide +kernel
theorem test_unpk : tG1 (.unpk tG (tTri 10 (tR 7) (tR 0xFF) { reg := 0x12, sel := 2 } 2)) (tFour 0x817E2A38 0x1C) 10 = 0x43E00000 := by decide +kernel
theorem test_dot4f : tG1 (.dot4f tG (tTri 11 (tR 7) (tR 8) (tR 9) 9)) (tFour 0x817E2A38 0x1C) 11 = 0x43E0A7C0 := by decide +kernel

/-- The table of conversions from F32 by CVT: E4M3 under SAT and NAN, and FP4. -/
theorem test_convert_table :
    [0x3F800000, 0x3E99999A, 0x43E80000, 0x43EB0000, 0xBA83126F].map (convert 2 9 0 0 false) =
      [some (0x38, 0), some (0x2A, 0x10), some (0x7E, 0x10), some (0x7E, 0x14), some (0x81, 0x18)] ∧
    [0x43E80000, 0x43EB0000].map (convert 2 9 0 2 false) = [some (0x7E, 0x10), some (0x7F, 0x14)] ∧
    [0x40200000, 0x40E00000].map (convert 2 12 0 0 false) = [some (4, 0x10), some (7, 0x14)] ∧
    convert 2 12 0 2 false 0x40E00000 = some (7, 0x34) ∧ convert 2 9 1 3 false 0x43EB0000 = some (0x7E, 0x10) := by decide +kernel

/-- The row of the worked ACCST with e = -1. -/
theorem test_accst_row : [0x3F800000, 0x43FA0000, 0xBA83126F, 0x7FC00000, 0].map (convertScaled 2 9 0 2 (-1)) =
    [some (0x30, 0), some (0x78, 0x10), some (0x80, 0x18), some (0x7F, 0), some (0, 0)] := by decide +kernel

/-- 1.5 + 2.25 = 3.75; a fused product of 3 and 5 with 1 is 16; a division by zero sets DZ and gives an infinity; the smaller of the zeros is -0. -/
theorem test_fadd : tG1 (.fadd tG (tTri 4 (tR 1) (tR 2) (tR 0xFF) 2)) (tRegs [(1, 0x3FC00000), (2, 0x40100000)]) 4 = 0x40700000 := by decide +kernel
theorem test_ffma : tG1 (.ffma tG (tTri 4 (tR 1) (tR 2) (tR 3) 2)) (tRegs [(1, 0x40400000), (2, 0x40A00000), (3, 0x3F800000)]) 4 = 0x41800000 := by decide +kernel
theorem test_fdiv_zero : tG1 (.fdiv tG (tTri 4 (tR 1) (tR 2) (tR 0xFF) 2)) (tRegs [(1, 0x3F800000), (2, 0x80000000)]) 4 = 0xFF800000 ∧
    tFx (.fdiv tG (tTri 4 (tR 1) (tR 2) (tR 0xFF) 2)) (tRegs [(1, 0x3F800000), (2, 0x80000000)]) = 2 := by decide +kernel
theorem test_fmin_zero : tG1 (.fmin tG (tTri 4 (tR 1) (tR 2) (tR 0xFF) 2)) (tRegs [(1, 0), (2, 0x80000000)]) 4 = 0x80000000 := by decide +kernel
theorem test_fsqrt : tG1 (.fsqrt tG (tTri 4 (tR 1) (tR 0xFF) (tR 0xFF) 2)) (tRegs [(1, 0x41100000)]) 4 = 0x40400000 := by decide +kernel
theorem test_fexp2_exact : tG1 (.fexp2 tG (tTri 4 (tR 1) (tR 0xFF) (tR 0xFF) 2)) (tRegs [(1, 0x40400000)]) 4 = 0x41000000 := by decide +kernel

/-- The divergent gang: lanes 0, 2, 4 and 6 of a gang of 8 in focus, `g1` as in the table, `g6` the lane less one, `g7` 100. -/
def tGang (focus : Word) : State :=
  let th : Nat → Thread := fun k =>
    { tThread [(1, BitVec.ofNat 32 ([5, 3, 8, 1, 9, 2, 7, 4].getD k 0)), (6, BitVec.ofNat 32 (k + 2 ^ 32 - 1)), (7, 100)] [(1, k % 2 == 0)] [] with lane := k, tid := k, pc := 64 }
  { placeWord State.reset 0 with
    issue := [], focus := some { sh := 0, mask := focus, pairMask := 0, rest := 0, word := none },
    sheaves := [(0, { setupSheaf with width := 8, lanes := (List.range 8).map fun k => (k, th k) })] }
/-- `g`n in the lanes of the gang after an instruction. -/
def tGangReg (i : Instr) (focus : Word) (n : Nat) : List Word := (tSf (tAfter i (tGang focus))).lanes.map fun l => gReg l.2 n
theorem test_redux_divergent : tGangReg (.redux tG (tTri 2 (tR 1) (tR 0) (tR 0xF0) 0)) 0x55 2 = [29, 0, 29, 0, 29, 0, 29, 0] := by decide +kernel
theorem test_redux_whole : tGangReg (.redux tG (tTri 9 (tR 1) (tR 0) (tR 0xF0) 0)) 0xFF 9 = [39, 39, 39, 39, 39, 39, 39, 39] := by decide +kernel
theorem test_shfl_divergent : tGangReg (.shfl tG (tTri 3 (tR 1) (tR 6) (tR 7) 0)) 0x55 3 = [100, 0, 5, 0, 8, 0, 9, 0] := by decide +kernel
theorem test_ballot : tGangReg (.ballot tG (tTri 8 (tR 1) (tR 0) (tR 0xFF) 0)) 0xFF 8 = List.replicate 8 0x55 := by decide +kernel
theorem test_jmark : Tab.get 0 (tSf (tAfter (.jmark tG (tB 0 0 0xFF 0)) (tGang 0xFF))).j 0 = 0xFF := by decide +kernel

/-- The capability worked through: its 128 bits, and the outcomes of its table. -/
def tWorked (tag : Bool) : Cap := { bits := capBits (BitVec.ofNat 52 0xFF80040000000) 0 0x80 3 0x2A1 0 0 0 0, tag := tag }
theorem test_cap_bits : (tWorked true).bits = 0xFF8004000000000000008000CA840000 := by decide +kernel
theorem test_cap_table :
    checkCap 0x1FF 0x00010000000002A1 (tWorked true) accLoad 124 4 4 = .ok 0xFF8004000007C ∧ checkCap 0x1FF 0x00010000000002A1 (tWorked true) accLoad 128 4 4 = .error 0x14 ∧
    checkCap 0x1FF 0x00010000000002A1 (tWorked true) accStore 2 4 4 = .error 0x16 ∧ checkCap 0x1FF 0x00010000000002A1 (tWorked true) (accAtomic true) 0 4 4 = .error 0x13 ∧
    checkCap 0x1FF 0x0001000000000115 (tWorked true) accLoad 200 4 4 = .error 0x15 ∧ checkCap 0x1FF 0x0001000000000115 (tWorked false) accLoad 200 4 4 = .error 0x10 := by decide +kernel

/-- Memory is little-endian, LD of a byte extends its sign where the size code asks, and CAS answers the old value. -/
theorem test_load_little_endian : tG1 (.ld tG (tM 4 2 0 2 0)) (tData 0 1) 4 = 0xF3F2F1F0 := by decide +kernel
theorem test_store_bytes : (let s := tAfter (.st tG (tM 8 2 0 2 0)) (tData 0 1); s.net.stores.map fun p => (p.addr, p.size, p.data)) = [(tAddr 0x201040, 4, 0x11223344)] := by decide +kernel

/-- Bytes and halfwords extend their signs under SZ 101 and 110 and not under 000 and 001. -/
theorem test_load_signs : tG1 (.ld tG (tM 4 2 0 5 0)) (tData 0 1) 4 = 0xFFFFFFF0 ∧ tG1 (.ld tG (tM 4 2 0 0 0)) (tData 0 1) 4 = 0xF0 ∧
    tG1 (.ld tG (tM 4 2 0 6 0)) (tData 0 1) 4 = 0xFFFFF1F0 := by decide +kernel
/-- CAS answers the old value; the bytes change where the pair's first register equals it. -/
def tCas (expect : Word) : State := tLane (tData 0 1) fun th => { th with g := (8, expect) :: th.g.filter fun x => x.1 ≠ 8 }
theorem test_cas_succeeds : tG1 (.cas tG (tM 8 2 0 2 0)) (tCas 0xF3F2F1F0) 8 = 0xF3F2F1F0 ∧
    readMem (tAfter (.cas tG (tM 8 2 0 2 2)) (tCas 0xF3F2F1F0)).mem 0x201040 4 = toBytes 4 0x55667788 := by decide +kernel
theorem test_cas_fails : tG1 (.cas tG (tM 8 2 0 2 2)) (tCas 1) 8 = 0xF3F2F1F0 ∧
    readMem (tAfter (.cas tG (tM 8 2 0 2 2)) (tCas 1)).mem 0x201040 4 = toBytes 4 0xF3F2F1F0 := by decide +kernel
theorem test_atom_add : tG1 (.atomAdd tG (tM 8 2 0 2 2)) (tData 0 1) 8 = 0xF3F2F1F0 ∧
    readMem (tAfter (.atomAdd tG (tM 8 2 0 2 2)) (tData 0 1)).mem 0x201040 4 = toBytes 4 0x05152534 := by decide +kernel
/-- A store takes the tag of its granule. -/
theorem test_store_clears_tag : Tab.get false (tAfter (.atomAdd tG (tM 8 2 0x10 2 2)) (tData 0 1)).tags (0x201050 / 16) = false := by decide +kernel
theorem test_scratch : tG1 (.lds tG { tM 4 0 0 2 0 with cap := 0 }) (tData 0 1) 4 = 0x13121110 := by decide +kernel

/-- CNARROW of [16, 16 + 64) and its refusals; CGETL of the heap. -/
theorem test_cnarrow : let t := tAfter (.cnarrow tG (tTri 9 (tC 2) (tR 10) (tR 12) 0)) tCaps
    (capBase (cReg (tTh t) 9), capLen (cReg (tTh t) 9), (cReg (tTh t) 9).tag) = (tAddr 0x201010, 64, true) := by decide +kernel
theorem test_cgetl : tG1 (.cgetl tG (tTri 20 (tC 2) (tR 0xFF) (tR 0xFF) 0)) tCaps 20 = 4096 := by decide +kernel

/-- Transfers: BRA by -8, LOOP at 1 goes on, CALL keeps the following offset in g189. -/
theorem test_bra : tPc (.bra tG (tB 0x1FFFFFF 0 0xFF 0)) tPlain = 56 := by decide +kernel
theorem test_loop : tPc (.loop tG (tB 2 0 7 0)) (tRegs [(7, 2)]) = 80 ∧ tG1 (.loop tG (tB 2 0 7 0)) (tRegs [(7, 2)]) 7 = 1 ∧ tPc (.loop tG (tB 2 0 7 0)) (tRegs [(7, 1)]) = 72 := by decide +kernel
theorem test_call : tPc (.call tG (tB 8 0 0xFF 0)) tPlain = 128 ∧ tG1 (.call tG (tB 8 0 0xFF 0)) tPlain 189 = 72 := by decide +kernel
/-- ENTER of 16 * 64 bytes fits exactly over a limit of 0; one more unit overflows. -/
theorem test_enter : tG1 (.enter tG (tB 64 0 0xFF 0)) (tFrame tStack) 191 = 0 ∧ (tTh (tAfter (.enter tG (tB 65 0 0xFF 0)) (tFrame tStack))).spr.cause ≠ 0 := by decide +kernel

/-- A TRAP parks its lane with cause 0x51 and the following word's offset; ERET takes it back. -/
theorem test_trap : let th := tTh (tAfter (.trap tG (tS 0xFF 0xFF 5)) tPlain); (th.park.isSome, th.spr.cause, th.spr.fpc, th.spr.finfo) = (true, 0x51, 72, 0x500) := by decide +kernel
theorem test_eret : let th := tTh (tAfter (.eret tG (tS 0xFF 0xFF 0)) tHandler); (th.park, th.pc, th.code) = (none, 0x90, tCap 0x200000 2048 5 1) := by decide +kernel
theorem test_misaligned_load : (tTh (tAfter (.ld tG (tM 4 2 2 2 0)) (tData 0 1))).spr.cause = 0x16 := by decide +kernel
theorem test_srr : tG1 (.srr tG (tS 8 0xFF 0x33)) tSpecial 8 = 0x48 := by decide +kernel
theorem test_srw_fexc : (tTh (tAfter (.srw tG (tS 0xFF 2 0x01)) (tRegs [(2, 0xFFFFFFFF)]))).spr.fexc = 0x3F := by decide +kernel
theorem test_exit : (tTh (tAfter (.exit tG (tB 0 0 0xFF 0)) tPlain)).status = .exited := by decide +kernel

/-- TDEF's READY tile; ACCALLOC of 16 blocks where 112 to 127 are free, and of 32 where none are, to a team that holds blocks. -/
def tWorkedAccs : State :=
  tCore tPlain fun c => { c with acc := (List.range 64).map (fun b => (b, { accReset with team := some 9 })) ++ (List.range 48).map fun b => (64 + b, { accReset with team := some 0 }) }
theorem test_accalloc_u : tG1 (.accalloc tG (tX 2 9 16 0xFF 1 0)) tWorkedAccs 9 = 112 := by decide +kernel
theorem test_accalloc_fails : tG1 (.accalloc tG (tX 1 8 32 0xFF 1 0)) tWorkedAccs 8 = 0xFFFFFFFF := by decide +kernel

/-- The home of the worked leases: A's copy is of time 100, the line was last written at 165 with no lease beyond it, and A asks at 170. -/
def tLeases (wts rts : Nat) : State :=
  let s := tNet (tMem (tData 0 1) [(0x201000, [7, 0, 0, 0])]) fun n => { n with renews := [{ core := 0, line := 0x4020, pts := 170, w := some 100, colour := 1, hint := 0, sector := 0, seq := 0 }] }
  { s with slices := [(homeOf 0x4020, { sliceReset with sets := [(setOf 0x4020, [{ line := 0x4020, wts := wts, rts := rts, hint := 0, dirty := false }])] })] }
def tLeaseReply (wts rts : Nat) : Nat × Nat × Option Nat :=
  match (tNext (execHomeRenew 0 (tLeases wts rts)) (tLeases wts rts)).net.replies with
  | [r] => (r.wts, r.rts, r.data.map fun d => d.1.toNat % 2 ^ 32)
  | _ => (0, 0, none)
/-- The row of step 3, and the row without step 1: rts becomes Max(165, 229, 234) or Max(164, 164, 234), and the data comes only where wts differs from 100. -/
theorem test_lease_rows : tLeaseReply 165 165 = (165, 234, some 7) ∧ tLeaseReply 100 164 = (100, 234, none) := by decide +kernel

/-! ### Witnesses: states and operands that meet the hypotheses of each statement -/

/-- States and operands that meet the hypotheses of `IntegerArithmetic`, each clause at a boundary of its range. -/
theorem meets_IntegerArithmetic :
    ((fun (t k : Nat) => t ∈ [0, 1, 5, 6, 7, 8, 11, 13] ∧ k < 32 / elemWidth t) 13 7) ∧
    ((fun (t k : Nat) => t ∈ [0, 1, 5, 6, 7, 8, 11, 13] ∧ k < 32 / elemWidth t) 0 0) ∧
    ((fun (t k : Nat) => t ∈ [0, 1, 5, 6, 7, 8, 11, 13] ∧ k < 32 / elemWidth t) 11 3) ∧
    ((fun (y : Word) => y ≠ 0) 0xFFFFFFFF) := by
  refine ⟨?_, ?_, ?_, ?_⟩ <;> (beta_reduce; decide +kernel)

/-- States and operands that meet the hypotheses of `ReductionTree`, each clause at a boundary of its range. -/
theorem meets_ReductionTree :
    ((fun (k : Nat) (l : List DWord) => l.length = 2 ^ (k + 1)) 0 ([1, 2] : List DWord)) ∧
    ((fun (k : Nat) (l : List DWord) => l.length = 2 ^ (k + 1) ∧ k < 6) 5 (List.replicate 64 1 : List DWord)) := by
  refine ⟨?_, ?_⟩ <;> (beta_reduce; decide +kernel)

/-- States and operands that meet the hypotheses of `ConversionWordsComplete`, each clause at a boundary of its range. -/
theorem meets_ConversionWordsComplete :
    ((fun (o : Tri) (out : List Nat × Word) (e : Env) => oneLane e.s tG e.sh e.ln e.sf e.th ∧ convertAll (stype o) o.t.toNat (rmodeOf o) (policyOf o) (frmFTZ e.th.spr.frm) 0 (elemsT e o.a (stype o)) = .ok out) (tTri 7 (tR 1) (tR 2) { reg := 4, sel := 0 } 9) (([0x38], 0)) (tEnv (tState (tThread [(1, 0x3F800000), (2, 0x40000000)] [] [])))) ∧
    ((fun (o : Tri) (out : List Nat × Word) (e : Env) => oneLane e.s tG e.sh e.ln e.sf e.th ∧ convertAll (stype o) o.t.toNat (rmodeOf o) (policyOf o) (frmFTZ e.th.spr.frm) 0 ([(src e o.a (stype o)).toNat, (src e o.b (stype o)).toNat]) = .ok out) (tTri 7 (tR 1) (tR 2) { reg := 4, sel := 0 } 9) (([0x38, 0x40], 0)) (tEnv (tState (tThread [(1, 0x3F800000), (2, 0x40000000)] [] [])))) ∧
    ((fun (o : Tri) (out : List Nat × Word) (e : Env) => oneLane e.s tG e.sh e.ln e.sf e.th ∧ convertAll (stype o) o.t.toNat (rmodeOf o) (policyOf o) (frmFTZ e.th.spr.frm) 0 (elemsT e o.a (stype o) ++ elemsT e o.b (stype o)) = .ok out) (tTri 7 (tR 1) (tR 2) { reg := 4, sel := 0 } 12) (([0x2, 0x4], 0)) (tEnv (tState (tThread [(1, 0x3F800000), (2, 0x40000000)] [] [])))) := by
  refine ⟨?_, ?_, ?_⟩ <;> (beta_reduce; decide +kernel)

/-- States and operands that meet the hypotheses of `CapabilityDerivationsComplete`, each clause at a boundary of its range. -/
theorem meets_CapabilityDerivationsComplete :
    ((fun (o : Tri) (ls : Nat) (l : Nat) (e : Env) => (fun a => (fun plain => (fun off => (fun len => oneLane e.s tG e.sh e.ln e.sf e.th ∧ inPlace e.s e.sf e.th (e.th.pc + 8) = true ∧ (plain e ∧ off e + len e ≤ capLen (a e) ∧ canonLen (len e) = some (ls, l))) (fun (e : Env) => (codePair e o.c.reg).toNat)) (fun (e : Env) => (codePair e o.b.reg).toNat)) (fun (e : Env) => (a e).tag = true ∧ capSealed (a e) = false)) (fun (e : Env) => cReg e.th o.a.num)) (tTri 9 (tC 2) (tR 20) (tR 12) 0) 0 64 (tEnv tCaps)) ∧
    ((fun (o : Tri) (e : Env) => (fun a => (fun plain => oneLane e.s tG e.sh e.ln e.sf e.th ∧ inPlace e.s e.sf e.th (e.th.pc + 8) = true ∧ plain e) (fun (e : Env) => (a e).tag = true ∧ capSealed (a e) = false)) (fun (e : Env) => cReg e.th o.a.num)) (tTri 9 (tC 2) (tR 1) (tR 8) 0) (tEnv tCaps)) ∧
    ((fun (o : Tri) (e : Env) => (fun a => (fun b => (fun plain => (fun ot => (fun authority => oneLane e.s tG e.sh e.ln e.sf e.th ∧ inPlace e.s e.sf e.th (e.th.pc + 8) = true ∧ plain e ∧ authority e 6 ∧ ot e ≠ 0xFF ∧ capBase (b e) ≤ ot e ∧ ot e < capBase (b e) + capLen (b e) ∧ (src e o.c 1).toNat / 256 % 8 = 0) (fun (e : Env) (bit : Nat) => (b e).tag = true ∧ capSealed (b e) = false ∧ capKind (b e) = 5 ∧ capHas (b e) bit = true ∧ (validColours (coloursOf e.s e.sf)).contains (capColour (b e)) = true)) (fun (e : Env) => (src e o.c 1).toNat % 256)) (fun (e : Env) => (a e).tag = true ∧ capSealed (a e) = false)) (fun (e : Env) => cReg e.th o.b.num)) (fun (e : Env) => cReg e.th o.a.num)) (tTri 9 (tC 2) (tC 3) (tR 14) 0) (tEnv tCaps)) ∧
    ((fun (o : Tri) (e : Env) => (fun a => (fun b => (fun authority => oneLane e.s tG e.sh e.ln e.sf e.th ∧ inPlace e.s e.sf e.th (e.th.pc + 8) = true ∧ (a e).tag = true ∧ capSealed (a e) = true ∧ capKind (a e) ≠ 2 ∧ capOtype (a e) ≠ 0xFF#8 ∧ authority e 7 ∧ capBase (b e) ≤ (capOtype (a e)).toNat ∧ (capOtype (a e)).toNat < capBase (b e) + capLen (b e)) (fun (e : Env) (bit : Nat) => (b e).tag = true ∧ capSealed (b e) = false ∧ capKind (b e) = 5 ∧ capHas (b e) bit = true ∧ (validColours (coloursOf e.s e.sf)).contains (capColour (b e)) = true)) (fun (e : Env) => cReg e.th o.b.num)) (fun (e : Env) => cReg e.th o.a.num)) (tTri 9 (tC 4) (tC 3) (tR 14) 0) (tEnv tCaps)) := by
  refine ⟨?_, ?_, ?_, ?_⟩ <;> (beta_reduce; decide +kernel)

/-- States and operands that meet the hypotheses of `DerivationsNarrow`, each clause at a boundary of its range. -/
theorem meets_DerivationsNarrow :
    ((fun (c : Cap) (off n : Nat) => off + n ≤ capLen c ∧ capBase c + capLen c ≤ 2 ^ 52 ∧ (capNarrow c off n).isSome = true) tHeap 0 4096) ∧
    ((fun (c : Cap) (off n : Nat) => off + n ≤ capLen c ∧ capBase c + capLen c ≤ 2 ^ 52 ∧ (capNarrow c off n).isSome = true) tHeap 4095 1) ∧
    ((fun (c : Cap) (off n : Nat) => off + n ≤ capLen c ∧ capBase c + capLen c ≤ 2 ^ 52 ∧ (capNarrow c off n).isSome = true) tHeap 4096 0) := by
  refine ⟨?_, ?_, ?_⟩ <;> (beta_reduce; decide +kernel)

/-- States and operands that meet the hypotheses of `AccessChecksInOrder`, each clause at a boundary of its range. -/
theorem meets_AccessChecksInOrder :
    ((fun (c : Cap) => c.tag = false) ({ tHeap with tag := false })) ∧
    ((fun (c : Cap) (k : Access) => c.tag = true ∧ capSealed c = true ∧ k.sealOk = false) (capSeal tHeap 8) accLoad) ∧
    ((fun (c : Cap) (k : Access) => c.tag = true ∧ capSealed c = false ∧ capKind c ∉ k.kinds) setupCode accStore) ∧
    ((fun (c : Cap) (off : Int) (x : Nat) => checkCap 0x1FF 0x0001000000000001 c accLoad off 4 4 = .ok x) tHeap 4092 (tAddr 0x201FFC)) ∧
    ((fun (c : Cap) (x : Nat) => capSealed c = true ∧ checkCap 0x1FF 0x0001000000000001 c accCommand 0 64 16 = .ok x) (cReg (tTh tCommand) 9) (tAddr 0x201400)) := by
  refine ⟨?_, ?_, ?_, ?_, ?_⟩ <;> (beta_reduce; decide +kernel)

/-- States and operands that meet the hypotheses of `StackFramesComplete`, each clause at a boundary of its range. -/
theorem meets_StackFramesComplete :
    ((fun (o : BF) (e : Env) => (fun g => (fun n => (fun c => (fun owned => (fun good => oneLane e.s tG e.sh e.ln e.sf e.th ∧ inPlace e.s e.sf e.th (e.th.pc + 8) = true ∧ good e ∧ n ≤ g e ∧ e.th.spr.stklim.toNat ≤ g e - n) (fun (e : Env) => (c e).tag = true ∧ capSealed (c e) = false ∧ capKind (c e) = 4 ∧ owned e)) (fun (e : Env) => (validColours (coloursOf e.s e.sf)).contains (capColour (c e)) = true)) (fun (e : Env) => cReg e.th 1)) (16 * o.disp.toNat)) (fun (e : Env) => (gReg e.th 191).toNat)) (tB 64 0xFF 0xFF 0) (tEnv (tFrame tStack))) ∧
    ((fun (o : BF) (e : Env) => (fun g => (fun n => (fun c => (fun owned => (fun good => oneLane e.s tG e.sh e.ln e.sf e.th ∧ inPlace e.s e.sf e.th (e.th.pc + 8) = true ∧ good e ∧ g e + n ≤ capLen (c e)) (fun (e : Env) => (c e).tag = true ∧ capSealed (c e) = false ∧ capKind (c e) = 4 ∧ owned e)) (fun (e : Env) => (validColours (coloursOf e.s e.sf)).contains (capColour (c e)) = true)) (fun (e : Env) => cReg e.th 1)) (16 * o.disp.toNat)) (fun (e : Env) => (gReg e.th 191).toNat)) (tB 192 0xFF 0xFF 0) (tEnv (tFrame tStack))) ∧
    ((fun (o : BF) (e : Env) => (fun g => (fun n => (fun c => (fun owned => (fun good => oneLane e.s tG e.sh e.ln e.sf e.th ∧ inPlace e.s e.sf e.th (e.th.pc + 8) = true ∧ (e.th.park = none ∧ good e ∧ (g e < n ∨ g e - n < e.th.spr.stklim.toNat))) (fun (e : Env) => (c e).tag = true ∧ capSealed (c e) = false ∧ capKind (c e) = 4 ∧ owned e)) (fun (e : Env) => (validColours (coloursOf e.s e.sf)).contains (capColour (c e)) = true)) (fun (e : Env) => cReg e.th 1)) (16 * o.disp.toNat)) (fun (e : Env) => (gReg e.th 191).toNat)) (tB 65 0xFF 0xFF 0) (tEnv (tFrame tStack))) ∧
    ((fun (o : BF) (e : Env) => (fun g => (fun n => (fun c => (fun owned => (fun good => oneLane e.s tG e.sh e.ln e.sf e.th ∧ inPlace e.s e.sf e.th (e.th.pc + 8) = true ∧ e.th.park = none ∧ good e ∧ capLen (c e) < g e + n) (fun (e : Env) => (c e).tag = true ∧ capSealed (c e) = false ∧ capKind (c e) = 4 ∧ owned e)) (fun (e : Env) => (validColours (coloursOf e.s e.sf)).contains (capColour (c e)) = true)) (fun (e : Env) => cReg e.th 1)) (16 * o.disp.toNat)) (fun (e : Env) => (gReg e.th 191).toNat)) (tB 193 0xFF 0xFF 0) (tEnv (tFrame tStack))) ∧
    ((fun (e : Env) => (fun c => oneLane e.s tG e.sh e.ln e.sf e.th ∧ inPlace e.s e.sf e.th (e.th.pc + 8) = true ∧ e.th.park = none ∧ (c e).tag = false) (fun (e : Env) => cReg e.th 1)) (tEnv (tFrame { tStack with tag := false }))) ∧
    ((fun (e : Env) => (fun c => oneLane e.s tG e.sh e.ln e.sf e.th ∧ inPlace e.s e.sf e.th (e.th.pc + 8) = true ∧ e.th.park = none ∧ (c e).tag = true ∧ capSealed (c e) = true) (fun (e : Env) => cReg e.th 1)) (tEnv (tFrame (capSeal tStack 3)))) ∧
    ((fun (e : Env) => (fun c => oneLane e.s tG e.sh e.ln e.sf e.th ∧ inPlace e.s e.sf e.th (e.th.pc + 8) = true ∧ e.th.park = none ∧ (c e).tag = true ∧ capSealed (c e) = false ∧ capKind (c e) ≠ 4) (fun (e : Env) => cReg e.th 1)) (tEnv (tFrame tHeap))) ∧
    ((fun (e : Env) => (fun c => (fun owned => oneLane e.s tG e.sh e.ln e.sf e.th ∧ inPlace e.s e.sf e.th (e.th.pc + 8) = true ∧ e.th.park = none ∧ (c e).tag = true ∧ capSealed (c e) = false ∧ capKind (c e) = 4 ∧ ¬owned e) (fun (e : Env) => (validColours (coloursOf e.s e.sf)).contains (capColour (c e)) = true)) (fun (e : Env) => cReg e.th 1)) (tEnv (tFrame { tStack with bits := capBits (BitVec.ofNat 52 (Config.selfDevice * 2 ^ 43 + 0x202000)) 0 4096 3 2 4 0 0 0 }))) := by
  refine ⟨?_, ?_, ?_, ?_, ?_, ?_, ?_, ?_⟩ <;> (beta_reduce; decide +kernel)

/-- States and operands that meet the hypotheses of `TransfersComplete`, each clause at a boundary of its range. -/
theorem meets_TransfersComplete :
    ((fun (o : BF) (e : Env) => (fun disp => oneLane e.s tG e.sh e.ln e.sf e.th ∧ inPlace e.s e.sf e.th (e.th.pc + 8) = true ∧ mayMove e (wrNone) (e.th.pc + disp)) (o.disp.signExtend 32 * 8#32)) (tB 0x1FFFFF8 0 0xFF 0) (tEnv (tState (tThread [(6, 40), (7, 128), (8, 1)] [] [])))) ∧
    ((fun (o : BF) (e : Env) => (fun disp => oneLane e.s tG e.sh e.ln e.sf e.th ∧ inPlace e.s e.sf e.th (e.th.pc + 8) = true ∧ mayMove e (wrNone) (readCode e o.reg.toNat + disp)) (o.disp.signExtend 32 * 8#32)) (tB 1 0 6 0) (tEnv (tState (tThread [(6, 40), (7, 128), (8, 1)] [] [])))) ∧
    ((fun (o : BF) (e : Env) => (fun disp => oneLane e.s tG e.sh e.ln e.sf e.th ∧ inPlace e.s e.sf e.th (e.th.pc + 8) = true ∧ mayMove e (wrReg 189#8 (e.th.pc + 8)) (e.th.pc + disp)) (o.disp.signExtend 32 * 8#32)) (tB 0xFFFFFF 0 0xFF 0) (tEnv (tState (tThread [(6, 40), (7, 128), (8, 1)] [] [])))) ∧
    ((fun (o : BF) (e : Env) => oneLane e.s tG e.sh e.ln e.sf e.th ∧ inPlace e.s e.sf e.th (e.th.pc + 8) = true ∧ mayMove e (wrNone) (readCode e o.reg.toNat)) (tB 0 0 7 0) (tEnv (tState (tThread [(6, 40), (7, 128), (8, 1)] [] [])))) ∧
    ((fun (o : BF) (e : Env) => (fun disp => oneLane e.s tG e.sh e.ln e.sf e.th ∧ inPlace e.s e.sf e.th (e.th.pc + 8) = true ∧ mayMove e (wrReg o.reg (readCode e o.reg.toNat - 1)) (if readCode e o.reg.toNat = 1 then e.th.pc + 8 else e.th.pc + disp)) (o.disp.signExtend 32 * 8#32)) (tB 2 0 7 0) (tEnv (tState (tThread [(6, 40), (7, 128), (8, 1)] [] [])))) ∧
    ((fun (o : BF) (e : Env) => (fun disp => oneLane e.s tG e.sh e.ln e.sf e.th ∧ inPlace e.s e.sf e.th (e.th.pc + 8) = true ∧ mayMove e (wrReg o.reg (readCode e o.reg.toNat - 1)) (if readCode e o.reg.toNat = 1 then e.th.pc + 8 else e.th.pc + disp)) (o.disp.signExtend 32 * 8#32)) (tB 2 0 8 0) (tEnv (tState (tThread [(6, 40), (7, 128), (8, 1)] [] [])))) ∧
    ((fun (o : BF) (e : Env) => (fun t => (fun entry => (fun good => oneLane e.s tG e.sh e.ln e.sf e.th ∧ inPlace e.s e.sf e.th (e.th.pc + 8) = true ∧ good e (t e) ∧ o.aux.toNat < entryCount e.s (t e) ∧ 8 + 4 * o.aux.toNat ≤ capLen (t e) ∧ entry e + 8 ≤ capLen (t e) ∧ entry e % 8 = 0 ∧ entry e < 2 ^ 32) (fun (e : Env) (c : Cap) => c.tag = true ∧ capKind c = 1 ∧ capHas c 2 = true ∧ (validColours (coloursOf e.s e.sf)).contains (capColour c) = true)) (fun (e : Env) => entryOffset e.s (t e) o.aux.toNat)) (fun (e : Env) => cReg e.th (o.reg.toNat % 32))) (tB 0 1 5 0) (tEnv tCaps)) ∧
    ((fun (o : BF) (e : Env) => (fun u => (fun good => oneLane e.s tG e.sh e.ln e.sf e.th ∧ inPlace e.s e.sf e.th (e.th.pc + 8) = true ∧ (good e (u e) ∧ (capSealed (u e) = true → capOtype (u e) = 0xFF#8) ∧ (readCode e o.reg.toNat).toNat % 8 = 0)) (fun (e : Env) (c : Cap) => c.tag = true ∧ capKind c = 1 ∧ capHas c 2 = true ∧ (validColours (coloursOf e.s e.sf)).contains (capColour c) = true)) (fun (e : Env) => cReg e.th (o.aux.toNat % 32))) (tB 0 6 5 1) (tEnv tCaps)) ∧
    ((fun (o : BF) (e : Env) => (fun u => (fun good => oneLane e.s tG e.sh e.ln e.sf e.th ∧ inPlace e.s e.sf e.th (e.th.pc + 8) = true ∧ (good e (u e) ∧ (capSealed (u e) = true → capOtype (u e) = 0xFF#8) ∧ (readCode e o.reg.toNat).toNat % 8 = 0)) (fun (e : Env) (c : Cap) => c.tag = true ∧ capKind c = 1 ∧ capHas c 2 = true ∧ (validColours (coloursOf e.s e.sf)).contains (capColour c) = true)) (fun (e : Env) => cReg e.th (o.aux.toNat % 32))) (tB 0 5 5 1) (tEnv tCaps)) := by
  refine ⟨?_, ?_, ?_, ?_, ?_, ?_, ?_, ?_, ?_⟩ <;> (beta_reduce; (try unfold mayMove); decide +kernel)

/-- States and operands that meet the hypotheses of `RejoinWordsComplete`, each clause at a boundary of its range. -/
theorem meets_RejoinWordsComplete :
    ((fun (e : Env) => oneLane e.s tG e.sh e.ln e.sf e.th ∧ inPlace e.s e.sf e.th (e.th.pc + 8) = true ∧ 0 < e.sf.width) (tEnv tPlain)) ∧
    ((fun (e : Env) => oneLane e.s tG e.sh e.ln e.sf e.th ∧ inPlace e.s e.sf e.th (e.th.pc + 8) = true ∧ (e.th.status = .live ∧ e.sf.pair ≠ some e.sh ∧ ∀ x ∈ joinSheaves e.s e.sh, ∀ l ∈ x.2.lanes, (x.1, l.1) ≠ (e.sh, e.ln) → l.2.status ≠ .live)) (tEnv tPlain)) ∧
    ((fun (o : BF) (e : Env) => oneLane e.s tG e.sh e.ln e.sf e.th ∧ inPlace e.s e.sf e.th (e.th.pc + 8) = true ∧ (∃ x ∈ joinSheaves e.s e.sh, ∃ l ∈ x.2.lanes, (x.1, l.1) ≠ (e.sh, e.ln) ∧ l.2.status = .live ∧ (Tab.get 0 x.2.j (o.aux.toNat % 8)).getLsbD l.1 = true ∧ waitsAt e.th.code e.th.pc l.2 = false)) (tB 0 0 0xFF 0) (tEnv tJoinWaits)) ∧
    ((fun (s : State) (sh : Nat) (ln : Nat) (n : Nat) (th : Thread) => thread? s sh ln = some th ∧ th.hold = some (.join n) ∧ th.pc.toNat % 8 = 0 ∧ joinMet s sh n th.code th.pc = true ∧ ((joinSheaves s sh).map (·.1)).Nodup ∧ (∀ x ∈ joinSheaves s sh, (x.2.lanes.map (·.1)).Nodup ∧ runnerOf s x.2 = none ∧ ∀ l ∈ x.2.lanes, waitsAt th.code th.pc l.2 = true → l.2.run = none ∧ l.2.word = none)) tJoinMet 0 0 0 (tTh tJoinMet)) := by
  refine ⟨?_, ?_, ?_, ?_⟩ <;> (beta_reduce; decide +kernel)

/-- States and operands that meet the hypotheses of `ExceptionsTakenAndLeft`, each clause at a boundary of its range. -/
theorem meets_ExceptionsTakenAndLeft :
    ((fun (e : Env) => oneLane e.s tG e.sh e.ln e.sf e.th ∧ inPlace e.s e.sf e.th (e.th.pc + 8) = true ∧ e.th.park = none) (tEnv tPlain)) ∧
    ((fun (e : Env) => oneLane e.s tG e.sh e.ln e.sf e.th ∧ inPlace e.s e.sf e.th (e.th.pc + 8) = true ∧ inHandler e.th = true ∧ e.th.spr.fpc.toNat % 8 = 0) (tEnv tHandler)) ∧
    ((fun (s : State) (sh : Nat) (ln : Nat) (sf : Sheaf) (th : Thread) x rest => sheaf? s sh = some sf ∧ Tab.at? sf.lanes ln = some th ∧ th.status = .live ∧ th.run = none ∧ th.park = none ∧ th.hold = none ∧ th.word = none ∧ (ctxAt s sf.ctx).state = .running ∧ th.losses = x :: rest) (tLoss 16) 0 0 (tSf (tLoss 16)) (tTh (tLoss 16)) ({ addr := 0xFF800000201000, colour := 1 } : Loss) ((List.range 15).map fun k => ({ addr := 0xFF800000201001 + k, colour := 1 } : Loss))) ∧
    ((fun (s : State) (sh : Nat) (ln : Nat) (sf : Sheaf) (th : Thread) n => sheaf? s sh = some sf ∧ Tab.at? sf.lanes ln = some th ∧ th.status = .live ∧ th.run = none ∧ th.park = none ∧ th.hold = none ∧ th.word = none ∧ (ctxAt s sf.ctx).state = .running ∧ th.losses = [] ∧ th.overrun = some n) (tLoss 0) 0 0 (tSf (tLoss 0)) (tTh (tLoss 0)) 9) ∧
    ((fun (s : State) (sh : Nat) (ln : Nat) (sf : Sheaf) (th : Thread) (site : Byte) => sheaf? s sh = some sf ∧ Tab.at? sf.lanes ln = some th ∧ th.status = .live ∧ th.run = none ∧ th.park = none ∧ th.hold = none ∧ th.word = none ∧ (ctxAt s sf.ctx).state = .running ∧ site.toNat ≤ 1 ∧ ln < 32 ∧ (leadOf sf (BitVec.ofNat 32 (2 ^ ln)) = some (ln, th)) ∧ groupMask sf th = BitVec.ofNat 32 (2 ^ ln) ∧ sf.forming = none ∧ fetchCheck s sf th = none) tPlain 0 0 (tSf tPlain) (tTh tPlain) 1) ∧
    ((fun (s : State) (sh : Nat) (sub : Nat) (sf : Sheaf) (b : Sub) => (fun c => (fun off => sheaf? s sh = some sf ∧ Tab.at? sf.subs sub = some b ∧ b.inHandler = false ∧ c.state = .running ∧ s.net = netEmpty ∧ s.clusters = [] ∧ c.handler.tag = true ∧ capKind c.handler = 1 ∧ capHas c.handler 2 = true ∧ (validColours c.colours).contains (capColour c.handler) = true ∧ c.hentry < entryCount s c.handler ∧ off + 8 ≤ capLen c.handler ∧ off % 8 = 0) (entryOffset s c.handler c.hentry)) (ctxAt s sf.ctx)) tEnters 0 0 (tSf tEnters) ({ mask := 1, savedCode := setupCode, inHandler := false })) := by
  refine ⟨?_, ?_, ?_, ?_, ?_, ?_⟩ <;> (beta_reduce; decide +kernel)

/-- States and operands that meet the hypotheses of `RunsOpenAndCommit`, each clause at a boundary of its range. -/
theorem meets_RunsOpenAndCommit :
    ((fun (o : BF) (e : Env) => oneLane e.s tG e.sh e.ln e.sf e.th ∧ inPlace e.s e.sf e.th (e.th.pc + 8) = true ∧ runFormError e.s e.th.code e.th.pc.toNat o.aux.toNat = none) (tB 0 2 0xFF 0) (tEnv tRunForm)) ∧
    ((fun (s : State) (sh : Nat) (ln : Nat) (sf : Sheaf) (th : Thread) r => (s.focus = some { sh := sh, mask := BitVec.ofNat 32 (2 ^ ln), pairMask := 0, rest := 0, word := none }) ∧ ln < 32 ∧ sheaf? s sh = some sf ∧ Tab.at? sf.lanes ln = some th ∧ runnerOf s sf = none ∧ th.pc.toNat % 8 = 0 ∧ th.word = none ∧ th.run = some r ∧ r.stores = [] ∧ r.late = none ∧ r.after = [] ∧ th.hold = none ∧ s.net.peerReqs = []) (tRunEnd none) 0 0 (tSf (tRunEnd none)) (tTh (tRunEnd none)) ((tTh (tRunEnd none)).run.getD { start := 0, n := 0, pos := 0, pub := [], g0 := [], p0 := [], fexc0 := 0, stores := [], nst := 0, late := none, after := [], going := false })) ∧
    ((fun (s : State) (sh : Nat) (ln : Nat) (sf : Sheaf) (th : Thread) r => (s.focus = some { sh := sh, mask := BitVec.ofNat 32 (2 ^ ln), pairMask := 0, rest := 0, word := none }) ∧ ln < 32 ∧ sheaf? s sh = some sf ∧ Tab.at? sf.lanes ln = some th ∧ runnerOf s sf = none ∧ th.pc.toNat % 8 = 0 ∧ th.word = none ∧ th.run = some r ∧ r.stores = [] ∧ r.late = none ∧ r.after = [] ∧ s.net.peerReqs = [] ∧ th.hold = some .trailer ∧ (∀ x ∈ sf.lanes, x.1 ≠ ln → x.2.hold ≠ some .trailer) ∧ (sf.lanes.map (·.1)).Nodup) (tRunEnd (some .trailer)) 0 0 (tSf (tRunEnd (some .trailer))) (tTh (tRunEnd (some .trailer))) ((tTh (tRunEnd none)).run.getD { start := 0, n := 0, pos := 0, pub := [], g0 := [], p0 := [], fexc0 := 0, stores := [], nst := 0, late := none, after := [], going := false })) ∧
    ((fun (s : State) (sh : Nat) (ln : Nat) (sf : Sheaf) (th : Thread) => (s.focus = some { sh := sh, mask := BitVec.ofNat 32 (2 ^ ln), pairMask := 0, rest := 0, word := none }) ∧ ln < 32 ∧ sheaf? s sh = some sf ∧ Tab.at? sf.lanes ln = some th ∧ runnerOf s sf = none ∧ th.pc.toNat % 8 = 0 ∧ th.word = none ∧ th.run = none ∧ th.park = none) tPlain 0 0 (tSf tPlain) (tTh tPlain)) := by
  refine ⟨?_, ?_, ?_, ?_⟩ <;> (beta_reduce; decide +kernel)

/-- States and operands that meet the hypotheses of `ThreadsPauseAndEnd`, each clause at a boundary of its range. -/
theorem meets_ThreadsPauseAndEnd :
    ((fun (e : Env) => oneLane e.s tG e.sh e.ln e.sf e.th ∧ inPlace e.s e.sf e.th (e.th.pc + 8) = true ∧ e.th.hold = none) (tEnv tPlain)) ∧
    ((fun (e : Env) => oneLane e.s tG e.sh e.ln e.sf e.th ∧ inPlace e.s e.sf e.th (e.th.pc + 8) = true ∧ e.th.losses = [] ∧ e.th.lossMore = 0 ∧ e.th.overrun = none) (tEnv tPlain)) ∧
    ((fun (o : Tri) (e : Env) => oneLane e.s tG e.sh e.ln e.sf e.th ∧ inPlace e.s e.sf e.th (e.th.pc + 8) = true ∧ (coreAt e.s (coreOf e.sh)).watch = [] ∧ (src e o.a 1).toNat % 8 = 0) (tTri 0xFF (tR 7) (tR 0xFF) (tR 0xFF) 0) (tEnv tPlain)) ∧
    ((fun (h : Guard) (o : Tri) (s : State) (sh : Nat) (ln : Nat) (sf : Sheaf) (th : Thread) (r : Runner) (k : Nat) => (fun e => (s.focus = some { sh := sh, mask := BitVec.ofNat 32 (2 ^ ln), pairMask := 0, rest := 0, word := none }) ∧ ln < 32 ∧ sheaf? s sh = some sf ∧ Tab.at? sf.lanes ln = some th ∧ guardTrue th h = true ∧ th.run = none ∧ th.park = none ∧ runnerOf s sf = some r ∧ (coreAt s (coreOf sh)).watch = [] ∧ (src e o.a 1).toNat % 8 = 0 ∧ segmentOf r (src e o.a 1) = some k) (soloEnv s sh ln sf th)) tG (tTri 0xFF (tR 7) (tR 0xFF) (tR 0xFF) 0) tRunnerLane 0 0 (tSf tRunnerLane) (tTh tRunnerLane) tRunner 1) ∧
    ((fun (s : State) (sh : Nat) (ln : Nat) (sf : Sheaf) (th : Thread) => standing s sh ln sf th ∧ th.hold = some (.sleep 0)) (tHeld tPlain (.sleep 0)) 0 0 (tSf (tHeld tPlain (.sleep 0))) (tTh (tHeld tPlain (.sleep 0)))) ∧
    ((fun (s : State) (sh : Nat) (ln : Nat) (n : Nat) (sf : Sheaf) (th : Thread) => sheaf? s sh = some sf ∧ Tab.at? sf.lanes ln = some th ∧ th.hold = some (.yielded n) ∧ (n = 0 ∨ (readyGroups s sf).isEmpty = true)) (tHeld tPlain (.yielded 0)) 0 0 0 (tSf (tHeld tPlain (.yielded 0))) (tTh (tHeld tPlain (.yielded 0)))) := by
  refine ⟨?_, ?_, ?_, ?_, ?_, ?_⟩ <;> (beta_reduce; (try unfold standing); (try unfold wordmates); decide +kernel)
/-- States and operands that meet the hypotheses of `LoadsComplete`, each clause at a boundary of its range. -/
theorem meets_LoadsComplete :
    ((fun (o : MF) (a : Nat) (e : Env) => (fun n => (fun may => oneLane e.s tG e.sh e.ln e.sf e.th ∧ inPlace e.s e.sf e.th (e.th.pc + 8) = true ∧ may e ∧ noCopy e (memCap e o) a) (fun (e : Env) => mayAccess e (memCap e o) accLoad (memOff e o) n n a ∧ quiet e.s (coreOf e.sh) e.sf.ctx)) (szBytes o.sz)) (tM 8 2 0 2 0) (tAddr 0x201040) (tEnv (tData 0 1))) ∧
    ((fun (o : MF) (a : Nat) (cp : Copy) (e : Env) => (fun n => (fun may => (fun cached => oneLane e.s tG e.sh e.ln e.sf e.th ∧ inPlace e.s e.sf e.th (e.th.pc + 8) = true ∧ may e ∧ cached e cp) (fun (e : Env) (cp : Copy) => cacheHit e.s (coreOf e.sh) (localOf a) (capColour (memCap e o)) = some cp ∧ (capKind (memCap e o) = 4 → (quadAt e.s (quadOf e.sh)).stack = []))) (fun (e : Env) => mayAccess e (memCap e o) accLoad (memOff e o) n n a ∧ quiet e.s (coreOf e.sh) e.sf.ctx)) (szBytes o.sz)) (tM 8 2 0xFC0 2 0) (tAddr 0x201000) ({ data := BitVec.ofNat 1024 0xABCDEF, tags := 0, wts := 5, rts := 9, colour := 1, valid := 3, hint := 0, bank := 47, used := 1 }) (tEnv (tCopied 9))) ∧
    ((fun (o : MF) (a : Nat) (e : Env) => (fun may16 => oneLane e.s tG e.sh e.ln e.sf e.th ∧ inPlace e.s e.sf e.th (e.th.pc + 8) = true ∧ may16 e ∧ noCopy e (memCap e o) a) (fun (e : Env) => mayAccess e (memCap e o) accLoadCap (memOff e o) 16 16 a ∧ quiet e.s (coreOf e.sh) e.sf.ctx)) (tM 8 2 0 6 0) (tAddr 0x201040) (tEnv (tData 0 1))) ∧
    ((fun (o : MF) (a : Nat) (cp : Copy) (e : Env) => (fun n => (fun may => oneLane e.s tG e.sh e.ln e.sf e.th ∧ inPlace e.s e.sf e.th (e.th.pc + 8) = true ∧ may e ∧ o.rh ≠ 3 ∧ staleCopy e.s (coreOf e.sh) (localOf a) (capColour (memCap e o)) = some cp) (fun (e : Env) => mayAccess e (memCap e o) accLoad (memOff e o) n n a ∧ quiet e.s (coreOf e.sh) e.sf.ctx)) (szBytes o.sz)) (tM 8 2 0xFC0 2 0) (tAddr 0x201000) ({ data := BitVec.ofNat 1024 0xABCDEF, tags := 0, wts := 5, rts := 7, colour := 1, valid := 3, hint := 0, bank := 47, used := 1 }) (tEnv (tCopied 7))) ∧
    ((fun (o : MF) (a : Nat) (e : Env) => (fun n => oneLane e.s tG e.sh e.ln e.sf e.th ∧ inPlace e.s e.sf e.th (e.th.pc + 8) = true ∧ accessAddr e (memCap e o) accLoad (memOff e o) n n = .ok a ∧ regionOf e.s.fabric.number a = .host ∧ quiet e.s (coreOf e.sh) e.sf.ctx) (szBytes o.sz)) (tM 8 8 0 2 0) (tAddr 0x40000000040) (tEnv (tData 0 1))) := by
  refine ⟨?_, ?_, ?_, ?_, ?_⟩ <;> (beta_reduce; (try unfold noCopy); (try unfold mayAccess); decide +kernel)

/-- States and operands that meet the hypotheses of `StoresComplete`, each clause at a boundary of its range. -/
theorem meets_StoresComplete :
    ((fun (o : MF) (a : Nat) (e : Env) => oneLane e.s tG e.sh e.ln e.sf e.th ∧ mayAccess e (memCap e o) accStore (memOff e o) (szBytes o.sz) (szBytes o.sz) a ∧ quiet e.s (coreOf e.sh) e.sf.ctx) (tM 8 2 0 2 0) (tAddr 0x201040) (tEnv (tData 0 1))) ∧
    ((fun (o : MF) (a : Nat) (e : Env) => oneLane e.s tG e.sh e.ln e.sf e.th ∧ mayAccess e (memCap e o) (accStoreCap (cReg e.th (o.d.toNat % 32))) (memOff e o) 16 16 a ∧ quiet e.s (coreOf e.sh) e.sf.ctx) (tM 7 2 0x10 2 0) (tAddr 0x201050) (tEnv (tData 0 1))) ∧
    ((fun (s : State) (o : MF) (a : Nat) (r : Run) (e : Env) => s.focus = some { sh := e.sh, mask := BitVec.ofNat 32 (2 ^ e.ln), pairMask := 0, rest := 0, word := none } ∧ e.ln < 32 ∧ sheaf? s e.sh = some e.sf ∧ Tab.at? e.sf.lanes e.ln = some e.th ∧ guardTrue e.th tG = true ∧ e.th.run = some r ∧ r.nst < 8 ∧ runnerOf s e.sf = none ∧ e.th.pc.toNat % 8 = 0 ∧ accessAddr e (memCap e o) accStore (memOff e o) (szBytes o.sz) (szBytes o.sz) = .ok a) tInRun (tM 8 2 0 2 0) (tAddr 0x201040) ({ start := 40, n := 4, pos := 3, pub := [4], g0 := [], p0 := [], fexc0 := 0, stores := [], nst := 7, late := none, after := [], going := false }) (tEnv tInRun)) ∧
    ((fun (o : MF) (a : Nat) (e : Env) => oneLane e.s tG e.sh e.ln e.sf e.th ∧ accessAddr e (memCap e o) accStore (memOff e o) (szBytes o.sz) (szBytes o.sz) = .ok a ∧ regionOf e.s.fabric.number a = .host ∧ quiet e.s (coreOf e.sh) e.sf.ctx) (tM 8 8 0 2 0) (tAddr 0x40000000040) (tEnv (tData 0 1))) ∧
    ((fun (s : State) (o : MF) (a : Nat) (r : Run) (e : Env) => s.focus = some { sh := e.sh, mask := BitVec.ofNat 32 (2 ^ e.ln), pairMask := 0, rest := 0, word := none } ∧ e.ln < 32 ∧ sheaf? s e.sh = some e.sf ∧ Tab.at? e.sf.lanes e.ln = some e.th ∧ guardTrue e.th tG = true ∧ e.th.run = some r ∧ r.nst < 8 ∧ runnerOf s e.sf = none ∧ e.th.pc.toNat % 8 = 0 ∧ accessAddr e (memCap e o) (accStoreCap (cReg e.th (o.d.toNat % 32))) (memOff e o) 16 16 = .ok a) tInRun (tM 7 2 0 2 0) (tAddr 0x201040) ({ start := 40, n := 4, pos := 3, pub := [4], g0 := [], p0 := [], fexc0 := 0, stores := [], nst := 7, late := none, after := [], going := false }) (tEnv tInRun)) ∧
    ((fun (o : MF) (a : Nat) (e : Env) => oneLane e.s tG e.sh e.ln e.sf e.th ∧ accessAddr e (memCap e o) (accStoreCap (cReg e.th (o.d.toNat % 32))) (memOff e o) 16 16 = .ok a ∧ regionOf e.s.fabric.number a = .host ∧ quiet e.s (coreOf e.sh) e.sf.ctx) (tM 9 8 0 2 0) (tAddr 0x40000000040) (tEnv (tData 0 1))) := by
  refine ⟨?_, ?_, ?_, ?_, ?_, ?_⟩ <;> (beta_reduce; (try unfold mayAccess); decide +kernel)

/-- States and operands that meet the hypotheses of `AtomicsComplete`, each clause at a boundary of its range. -/
theorem meets_AtomicsComplete :
    ((fun (o : MF) (a k : Nat) (e : Env) => (szBytes o.sz = 4 ∨ szBytes o.sz = 8) ∧ (o.scope = 2 ∨ o.scope = 3) ∧ k < 13 ∧ oneLane e.s tG e.sh e.ln e.sf e.th ∧ mayAccess e (memCap e o) (accAtomic (k = 0 ∨ k = 8)) (memOff e o) (szBytes o.sz) (szBytes o.sz) a ∧ quiet e.s (coreOf e.sh) e.sf.ctx) (tM 8 2 0 2 2) (tAddr 0x201040) 0 (tEnv (tData 0 1))) ∧
    ((fun (o : MF) (a k : Nat) (e : Env) => (szBytes o.sz = 4 ∨ szBytes o.sz = 8) ∧ (o.scope = 2 ∨ o.scope = 3) ∧ k < 13 ∧ oneLane e.s tG e.sh e.ln e.sf e.th ∧ mayAccess e (memCap e o) (accAtomic (k = 0 ∨ k = 8)) (memOff e o) (szBytes o.sz) (szBytes o.sz) a ∧ quiet e.s (coreOf e.sh) e.sf.ctx) (tM 8 2 0 3 3) (tAddr 0x201040) 12 (tEnv (tData 0 1))) ∧
    ((fun (o : MF) (a : Nat) (e : Env) => (fun n => oneLane e.s tG e.sh e.ln e.sf e.th ∧ inPlace e.s e.sf e.th (e.th.pc + 8) = true ∧ (n = 4 ∨ n = 8) ∧ (o.scope = 2 ∨ o.scope = 3) ∧ mayAccess e (memCap e o) (accAtomic true) (memOff e o) n n a ∧ quiet e.s (coreOf e.sh) e.sf.ctx) (szBytes o.sz)) (tM 8 2 0x10 2 2) (tAddr 0x201050) (tEnv (tData 0 1))) ∧
    ((fun (u : Tri) (a : Nat) (e : Env) => oneLane e.s tG e.sh e.ln e.sf e.th ∧ inPlace e.s e.sf e.th (e.th.pc + 8) = true ∧ mayAccess e (capA e u.a) (accAtomic true) 0 8 8 a ∧ quiet e.s (coreOf e.sh) e.sf.ctx) (tTri 0xFF (tC 2) (tR 12) (tR 0xFF) 0) (tAddr 0x201000) (tEnv (tData 0 1))) := by
  refine ⟨?_, ?_, ?_, ?_⟩ <;> (beta_reduce; (try unfold mayAccess); decide +kernel)

/-- States and operands that meet the hypotheses of `ScopedAtomics`, each clause at a boundary of its range. -/
theorem meets_ScopedAtomics :
    ((fun (o : MF) (a k : Nat) (e : Env) => k < 13 ∧ (szBytes o.sz = 4 ∨ szBytes o.sz = 8) ∧ o.scope = 0 ∧ oneLane e.s tG e.sh e.ln e.sf e.th ∧ mayAccess e (memCap e o) (accAtomic (k = 0 ∨ k = 8)) (memOff e o) (szBytes o.sz) (szBytes o.sz) a ∧ quiet e.s (coreOf e.sh) e.sf.ctx ∧ coreOf e.sh < Config.cores ∧ ((cacheBanks (coreAt e.s (coreOf e.sh))).isEmpty = false ∧ Tab.at? (coreAt e.s (coreOf e.sh)).dcache (lineOf (localOf a)) = none ∨ (cacheBanks (coreAt e.s (coreOf e.sh))).isEmpty = true ∧ (coreAt e.s (coreOf e.sh)).atoms = [])) (tM 8 2 0 3 0) (tAddr 0x201040) 12 (tEnv (tData 0 1))) ∧
    ((fun (o : MF) (a k : Nat) (e : Env) => k < 13 ∧ (szBytes o.sz = 4 ∨ szBytes o.sz = 8) ∧ o.scope = 0 ∧ oneLane e.s tG e.sh e.ln e.sf e.th ∧ mayAccess e (memCap e o) (accAtomic (k = 0 ∨ k = 8)) (memOff e o) (szBytes o.sz) (szBytes o.sz) a ∧ quiet e.s (coreOf e.sh) e.sf.ctx ∧ coreOf e.sh < Config.cores ∧ ((cacheBanks (coreAt e.s (coreOf e.sh))).isEmpty = false ∧ Tab.at? (coreAt e.s (coreOf e.sh)).dcache (lineOf (localOf a)) = none ∨ (cacheBanks (coreAt e.s (coreOf e.sh))).isEmpty = true ∧ (coreAt e.s (coreOf e.sh)).atoms = [])) (tM 8 2 0 3 0) (tAddr 0x201040) 12 (tEnv (tCore (tData 0 1) fun c => { c with banks := (List.range 48).map fun b => (b, { bankReset with mode := .scratch }) }))) ∧
    ((fun (o : MF) (a k : Nat) (e : Env) => k < 13 ∧ (szBytes o.sz = 4 ∨ szBytes o.sz = 8) ∧ o.scope = 1 ∧ oneLane e.s tG e.sh e.ln e.sf e.th ∧ mayAccess e (memCap e o) (accAtomic (k = 0 ∨ k = 8)) (memOff e o) (szBytes o.sz) (szBytes o.sz) a ∧ quiet e.s (coreOf e.sh) e.sf.ctx ∧ coreOf e.sh < Config.cores ∧ mayInject e.s (448 + clusterOfCore (coreOf e.sh)) e.sf.ctx = true) (tM 8 2 0 2 1) (tAddr 0x201040) 12 (tEnv (tData 0 1))) := by
  refine ⟨?_, ?_, ?_⟩ <;> (beta_reduce; (try unfold mayAccess); decide +kernel)

/-- States and operands that meet the hypotheses of `ScratchComplete`, each clause at a boundary of its range. -/
theorem meets_ScratchComplete :
    ((fun (o : MF) (a : Nat) (e : Env) => (fun n => oneLane e.s tG e.sh e.ln e.sf e.th ∧ inPlace e.s e.sf e.th (e.th.pc + 8) = true ∧ mayScratch e o n a) (szBytes o.sz)) (tM 8 2 0 2 0) 65600 (tEnv (tData 0 1))) ∧
    ((fun (o : MF) (a : Nat) (e : Env) => (fun n => oneLane e.s tG e.sh e.ln e.sf e.th ∧ inPlace e.s e.sf e.th (e.th.pc + 8) = true ∧ mayScratch e o n a) (szBytes o.sz)) (tM 8 2 0xBF 0 0) 65791 (tEnv (tData 0 1))) ∧
    ((fun (o : MF) (a k : Nat) (e : Env) => (szBytes o.sz = 4 ∨ szBytes o.sz = 8) ∧ k < 13 ∧ oneLane e.s tG e.sh e.ln e.sf e.th ∧ mayScratch e o (szBytes o.sz) a) (tM 8 2 0xB8 3 0) 65784 0 (tEnv (tData 0 1))) ∧
    ((fun (o : MF) (a : Nat) (e : Env) => (fun n => oneLane e.s tG e.sh e.ln e.sf e.th ∧ inPlace e.s e.sf e.th (e.th.pc + 8) = true ∧ (n = 4 ∨ n = 8) ∧ mayScratch e o n a) (szBytes o.sz)) (tM 8 2 0xFC0 2 0) 65536 (tEnv (tData 0 1))) := by
  refine ⟨?_, ?_, ?_, ?_⟩ <;> (beta_reduce; (try unfold mayScratch); decide +kernel)

/-- States and operands that meet the hypotheses of `OrderingWordsComplete`, each clause at a boundary of its range. -/
theorem meets_OrderingWordsComplete :
    ((fun (e : Env) => (fun k => oneLane e.s tG e.sh e.ln e.sf e.th ∧ inPlace e.s e.sf e.th (e.th.pc + 8) = true ∧ e.s.net = netEmpty ∧ (coreAt e.s (k e)).watch = [] ∧ e.s.clusters = []) (fun (e : Env) => coreOf e.sh)) (tEnv (tData 0 1))) ∧
    ((fun (e : Env) => (fun k => oneLane e.s tG e.sh e.ln e.sf e.th ∧ inPlace e.s e.sf e.th (e.th.pc + 8) = true ∧ (coreAt e.s (k e)).watch = []) (fun (e : Env) => coreOf e.sh)) (tEnv (tData 0 1))) ∧
    ((fun (p : PStore) (e : Env) => (fun k => oneLane e.s tG e.sh e.ln e.sf e.th ∧ inPlace e.s e.sf e.th (e.th.pc + 8) = true ∧ e.s.net = { netEmpty with stores := [p] } ∧ p.who = whoOf e.sf e.th ∧ (coreAt e.s (k e)).watch = [] ∧ e.s.clusters = [] ∧ granuleCheck e.s (localOf p.addr) (capColour p.cap) = .pass) (fun (e : Env) => coreOf e.sh)) tStore (tEnv tPosted)) ∧
    ((fun (w : Watch) (e : Env) => (fun k => oneLane e.s tG e.sh e.ln e.sf e.th ∧ inPlace e.s e.sf e.th (e.th.pc + 8) = true ∧ (coreAt e.s (k e)).watch = [w] ∧ w.sh = e.sh ∧ w.ln = e.ln ∧ w.struck = true ∧ e.th.spr.wrep &&& ~~~7#32 ≠ 0) (fun (e : Env) => coreOf e.sh)) ({ sh := 0, ln := 0, line := 0x4020, w := 5, pts := 0, struck := true, inRun := false }) (tEnv (tWatch true))) ∧
    ((fun (w : Watch) (e : Env) => (fun k => oneLane e.s tG e.sh e.ln e.sf e.th ∧ inPlace e.s e.sf e.th (e.th.pc + 8) = true ∧ (coreAt e.s (k e)).watch = [w] ∧ w.sh = e.sh ∧ w.ln = e.ln ∧ w.struck = false) (fun (e : Env) => coreOf e.sh)) ({ sh := 0, ln := 0, line := 0x4020, w := 5, pts := 0, struck := false, inRun := false }) (tEnv (tWatch false))) ∧
    ((fun (o : MF) a (e : Env) => (fun k => oneLane e.s tG e.sh e.ln e.sf e.th ∧ inPlace e.s e.sf e.th (e.th.pc + 8) = true ∧ mayAccess e (memCap e o) accLoad (memOff e o) 1 1 a ∧ quiet e.s (k e) e.sf.ctx ∧ Tab.at? (coreAt e.s (k e)).dcache (lineOf (localOf a)) = none) (fun (e : Env) => coreOf e.sh)) (tM 8 2 0 2 0) (tAddr 0x201040) (tEnv (tData 0 1))) ∧
    ((fun (o : MF) (e : Env) => oneLane e.s tG e.sh e.ln e.sf e.th ∧ (match accessAddr e (memCap e o) accLoad (memOff e o) 1 1 with | .error _ => true | .ok _ => false) = true) (tM 8 9 0 2 0) (tEnv (tData 0 1))) := by
  refine ⟨?_, ?_, ?_, ?_, ?_, ?_, ?_⟩ <;> (beta_reduce; (try unfold mayAccess); decide +kernel)

/-- States and operands that meet the hypotheses of `MailboxesComplete`, each clause at a boundary of its range. -/
theorem meets_MailboxesComplete :
    ((fun (o : Tri) (head : Nat) (tail : Nat) (size : Nat) (n : Nat) (a : Nat) (e : Env) => (fun at_ => oneLane e.s tG e.sh e.ln e.sf e.th ∧ inPlace e.s e.sf e.th (e.th.pc + 8) = true ∧ at_ e (accSend (capA e o.b)) ∧ n < size) (fun (e : Env) (k : Access) => mayAccess e (capA e o.a) k 0 64 16 a ∧ quiet e.s (coreOf e.sh) e.sf.ctx ∧ mailbox e.s (capA e o.a) head tail size n)) (tTri 9 (tC 7) (tC 2) (tR 8) 0) 0 1 2 1 (tAddr 0x201200) (tEnv (tData 0 1))) ∧
    ((fun (o : Tri) (head : Nat) (tail : Nat) (size : Nat) (n : Nat) (a : Nat) (e : Env) => (fun at_ => oneLane e.s tG e.sh e.ln e.sf e.th ∧ inPlace e.s e.sf e.th (e.th.pc + 8) = true ∧ at_ e (accSend (capA e o.b)) ∧ n = size) (fun (e : Env) (k : Access) => mayAccess e (capA e o.a) k 0 64 16 a ∧ quiet e.s (coreOf e.sh) e.sf.ctx ∧ mailbox e.s (capA e o.a) head tail size n)) (tTri 9 (tC 7) (tC 2) (tR 8) 0) 0 2 2 2 (tAddr 0x201200) (tEnv (tData 0 2))) ∧
    ((fun (o : Tri) (head : Nat) (tail : Nat) (size : Nat) (n : Nat) (a : Nat) (e : Env) => (fun at_ => oneLane e.s tG e.sh e.ln e.sf e.th ∧ inPlace e.s e.sf e.th (e.th.pc + 8) = true ∧ at_ e accRecv ∧ 0 < n) (fun (e : Env) (k : Access) => mayAccess e (capA e o.a) k 0 64 16 a ∧ quiet e.s (coreOf e.sh) e.sf.ctx ∧ mailbox e.s (capA e o.a) head tail size n)) (tTri 9 (tC 7) (tR 14) (tR 16) 0) 0 1 2 1 (tAddr 0x201200) (tEnv (tData 0 1))) ∧
    ((fun (o : Tri) (head : Nat) (tail : Nat) (size : Nat) (n : Nat) (a : Nat) (e : Env) => (fun at_ => oneLane e.s tG e.sh e.ln e.sf e.th ∧ inPlace e.s e.sf e.th (e.th.pc + 8) = true ∧ at_ e accRecv ∧ n = 0) (fun (e : Env) (k : Access) => mayAccess e (capA e o.a) k 0 64 16 a ∧ quiet e.s (coreOf e.sh) e.sf.ctx ∧ mailbox e.s (capA e o.a) head tail size n)) (tTri 9 (tC 7) (tR 14) (tR 16) 0) 2 2 2 0 (tAddr 0x201200) (tEnv (tData 2 2))) ∧
    ((fun (s : State) (i : Nat) (sh : Nat) (ln : Nat) (head : Nat) (tail : Nat) (size : Nat) (n : Nat) (m : Mail) (sf : Sheaf) (th : Thread) => standing s sh ln sf th ∧ m.sh = sh ∧ m.ln = ln ∧ granuleCheck s (localOf (capBase m.cap)) (capColour m.cap) = .pass ∧ mailbox s m.cap head tail size n ∧ s.net.csends[i]? = some m ∧ n < size) (tMail true) 0 0 0 0 1 2 1 ({ sh := 0, ln := 0, cap := tBox, carried := tHeap, word := 9, pred := 2, cd := 9, wreg := 14, sreg := 16 }) (tSf (tMail true)) (tTh (tMail true))) ∧
    ((fun (s : State) (i : Nat) (sh : Nat) (ln : Nat) (head : Nat) (tail : Nat) (size : Nat) (n : Nat) (m : Mail) (sf : Sheaf) (th : Thread) => standing s sh ln sf th ∧ m.sh = sh ∧ m.ln = ln ∧ granuleCheck s (localOf (capBase m.cap)) (capColour m.cap) = .pass ∧ mailbox s m.cap head tail size n ∧ s.net.crecvs[i]? = some m ∧ 0 < n) (tMail false) 0 0 0 0 1 2 1 ({ sh := 0, ln := 0, cap := tBox, carried := tHeap, word := 9, pred := 2, cd := 9, wreg := 14, sreg := 16 }) (tSf (tMail false)) (tTh (tMail false))) := by
  refine ⟨?_, ?_, ?_, ?_, ?_, ?_⟩ <;> (beta_reduce; (try unfold mayAccess); (try unfold mailbox); (try unfold standing); (try unfold wordmates); decide +kernel)
/-- States and operands that meet the hypotheses of `BanksComplete`, each clause at a boundary of its range. -/
theorem meets_BanksComplete :
    ((fun (e : Env) => (fun shared => oneLane e.s tG e.sh e.ln e.sf e.th ∧ inPlace e.s e.sf e.th (e.th.pc + 8) = true ∧ shared e = true) (fun (e : Env) => e.s.teams.any fun t => decide (t.2.core = coreOf e.sh) && decide (t.2.ctx ≠ e.sf.ctx))) (tEnv tShared)) ∧
    ((fun (o : MF) (e : Env) => (fun b => (fun (mode : BankMode) => (fun core => (fun bank => (fun shared => oneLane e.s tG e.sh e.ln e.sf e.th ∧ inPlace e.s e.sf e.th (e.th.pc + 8) = true ∧ shared e = false ∧ (bank e).switching = none ∧ (bank e).mode = mode) (fun (e : Env) => e.s.teams.any fun t => decide (t.2.core = coreOf e.sh) && decide (t.2.ctx ≠ e.sf.ctx))) (fun (e : Env) => bankAt (core e) b)) (fun (e : Env) => coreAt e.s (coreOf e.sh))) (if o.disp.toNat / 256 % 4 = 0 then .cache else if o.disp.toNat / 256 % 4 = 1 then .scratch else .fifo)) (o.disp.toNat % 64)) (tM 8 2 513 2 0) (tEnv (tBank .fifo none false))) ∧
    ((fun (o : MF) (e : Env) => (fun b => (fun core => (fun bank => (fun shared => oneLane e.s tG e.sh e.ln e.sf e.th ∧ inPlace e.s e.sf e.th (e.th.pc + 8) = true ∧ shared e = false ∧ (bank e).switching.isSome = true) (fun (e : Env) => e.s.teams.any fun t => decide (t.2.core = coreOf e.sh) && decide (t.2.ctx ≠ e.sf.ctx))) (fun (e : Env) => bankAt (core e) b)) (fun (e : Env) => coreAt e.s (coreOf e.sh))) (o.disp.toNat % 64)) (tM 8 2 1 2 0) (tEnv (tBank .cache (some .fifo) false))) ∧
    ((fun (o : MF) (e : Env) => (fun b => (fun (mode : BankMode) => (fun core => (fun bank => (fun shared => oneLane e.s tG e.sh e.ln e.sf e.th ∧ inPlace e.s e.sf e.th (e.th.pc + 8) = true ∧ (shared e = false ∧ (bank e).switching = none ∧ (bank e).mode ≠ mode ∧ ((bank e).mode = .scratch ∧ bankUsed e.s (coreOf e.sh) b = true ∨ (bank e).mode = .fifo ∧ (bank e).reserved = true))) (fun (e : Env) => e.s.teams.any fun t => decide (t.2.core = coreOf e.sh) && decide (t.2.ctx ≠ e.sf.ctx))) (fun (e : Env) => bankAt (core e) b)) (fun (e : Env) => coreAt e.s (coreOf e.sh))) (if o.disp.toNat / 256 % 4 = 0 then .cache else if o.disp.toNat / 256 % 4 = 1 then .scratch else .fifo)) (o.disp.toNat % 64)) (tM 8 2 1 2 0) (tEnv (tTeam (tBank .scratch none false) fun x => { x with sbase := 0, slen := 65537 }))) ∧
    ((fun (o : MF) (e : Env) => (fun b => (fun (mode : BankMode) => (fun core => (fun bank => (fun shared => oneLane e.s tG e.sh e.ln e.sf e.th ∧ inPlace e.s e.sf e.th (e.th.pc + 8) = true ∧ (shared e = false ∧ (bank e).switching = none ∧ (bank e).mode ≠ mode ∧ ((bank e).mode = .scratch ∧ bankUsed e.s (coreOf e.sh) b = true ∨ (bank e).mode = .fifo ∧ (bank e).reserved = true))) (fun (e : Env) => e.s.teams.any fun t => decide (t.2.core = coreOf e.sh) && decide (t.2.ctx ≠ e.sf.ctx))) (fun (e : Env) => bankAt (core e) b)) (fun (e : Env) => coreAt e.s (coreOf e.sh))) (if o.disp.toNat / 256 % 4 = 0 then .cache else if o.disp.toNat / 256 % 4 = 1 then .scratch else .fifo)) (o.disp.toNat % 64)) (tM 8 2 257 2 0) (tEnv (tBank .fifo none true))) ∧
    ((fun (o : MF) (e : Env) => (fun b => (fun (mode : BankMode) => (fun core => (fun bank => (fun shared => oneLane e.s tG e.sh e.ln e.sf e.th ∧ inPlace e.s e.sf e.th (e.th.pc + 8) = true ∧ (shared e = false ∧ (bank e).switching = none ∧ (bank e).mode ≠ mode ∧ ((bank e).mode = .scratch → bankUsed e.s (coreOf e.sh) b = false) ∧ ((bank e).mode = .fifo → (bank e).reserved = false))) (fun (e : Env) => e.s.teams.any fun t => decide (t.2.core = coreOf e.sh) && decide (t.2.ctx ≠ e.sf.ctx))) (fun (e : Env) => bankAt (core e) b)) (fun (e : Env) => coreAt e.s (coreOf e.sh))) (if o.disp.toNat / 256 % 4 = 0 then .cache else if o.disp.toNat / 256 % 4 = 1 then .scratch else .fifo)) (o.disp.toNat % 64)) (tM 8 2 257 2 0) (tEnv (tBank .cache none false))) ∧
    ((fun (o : MF) (e : Env) => (fun b => (fun (mode : BankMode) => (fun core => (fun bank => (fun shared => oneLane e.s tG e.sh e.ln e.sf e.th ∧ inPlace e.s e.sf e.th (e.th.pc + 8) = true ∧ (shared e = false ∧ (bank e).switching = none ∧ (bank e).mode ≠ mode ∧ ((bank e).mode = .scratch → bankUsed e.s (coreOf e.sh) b = false) ∧ ((bank e).mode = .fifo → (bank e).reserved = false))) (fun (e : Env) => e.s.teams.any fun t => decide (t.2.core = coreOf e.sh) && decide (t.2.ctx ≠ e.sf.ctx))) (fun (e : Env) => bankAt (core e) b)) (fun (e : Env) => coreAt e.s (coreOf e.sh))) (if o.disp.toNat / 256 % 4 = 0 then .cache else if o.disp.toNat / 256 % 4 = 1 then .scratch else .fifo)) (o.disp.toNat % 64)) (tM 8 2 1 2 0) (tEnv (tTeam (tBank .scratch none false) fun x => { x with sbase := 0, slen := 65536 }))) ∧
    ((fun (o : MF) (e : Env) => (fun b => (fun (mode : BankMode) => (fun core => (fun bank => (fun shared => oneLane e.s tG e.sh e.ln e.sf e.th ∧ inPlace e.s e.sf e.th (e.th.pc + 8) = true ∧ (shared e = false ∧ (bank e).switching = none ∧ (bank e).mode ≠ mode ∧ ((bank e).mode = .scratch → bankUsed e.s (coreOf e.sh) b = false) ∧ ((bank e).mode = .fifo → (bank e).reserved = false))) (fun (e : Env) => e.s.teams.any fun t => decide (t.2.core = coreOf e.sh) && decide (t.2.ctx ≠ e.sf.ctx))) (fun (e : Env) => bankAt (core e) b)) (fun (e : Env) => coreAt e.s (coreOf e.sh))) (if o.disp.toNat / 256 % 4 = 0 then .cache else if o.disp.toNat / 256 % 4 = 1 then .scratch else .fifo)) (o.disp.toNat % 64)) (tM 8 2 1 2 0) (tEnv (tBank .fifo none false))) ∧
    ((fun (s : State) (core : Nat) (b : Nat) (m : BankMode) => (fun waits => core < Config.cores ∧ b < 48 ∧ (bankAt (coreAt s core) b).switching = some m ∧ waitersStand s waits) (fun (sh _ln : Nat) (th : Thread) => if coreOf sh = core then (match th.hold with | some (.bank x d) => if x = b then some (wrReg d 0) else none | _ => none) else none)) tBankWait 0 1 .scratch) := by
  refine ⟨?_, ?_, ?_, ?_, ?_, ?_, ?_, ?_, ?_⟩ <;> (beta_reduce; (try unfold waitersStand); (try unfold tidy); (try unfold wordmates); decide +kernel)

/-- States and operands that meet the hypotheses of `RendezvousComplete`, each clause at a boundary of its range. -/
theorem meets_RendezvousComplete :
    ((fun (o : Tri) (k : Nat) (team : Team) (e : Env) => (fun i => (fun rp => (fun at_ => oneLane e.s tG e.sh e.ln e.sf e.th ∧ inPlace e.s e.sf e.th (e.th.pc + 8) = true ∧ at_ e ∧ rp.arrived = 0 ∧ rdvWaiters e.s k i = [] ∧ 1 ≤ (src e o.a 1).toNat ∧ (src e o.a 1).toNat ≤ 2048) (fun (e : Env) => e.sf.team = some k ∧ Tab.at? e.s.teams k = some team)) (Tab.get rdvReset team.rps i)) (o.c.num % 32)) (tTri 2 (tR 1) (tR 0xFF) (tC 3) 0) 0 ((Tab.at? (tRdv 0 0 false false).teams 0).getD setupTeam) (tEnv (tRdv 0 0 false false))) ∧
    ((fun (o : Tri) (k : Nat) (team : Team) (e : Env) => oneLane e.s tG e.sh e.ln e.sf e.th ∧ e.sf.team = some k ∧ Tab.at? e.s.teams k = some team ∧ (∀ w ∈ rdvWaiters e.s k (o.c.num % 32), w.2.2 = (Tab.get rdvReset team.rps (o.c.num % 32)).turns) ∧ e.th.park = none ∧ (coreAt e.s (coreOf e.sh)).watch = [] ∧ (Tab.get rdvReset team.rps (o.c.num % 32)).arrived ≠ 0) (tTri 2 (tR 1) (tR 0xFF) (tC 3) 0) 0 ((Tab.at? (tRdv 2 1 false true).teams 0).getD setupTeam) (tEnv (tRdv 2 1 false true))) ∧
    ((fun (o : Tri) (k : Nat) (team : Team) (e : Env) => oneLane e.s tG e.sh e.ln e.sf e.th ∧ e.sf.team = some k ∧ Tab.at? e.s.teams k = some team ∧ (∀ w ∈ rdvWaiters e.s k (o.c.num % 32), w.2.2 = (Tab.get rdvReset team.rps (o.c.num % 32)).turns) ∧ e.th.park = none ∧ (coreAt e.s (coreOf e.sh)).watch = [] ∧ rdvWaiters e.s k (o.c.num % 32) ≠ []) (tTri 2 (tR 1) (tR 0xFF) (tC 3) 0) 0 ((Tab.at? (tRdv 2 0 false true).teams 0).getD setupTeam) (tEnv (tRdv 2 0 false true))) ∧
    ((fun (o : Tri) (k : Nat) (team : Team) (e : Env) => oneLane e.s tG e.sh e.ln e.sf e.th ∧ e.sf.team = some k ∧ Tab.at? e.s.teams k = some team ∧ (∀ w ∈ rdvWaiters e.s k (o.c.num % 32), w.2.2 = (Tab.get rdvReset team.rps (o.c.num % 32)).turns) ∧ e.th.park = none ∧ (coreAt e.s (coreOf e.sh)).watch = [] ∧ 2048 < (src e o.a 1).toNat) (tTri 2 (tR 20) (tR 0xFF) (tC 3) 0) 0 ((Tab.at? (tLane (tRdv 2 0 true false) fun th => { th with g := [(20, 2049)] }).teams 0).getD setupTeam) (tEnv (tLane (tRdv 2 0 true false) fun th => { th with g := [(20, 2049)] }))) ∧
    ((fun (o : Tri) (k : Nat) (team : Team) (e : Env) => oneLane e.s tG e.sh e.ln e.sf e.th ∧ e.sf.team = some k ∧ Tab.at? e.s.teams k = some team ∧ (∀ w ∈ rdvWaiters e.s k (o.c.num % 32), w.2.2 = (Tab.get rdvReset team.rps (o.c.num % 32)).turns) ∧ e.th.park = none ∧ (coreAt e.s (coreOf e.sh)).watch = [] ∧ (src e o.a 1).toNat = 0) (tTri 2 (tR 255) (tR 0xFF) (tC 3) 0) 0 ((Tab.at? (tRdv 2 0 true false).teams 0).getD setupTeam) (tEnv (tRdv 2 0 true false))) ∧
    ((fun (o : Tri) (k : Nat) (team : Team) (e : Env) => oneLane e.s tG e.sh e.ln e.sf e.th ∧ e.sf.team = some k ∧ Tab.at? e.s.teams k = some team ∧ (∀ w ∈ rdvWaiters e.s k (o.c.num % 32), w.2.2 = (Tab.get rdvReset team.rps (o.c.num % 32)).turns) ∧ e.th.park = none ∧ (coreAt e.s (coreOf e.sh)).watch = [] ∧ (Tab.get rdvReset team.rps (o.c.num % 32)).expect = 0) (tTri 2 (tR 1) (tR 0xFF) (tC 3) 0) 0 ((Tab.at? (tRdv 0 0 false false).teams 0).getD setupTeam) (tEnv (tRdv 0 0 false false))) ∧
    ((fun (o : Tri) (k : Nat) (team : Team) (e : Env) => (fun i => (fun rp => (fun at_ => (fun calm => (fun may => (fun last => oneLane e.s tG e.sh e.ln e.sf e.th ∧ inPlace e.s e.sf e.th (e.th.pc + 8) = true ∧ may e ∧ calm e ∧ ¬last) (rp.arrived + 1 = rp.expect)) (fun (e : Env) => at_ e ∧ quiet e.s (coreOf e.sh) e.sf.ctx ∧ rp.expect ≠ 0)) (fun (e : Env) => ∀ w ∈ rdvWaiters e.s k i, w.2.2 = rp.turns)) (fun (e : Env) => e.sf.team = some k ∧ Tab.at? e.s.teams k = some team)) (Tab.get rdvReset team.rps i)) (o.c.num % 32)) (tTri 2 (tR 1) (tR 0xFF) (tC 3) 0) 0 ((Tab.at? (tRdv 3 1 true true).teams 0).getD setupTeam) (tEnv (tRdv 3 1 true true))) ∧
    ((fun (o : Tri) (k : Nat) (team : Team) (e : Env) => (fun i => (fun rp => (fun at_ => (fun frees => (fun may => (fun last => oneLane e.s tG e.sh e.ln e.sf e.th ∧ inPlace e.s e.sf e.th (e.th.pc + 8) = true ∧ may e ∧ frees e ∧ last) (rp.arrived + 1 = rp.expect)) (fun (e : Env) => at_ e ∧ quiet e.s (coreOf e.sh) e.sf.ctx ∧ rp.expect ≠ 0)) (fun (e : Env) => waitersStand e.s (rdvFreed e.s k i (rp.turns + 1)) ∧ e.th.hold = none)) (fun (e : Env) => e.sf.team = some k ∧ Tab.at? e.s.teams k = some team)) (Tab.get rdvReset team.rps i)) (o.c.num % 32)) (tTri 2 (tR 1) (tR 0xFF) (tC 3) 0) 0 ((Tab.at? (tRdv 2 1 false true).teams 0).getD setupTeam) (tEnv (tRdv 2 1 false true))) ∧
    ((fun (o : Tri) (k : Nat) (team : Team) (e : Env) => (fun i => (fun rp => (fun phase => (fun at_ => (fun calm => oneLane e.s tG e.sh e.ln e.sf e.th ∧ inPlace e.s e.sf e.th (e.th.pc + 8) = true ∧ at_ e ∧ calm e ∧ rp.expect ≠ 0 ∧ pReg e.th o.d.toNat = phase) (fun (e : Env) => ∀ w ∈ rdvWaiters e.s k i, w.2.2 = rp.turns)) (fun (e : Env) => e.sf.team = some k ∧ Tab.at? e.s.teams k = some team)) (decide (rp.turns % 2 = 1))) (Tab.get rdvReset team.rps i)) (o.c.num % 32)) (tTri 2 (tR 1) (tR 0xFF) (tC 3) 0) 0 ((Tab.at? (tRdv 2 1 false true).teams 0).getD setupTeam) (tEnv (tRdv 2 1 false true))) ∧
    ((fun (o : Tri) (k : Nat) (team : Team) (e : Env) => (fun i => (fun rp => (fun phase => (fun at_ => (fun calm => oneLane e.s tG e.sh e.ln e.sf e.th ∧ inPlace e.s e.sf e.th (e.th.pc + 8) = true ∧ at_ e ∧ calm e ∧ rp.expect ≠ 0 ∧ pReg e.th o.d.toNat ≠ phase) (fun (e : Env) => ∀ w ∈ rdvWaiters e.s k i, w.2.2 = rp.turns)) (fun (e : Env) => e.sf.team = some k ∧ Tab.at? e.s.teams k = some team)) (decide (rp.turns % 2 = 1))) (Tab.get rdvReset team.rps i)) (o.c.num % 32)) (tTri 2 (tR 1) (tR 0xFF) (tC 3) 0) 0 ((Tab.at? (tRdv 2 1 true true).teams 0).getD setupTeam) (tEnv (tRdv 2 1 true true))) ∧
    ((fun (o : Tri) (k : Nat) (team : Team) (e : Env) => (fun i => (fun rp => (fun at_ => (fun calm => (fun may => (fun last => oneLane e.s tG e.sh e.ln e.sf e.th ∧ inPlace e.s e.sf e.th (e.th.pc + 8) = true ∧ may e ∧ calm e ∧ ¬last) (rp.arrived + 1 = rp.expect)) (fun (e : Env) => at_ e ∧ quiet e.s (coreOf e.sh) e.sf.ctx ∧ rp.expect ≠ 0)) (fun (e : Env) => ∀ w ∈ rdvWaiters e.s k i, w.2.2 = rp.turns)) (fun (e : Env) => e.sf.team = some k ∧ Tab.at? e.s.teams k = some team)) (Tab.get rdvReset team.rps i)) (o.c.num % 32)) (tTri 2 (tR 1) (tR 0xFF) (tC 3) 0) 0 ((Tab.at? (tRdv 2 0 true true).teams 0).getD setupTeam) (tEnv (tRdv 2 0 true true))) ∧
    ((fun (o : Tri) (k : Nat) (team : Team) (e : Env) => (fun i => (fun rp => (fun at_ => (fun frees => (fun may => (fun last => oneLane e.s tG e.sh e.ln e.sf e.th ∧ inPlace e.s e.sf e.th (e.th.pc + 8) = true ∧ may e ∧ frees e ∧ last) (rp.arrived + 1 = rp.expect)) (fun (e : Env) => at_ e ∧ quiet e.s (coreOf e.sh) e.sf.ctx ∧ rp.expect ≠ 0)) (fun (e : Env) => waitersStand e.s (rdvFreed e.s k i (rp.turns + 1)) ∧ e.th.hold = none)) (fun (e : Env) => e.sf.team = some k ∧ Tab.at? e.s.teams k = some team)) (Tab.get rdvReset team.rps i)) (o.c.num % 32)) (tTri 2 (tR 1) (tR 0xFF) (tC 3) 0) 0 ((Tab.at? (tRdv 1 0 false false).teams 0).getD setupTeam) (tEnv (tRdv 1 0 false false))) := by
  refine ⟨?_, ?_, ?_, ?_, ?_, ?_, ?_, ?_, ?_, ?_, ?_, ?_⟩ <;> (beta_reduce; (try unfold waitersStand); (try unfold tidy); (try unfold wordmates); decide +kernel)

/-- States and operands that meet the hypotheses of `SignalsAndPhase`, each clause at a boundary of its range. -/
theorem meets_SignalsAndPhase :
    ((fun (o : Tri) (a : Nat) (e : Env) => (fun value => (fun thr => (fun may => oneLane e.s tG e.sh e.ln e.sf e.th ∧ inPlace e.s e.sf e.th (e.th.pc + 8) = true ∧ may e ∧ thr e ≤ value e) (fun (e : Env) => mayAccess e (capA e o.a) accLoad 0 8 8 a ∧ quiet e.s (coreOf e.sh) e.sf.ctx)) (fun (e : Env) => (srcPair e o.b).toNat)) (fun (e : Env) => ofBytes (bytesAt e.s a 8))) (tTri 0xFF (tC 2) (tR 30) (tR 0xFF) 0) (tAddr 0x201000) (tEnv (tSignal 0 none))) ∧
    ((fun (o : Tri) (a : Nat) (e : Env) => (fun value => (fun thr => (fun may => oneLane e.s tG e.sh e.ln e.sf e.th ∧ inPlace e.s e.sf e.th (e.th.pc + 8) = true ∧ may e ∧ value e < thr e) (fun (e : Env) => mayAccess e (capA e o.a) accLoad 0 8 8 a ∧ quiet e.s (coreOf e.sh) e.sf.ctx)) (fun (e : Env) => (srcPair e o.b).toNat)) (fun (e : Env) => ofBytes (bytesAt e.s a 8))) (tTri 0xFF (tC 2) (tR 12) (tR 0xFF) 0) (tAddr 0x201000) (tEnv (tSignal 6 none))) ∧
    ((fun (k : Nat) (team : Team) (e : Env) => oneLane e.s tG e.sh e.ln e.sf e.th ∧ inPlace e.s e.sf e.th (e.th.pc + 8) = true ∧ e.sf.team = some k ∧ Tab.at? e.s.teams k = some team) 0 ((Tab.at? tTimer.teams 0).getD setupTeam) (tEnv tTimer)) ∧
    ((fun (s : State) (sh : Nat) (ln : Nat) (sf : Sheaf) (th : Thread) (c : Cap) (thr : Nat) (ext : Bool) => standing s sh ln sf th ∧ th.hold = some (.sigwait c thr ext) ∧ regionOf s.fabric.number (capBase c) = .hbm ∧ granuleCheck s (localOf (capBase c)) (capColour c) = .pass ∧ quiet s (coreOf sh) sf.ctx) (tSignal 5 (some (.sigwait tHeap 5 false))) 0 0 (tSf (tSignal 5 (some (.sigwait tHeap 5 false)))) (tTh (tSignal 5 (some (.sigwait tHeap 5 false)))) tHeap 5 false) ∧
    ((fun (s : State) (sh : Nat) (ln : Nat) (sf : Sheaf) (th : Thread) (c : Cap) (thr : Nat) (ext : Bool) => standing s sh ln sf th ∧ th.hold = some (.sigwait c thr ext) ∧ regionOf s.fabric.number (capBase c) = .hbm ∧ granuleCheck s (localOf (capBase c)) (capColour c) = .pass ∧ quiet s (coreOf sh) sf.ctx) (tSignal 4 (some (.sigwait tHeap 5 false))) 0 0 (tSf (tSignal 4 (some (.sigwait tHeap 5 false)))) (tTh (tSignal 4 (some (.sigwait tHeap 5 false)))) tHeap 5 false) ∧
    ((fun (s : State) (sh : Nat) (ln : Nat) (sf : Sheaf) (th : Thread) (c : Cap) (thr : Nat) (ext : Bool) => standing s sh ln sf th ∧ th.hold = some (.sigwait c thr ext) ∧ regionOf s.fabric.number (capBase c) = .host) (tSignal 5 (some (.sigwait tHostCap 1 true))) 0 0 (tSf (tSignal 5 (some (.sigwait tHostCap 1 true)))) (tTh (tSignal 5 (some (.sigwait tHostCap 1 true)))) tHostCap 1 true) ∧
    ((fun (s : State) (k : Nat) (n : Nat) (team : Team) (x : Nat × Nat) (th : Thread) => (fun m => Tab.at? s.teams k = some team ∧ team.phaseN = some n ∧ n + (n * (m.toNat / 2 ^ 24) / 100 + m.toNat % 2 ^ 24) < team.phaseCount ∧ (teamTarget s { ctx := team.ctx, launch := team.launch, stage := team.stage, teamid := team.index, gangid := 0, tid := 0 } = some x) ∧ thread? s x.1 x.2 = some th) ((ctxAt s team.ctx).phmargin)) tTimer 0 100 ((Tab.at? tTimer.teams 0).getD setupTeam) (0, 0) (tTh tTimer)) := by
  refine ⟨?_, ?_, ?_, ?_, ?_, ?_, ?_⟩ <;> (beta_reduce; (try unfold mayAccess); (try unfold standing); (try unfold wordmates); decide +kernel)

/-- States and operands that meet the hypotheses of `LaunchWordsComplete`, each clause at a boundary of its range. -/
theorem meets_LaunchWordsComplete :
    ((fun (o : Tri) (a : Nat) (st : Nat) (e : Env) => (fun desc => (fun may => oneLane e.s tG e.sh e.ln e.sf e.th ∧ inPlace e.s e.sf e.th (e.th.pc + 8) = true ∧ may e ∧ launchCheck e.s e.sf.ctx (desc e) 0 true none = .error st) (fun (e : Env) => readsStruct e (capA e o.a) (accStruct [0, 4]) 8 a ∧ needsMap e.s e.sf.ctx (desc e) 0 = false)) (fun (e : Env) => parseDesc (structAt e a 8).1 (structAt e a 8).2)) (tTri 4 (tC 2) (tR 0xFF) (tR 0xFF) 0) (tAddr 0x201000) (match (launchCheck (tDesc 2 4 1) (tSf (tDesc 2 4 1)).ctx (parseDesc (structAt (tEnv (tDesc 2 4 1)) (tAddr 0x201000) 8).1 (structAt (tEnv (tDesc 2 4 1)) (tAddr 0x201000) 8).2) 0 true none) with | .error x => x | .ok _ => 0) (tEnv (tDesc 2 4 1))) ∧
    ((fun (o : Tri) (a : Nat) (l : Launch) (e : Env) => (fun desc => (fun may => oneLane e.s tG e.sh e.ln e.sf e.th ∧ inPlace e.s e.sf e.th (e.th.pc + 8) = true ∧ may e ∧ launchCheck e.s e.sf.ctx (desc e) 0 true none = .ok l) (fun (e : Env) => readsStruct e (capA e o.a) (accStruct [0, 4]) 8 a ∧ needsMap e.s e.sf.ctx (desc e) 0 = false)) (fun (e : Env) => parseDesc (structAt e a 8).1 (structAt e a 8).2)) (tTri 4 (tC 2) (tR 0xFF) (tR 0xFF) 0) (tAddr 0x201000) (match (launchCheck (tDesc 0 4 1) (tSf (tDesc 0 4 1)).ctx (parseDesc (structAt (tEnv (tDesc 0 4 1)) (tAddr 0x201000) 8).1 (structAt (tEnv (tDesc 0 4 1)) (tAddr 0x201000) 8).2) 0 true none) with | .error _ => setupLaunch | .ok x => x) (tEnv (tDesc 0 4 1))) ∧
    ((fun (o : Tri) (e : Env) => oneLane e.s tG e.sh e.ln e.sf e.th ∧ inPlace e.s e.sf e.th (e.th.pc + 8) = true ∧ namedLaunch e.s e.sf.ctx (src e o.a 1) = none) (tTri 0xFF (tR 8) (tR 0xFF) (tR 0xFF) 0) (tEnv (tDesc 0 4 1))) ∧
    ((fun (o : Tri) (e : Env) => oneLane e.s tG e.sh e.ln e.sf e.th ∧ inPlace e.s e.sf e.th (e.th.pc + 8) = true ∧ (namedLaunch e.s e.sf.ctx (src e o.a 1)).isSome = true) (tTri 0xFF (tR 20) (tR 0xFF) (tR 0xFF) 0) (tEnv (tDesc 0 4 1))) := by
  refine ⟨?_, ?_, ?_, ?_⟩ <;> (beta_reduce; (try unfold readsStruct); decide +kernel)

/-- States and operands that meet the hypotheses of `TilesComplete`, each clause at a boundary of its range. -/
theorem meets_TilesComplete :
    ((fun (o : XF) (id : Nat) (i : Nat) (team : Team) (x : Tile) (e : Env) => (fun may => (fun off => (fun rows => (fun elems => (fun pitch => (fun bytes => oneLane e.s tG e.sh e.ln e.sf e.th ∧ inPlace e.s e.sf e.th (e.th.pc + 8) = true ∧ (may e ∧ x.flt = false ∧ (x.state = .empty ∨ x.state = .ready) ∧ off e % 16 = 0 ∧ pitch e % 16 = 0 ∧ 0 < pitch e ∧ pitch e ≤ 65536 ∧ (tileBits o.t.toNat = 4 → elems e % 2 = 0) ∧ bytes e ≤ pitch e ∧ off e + (rows e - 1) * pitch e + bytes e ≤ team.slen)) (fun (e : Env) => elems e * tileBits o.t.toNat / 8)) (fun (e : Env) => (readCode e o.x3.toNat).toNat)) (fun (e : Env) => (readCode e o.x2.toNat).toNat / 256 % 4096 + 1)) (fun (e : Env) => (readCode e o.x2.toNat).toNat % 256 + 1)) (fun (e : Env) => (readCode e o.x1.toNat).toNat)) (fun (e : Env) => namesTile e id team o.x0.toNat i x)) (tX 0 2 12 13 0 2) 0 0 ((Tab.at? (tTile .empty 15 false 0).teams 0).getD setupTeam) (tileAt (tTile .empty 15 false 0) 0 0) (tEnv (tTile .empty 15 false 0))) ∧
    ((fun (o : XF) (id : Nat) (i : Nat) (team : Team) (x : Tile) (e : Env) => (fun may => (fun room => oneLane e.s tG e.sh e.ln e.sf e.th ∧ inPlace e.s e.sf e.th (e.th.pc + 8) = true ∧ (may e ∧ x.flt = false ∧ room e ∧ (x.state = .ready ∨ x.state = .empty))) (fun (e : Env) => (coreAt e.s team.core).copyq.length < 32 ∧ e.s.net = netEmpty ∧ e.s.clusters = [] ∧ x.fmt ≠ 0xF)) (fun (e : Env) => namesTile e id team o.x0.toNat i x)) (tX 0 2 12 13 4 2) 0 0 ((Tab.at? (tTile .empty 2 false 0).teams 0).getD setupTeam) (tileAt (tTile .empty 2 false 0) 0 0) (tEnv (tTile .empty 2 false 0))) ∧
    ((fun (o : XF) (id : Nat) (i : Nat) (team : Team) (x : Tile) (e : Env) => (fun may => (fun room => oneLane e.s tG e.sh e.ln e.sf e.th ∧ inPlace e.s e.sf e.th (e.th.pc + 8) = true ∧ (may e ∧ x.flt = false ∧ room e ∧ (x.state = .ready ∨ x.state = .empty))) (fun (e : Env) => (coreAt e.s team.core).copyq.length < 32 ∧ e.s.net = netEmpty ∧ e.s.clusters = [] ∧ x.fmt ≠ 0xF)) (fun (e : Env) => namesTile e id team o.x0.toNat i x)) (tX 0 2 12 13 4 2) 0 0 ((Tab.at? (tTile .ready 2 false 2).teams 0).getD setupTeam) (tileAt (tTile .ready 2 false 2) 0 0) (tEnv (tTile .ready 2 false 2))) ∧
    ((fun (o : XF) (id : Nat) (i : Nat) (team : Team) (x : Tile) (e : Env) => (fun may => (fun room => oneLane e.s tG e.sh e.ln e.sf e.th ∧ inPlace e.s e.sf e.th (e.th.pc + 8) = true ∧ may e ∧ x.flt = false ∧ room e ∧ x.state = .ready) (fun (e : Env) => (coreAt e.s team.core).copyq.length < 32 ∧ e.s.net = netEmpty ∧ e.s.clusters = [] ∧ x.fmt ≠ 0xF)) (fun (e : Env) => namesTile e id team o.x0.toNat i x)) (tX 0 2 12 13 4 2) 0 0 ((Tab.at? (tTile .ready 2 false 2).teams 0).getD setupTeam) (tileAt (tTile .ready 2 false 2) 0 0) (tEnv (tTile .ready 2 false 2))) ∧
    ((fun (o : XF) (id : Nat) (i : Nat) (team : Team) (x : Tile) (e : Env) => (fun may => (fun room => oneLane e.s tG e.sh e.ln e.sf e.th ∧ inPlace e.s e.sf e.th (e.th.pc + 8) = true ∧ may e ∧ room e ∧ x.flt = true ∧ x.state = .filling) (fun (e : Env) => (coreAt e.s team.core).copyq.length < 32 ∧ e.s.net = netEmpty ∧ e.s.clusters = [] ∧ x.fmt ≠ 0xF)) (fun (e : Env) => namesTile e id team o.x0.toNat i x)) (tX 0 2 12 13 4 2) 0 0 ((Tab.at? (tTile .filling 2 true 1).teams 0).getD setupTeam) (tileAt (tTile .filling 2 true 1) 0 0) (tEnv (tTile .filling 2 true 1))) ∧
    ((fun (o : XF) (id : Nat) (i : Nat) (team : Team) (x : Tile) (e : Env) => (fun may => (fun room => oneLane e.s tG e.sh e.ln e.sf e.th ∧ inPlace e.s e.sf e.th (e.th.pc + 8) = true ∧ may e ∧ room e ∧ x.flt = true ∧ x.state = .draining) (fun (e : Env) => (coreAt e.s team.core).copyq.length < 32 ∧ e.s.net = netEmpty ∧ e.s.clusters = [] ∧ x.fmt ≠ 0xF)) (fun (e : Env) => namesTile e id team o.x0.toNat i x)) (tX 0 2 12 13 4 2) 0 0 ((Tab.at? (tTile .draining 2 true 1).teams 0).getD setupTeam) (tileAt (tTile .draining 2 true 1) 0 0) (tEnv (tTile .draining 2 true 1))) ∧
    ((fun (o : XF) (id : Nat) (i : Nat) (team : Team) (x : Tile) (e : Env) => (fun may => oneLane e.s tG e.sh e.ln e.sf e.th ∧ inPlace e.s e.sf e.th (e.th.pc + 8) = true ∧ (may e ∧ x.flt = false ∧ x.fmt ≠ 0xF ∧ (x.state = .empty ∨ x.state = .ready))) (fun (e : Env) => namesTile e id team o.x0.toNat i x)) (tX 0 2 12 13 4 2) 0 0 ((Tab.at? (tTile .empty 2 false 0).teams 0).getD setupTeam) (tileAt (tTile .empty 2 false 0) 0 0) (tEnv (tTile .empty 2 false 0))) ∧
    ((fun (o : XF) (id : Nat) (i : Nat) (team : Team) (x : Tile) (e : Env) => (fun may => oneLane e.s tG e.sh e.ln e.sf e.th ∧ inPlace e.s e.sf e.th (e.th.pc + 8) = true ∧ (may e ∧ x.flt = false ∧ x.fmt ≠ 0xF ∧ (x.state = .empty ∨ x.state = .ready))) (fun (e : Env) => namesTile e id team o.x0.toNat i x)) (tX 0 2 12 13 4 2) 0 0 ((Tab.at? (tTile .ready 2 false 2).teams 0).getD setupTeam) (tileAt (tTile .ready 2 false 2) 0 0) (tEnv (tTile .ready 2 false 2))) ∧
    ((fun (o : XF) (id : Nat) (i : Nat) (team : Team) (x : Tile) (e : Env) => (fun may => oneLane e.s tG e.sh e.ln e.sf e.th ∧ inPlace e.s e.sf e.th (e.th.pc + 8) = true ∧ may e ∧ x.flt = true ∧ e.th.park = none) (fun (e : Env) => namesTile e id team o.x0.toNat i x)) (tX 0 2 12 13 4 2) 0 0 ((Tab.at? (tTile .filling 2 true 1).teams 0).getD setupTeam) (tileAt (tTile .filling 2 true 1) 0 0) (tEnv (tTile .filling 2 true 1))) ∧
    ((fun (o : XF) (id : Nat) (i : Nat) (team : Team) (x : Tile) (e : Env) => (fun may => oneLane e.s tG e.sh e.ln e.sf e.th ∧ inPlace e.s e.sf e.th (e.th.pc + 8) = true ∧ may e ∧ x.flt = true ∧ e.th.park = none) (fun (e : Env) => namesTile e id team o.x0.toNat i x)) (tX 0 2 12 13 4 2) 0 0 ((Tab.at? (tTile .draining 2 true 1).teams 0).getD setupTeam) (tileAt (tTile .draining 2 true 1) 0 0) (tEnv (tTile .draining 2 true 1))) ∧
    ((fun (o : XF) (id : Nat) (i : Nat) (team : Team) (x : Tile) (e : Env) => oneLane e.s tG e.sh e.ln e.sf e.th ∧ inPlace e.s e.sf e.th (e.th.pc + 8) = true ∧ (namesTile e id team o.x1.toNat i x ∧ x.flt = false ∧ x.fmt ≠ 0xF ∧ (x.state = .empty ∨ x.state = .ready))) (tX 4 0 12 13 0 2) 0 0 ((Tab.at? (tTile .ready 2 false 2).teams 0).getD setupTeam) (tileAt (tTile .ready 2 false 2) 0 0) (tEnv (tTile .ready 2 false 2))) ∧
    ((fun (o : XF) (id : Nat) (i : Nat) (team : Team) (x : Tile) (e : Env) => (fun may => oneLane e.s tG e.sh e.ln e.sf e.th ∧ inPlace e.s e.sf e.th (e.th.pc + 8) = true ∧ may e ∧ x.fmt ≠ 0xF) (fun (e : Env) => namesTile e id team o.x0.toNat i x)) (tX 0 2 12 13 4 2) 0 0 ((Tab.at? (tTile .empty 12 true 0).teams 0).getD setupTeam) (tileAt (tTile .empty 12 true 0) 0 0) (tEnv (tTile .empty 12 true 0))) ∧
    ((fun (o : XF) (id : Nat) (i : Nat) (team : Team) (x : Tile) (e : Env) => (fun may => oneLane e.s tG e.sh e.ln e.sf e.th ∧ inPlace e.s e.sf e.th (e.th.pc + 8) = true ∧ (may e ∧ x.flt = false ∧ x.fmt ≠ 0xF ∧ (x.state = .empty ∨ x.state = .ready) ∧ (coreAt e.s team.core).feeder.team = some id ∧ e.s.net = netEmpty ∧ e.s.clusters = [])) (fun (e : Env) => namesTile e id team o.x0.toNat i x)) (tX 0 2 12 13 4 2) 0 0 ((Tab.at? (tCore (tTile .ready 2 false 0) fun c => { c with feeder := { c.feeder with team := some 0 } }).teams 0).getD setupTeam) (tileAt (tCore (tTile .ready 2 false 0) fun c => { c with feeder := { c.feeder with team := some 0 } }) 0 0) (tEnv (tCore (tTile .ready 2 false 0) fun c => { c with feeder := { c.feeder with team := some 0 } }))) := by
  refine ⟨?_, ?_, ?_, ?_, ?_, ?_, ?_, ?_, ?_, ?_, ?_, ?_, ?_⟩ <;> (beta_reduce; (try unfold namesTile); decide +kernel)

/-- States and operands that meet the hypotheses of `CopiesComplete`, each clause at a boundary of its range. -/
theorem meets_CopiesComplete :
    ((fun (s : State) (k : Nat) (ctx : Nat) (l : Nat) (i : Nat) (off : Nat) (stride : Nat) (hint : Nat) (a : Nat) (drain : Bool) (fed : Bool) (c : Cap) (rest : List CopyReq) => (fun x => (fun n => (coreAt s k).copyq = .tile ctx l i drain c off stride hint fed :: rest ∧ k < Config.cores ∧ (ctxAt s ctx).state = .running ∧ x.prog < x.rows ∧ (x.rows * n ≤ 524288 ∨ 0 < (coreAt s k).copyPermit) ∧ mayInject s k ctx = true ∧ checkCap s.fabric.number (ctxAt s ctx).colours c (if drain then accCopyTo else accCopyFrom) (off + x.prog * stride) n (tileAlign x.fmt.toNat) = .ok a ∧ regionOf s.fabric.number a = .hbm ∧ granulesCheck s (localOf a) n (capColour c) = .pass) (rowBytes x)) (tileAt s k i)) (tCopyTile false 0) 0 1 0 0 0 128 0 (tAddr 0x201000) false false tHeap ([])) ∧
    ((fun (s : State) (k : Nat) (ctx : Nat) (l : Nat) (i : Nat) (off : Nat) (stride : Nat) (hint : Nat) (a : Nat) (drain : Bool) (fed : Bool) (c : Cap) (rest : List CopyReq) => (fun x => (fun n => (coreAt s k).copyq = .tile ctx l i drain c off stride hint fed :: rest ∧ k < Config.cores ∧ (ctxAt s ctx).state = .running ∧ x.prog < x.rows ∧ (x.rows * n ≤ 524288 ∨ 0 < (coreAt s k).copyPermit) ∧ mayInject s k ctx = true ∧ checkCap s.fabric.number (ctxAt s ctx).colours c (if drain then accCopyTo else accCopyFrom) (off + x.prog * stride) n (tileAlign x.fmt.toNat) = .ok a ∧ regionOf s.fabric.number a = .hbm ∧ granulesCheck s (localOf a) n (capColour c) = .pass) (rowBytes x)) (tileAt s k i)) (tCopyTile true 1) 0 1 0 0 0 128 0 (tAddr 0x201080) true false tHeap ([])) ∧
    ((fun (s : State) (k : Nat) (ctx : Nat) (l : Nat) (i : Nat) (off : Nat) (stride : Nat) (hint : Nat) (drain : Bool) (fed : Bool) (c : Cap) (rest : List CopyReq) => (fun x => (coreAt s k).copyq = .tile ctx l i drain c off stride hint fed :: rest ∧ k < Config.cores ∧ x.rows ≤ x.prog) (tileAt s k i)) (tCopyTile false 2) 0 1 0 0 0 128 0 false false tHeap ([])) ∧
    ((fun (s : State) (k : Nat) (ctx : Nat) (l : Nat) (soff : Nat) (doff : Nat) (len : Nat) (done : Nat) (hint : Nat) (src : Cap) (dst : Cap) (sig : Cap) (tags : Bool) (failed : Bool) (rest : List CopyReq) => (fun sa => (fun da => (fun n => (coreAt s k).copyq = .command ctx l src dst sig soff doff len done tags hint failed :: rest ∧ k < Config.cores ∧ (ctxAt s ctx).state = .running ∧ failed = false ∧ done < len ∧ (len ≤ 524288 ∨ 0 < (coreAt s k).copyPermit) ∧ mayInject s k ctx = true ∧ regionOf s.fabric.number sa = .hbm ∧ regionOf s.fabric.number da = .hbm ∧ granulesCheck s (localOf sa) n (capColour src) = .pass ∧ granulesCheck s (localOf da) n (capColour dst) = .pass) (pieceBytes da (len - done))) ((capBase dst + doff + done) % 2 ^ 52)) ((capBase src + soff + done) % 2 ^ 52)) (tCopyCommand 0 false) 0 1 0 0 0x400 200 0 0 tHeap tHeap (tCap 0x201800 8 0x3FF 0) true false ([])) ∧
    ((fun (s : State) (k : Nat) (ctx : Nat) (l : Nat) (soff : Nat) (doff : Nat) (len : Nat) (done : Nat) (hint : Nat) (src : Cap) (dst : Cap) (sig : Cap) (tags : Bool) (failed : Bool) (rest : List CopyReq) => (fun sa => (fun da => (fun n => (coreAt s k).copyq = .command ctx l src dst sig soff doff len done tags hint failed :: rest ∧ k < Config.cores ∧ (ctxAt s ctx).state = .running ∧ failed = false ∧ done < len ∧ (len ≤ 524288 ∨ 0 < (coreAt s k).copyPermit) ∧ mayInject s k ctx = true ∧ regionOf s.fabric.number sa = .hbm ∧ regionOf s.fabric.number da = .hbm ∧ granulesCheck s (localOf sa) n (capColour src) = .pass ∧ granulesCheck s (localOf da) n (capColour dst) = .pass) (pieceBytes da (len - done))) ((capBase dst + doff + done) % 2 ^ 52)) ((capBase src + soff + done) % 2 ^ 52)) (tCopyCommand 128 false) 0 1 0 0 0x400 200 128 0 tHeap tHeap (tCap 0x201800 8 0x3FF 0) true false ([])) ∧
    ((fun (s : State) (k : Nat) (ctx : Nat) (l : Nat) (soff : Nat) (doff : Nat) (len : Nat) (done : Nat) (hint : Nat) (src : Cap) (dst : Cap) (sig : Cap) (tags : Bool) (failed : Bool) (rest : List CopyReq) => (coreAt s k).copyq = .command ctx l src dst sig soff doff len done tags hint failed :: rest ∧ k < Config.cores ∧ (ctxAt s ctx).state = .running ∧ (len ≤ done ∨ failed = true) ∧ regionOf s.fabric.number (capBase sig) = .hbm ∧ granuleCheck s (localOf (capBase sig)) (capColour sig) = .pass) (tCopyCommand 200 false) 0 1 0 0 0x400 200 200 0 tHeap tHeap (tCap 0x201800 8 0x3FF 0) true false ([])) ∧
    ((fun (s : State) (k : Nat) (ctx : Nat) (l : Nat) (soff : Nat) (doff : Nat) (len : Nat) (done : Nat) (hint : Nat) (src : Cap) (dst : Cap) (sig : Cap) (tags : Bool) (failed : Bool) (rest : List CopyReq) => (coreAt s k).copyq = .command ctx l src dst sig soff doff len done tags hint failed :: rest ∧ k < Config.cores ∧ (ctxAt s ctx).state = .running ∧ (len ≤ done ∨ failed = true) ∧ regionOf s.fabric.number (capBase sig) = .hbm ∧ granuleCheck s (localOf (capBase sig)) (capColour sig) = .pass) (tCopyCommand 128 true) 0 1 0 0 0x400 200 128 0 tHeap tHeap (tCap 0x201800 8 0x3FF 0) true true ([])) ∧
    ((fun (o : XF) (a : Nat) (e : Env) => (fun c => (fun block => (fun reads => oneLane e.s tG e.sh e.ln e.sf e.th ∧ inPlace e.s e.sf e.th (e.th.pc + 8) = true ∧ reads e ∧ commandFault e.s (coloursOf e.s e.sf) a (block e) = none ∧ (coreAt e.s (coreOf e.sh)).copyq.length < 32) (fun (e : Env) => readsStruct e (c e) accCommand 4 a ∧ e.sh < feederBase)) (fun (e : Env) => parseCommand (structAt e a 4).1 (structAt e a 4).2)) (fun (e : Env) => cReg e.th (o.x1.toNat % 32))) (tX 0 9 0 0 0 0) (tAddr 0x201400) (tEnv tCommand)) ∧
    ((fun (o : XF) (a : Nat) (e : Env) => (fun c => (fun block => (fun reads => oneLane e.s tG e.sh e.ln e.sf e.th ∧ inPlace e.s e.sf e.th (e.th.pc + 8) = true ∧ reads e ∧ e.th.park = none ∧ 8 ≤ (block e).flags) (fun (e : Env) => readsStruct e (c e) accCommand 4 a ∧ e.sh < feederBase)) (fun (e : Env) => parseCommand (structAt e a 4).1 (structAt e a 4).2)) (fun (e : Env) => cReg e.th (o.x1.toNat % 32))) (tX 0 9 0 0 0 0) (tAddr 0x201400) (tEnv (tCommandFlags 9))) ∧
    ((fun (o : XF) (a : Nat) (e : Env) => (fun c => oneLane e.s tG e.sh e.ln e.sf e.th ∧ inPlace e.s e.sf e.th (e.th.pc + 8) = true ∧ mayAccess e (c e) accLoad 0 8 8 a ∧ quiet e.s (coreOf e.sh) e.sf.ctx ∧ noCopy e (c e) a) (fun (e : Env) => cReg e.th (o.x1.toNat % 32))) (tX 0 2 12 0 0 0) (tAddr 0x201000) (tEnv (tSignal 9 none))) := by
  refine ⟨?_, ?_, ?_, ?_, ?_, ?_, ?_, ?_, ?_, ?_⟩ <;> (beta_reduce; (try unfold readsStruct); (try unfold noCopy); (try unfold mayAccess); decide +kernel)

/-- States and operands that meet the hypotheses of `FeedersComplete`, each clause at a boundary of its range. -/
theorem meets_FeedersComplete :
    ((fun (id : Nat) (team : Team) (e : Env) => (fun k => (fun feeder => (fun mine => oneLane e.s tG e.sh e.ln e.sf e.th ∧ inPlace e.s e.sf e.th (e.th.pc + 8) = true ∧ mine e ∧ (feeder e).team.isSome = true) (fun (e : Env) => e.sh < feederBase ∧ e.sf.team = some id ∧ Tab.at? e.s.teams id = some team)) (fun (e : Env) => (coreAt e.s (k e)).feeder)) (fun (e : Env) => coreOf e.sh)) 0 ((Tab.at? (tFeeder [] false none).teams 0).getD setupTeam) (tEnv (tFeeder [] false none))) ∧
    ((fun (id : Nat) (team : Team) (e : Env) => (fun k => (fun feeder => (fun mine => oneLane e.s tG e.sh e.ln e.sf e.th ∧ inPlace e.s e.sf e.th (e.th.pc + 8) = true ∧ mine e ∧ (feeder e).team = none ∧ cacheBanks (coreAt e.s (k e)) = []) (fun (e : Env) => e.sh < feederBase ∧ e.sf.team = some id ∧ Tab.at? e.s.teams id = some team)) (fun (e : Env) => (coreAt e.s (k e)).feeder)) (fun (e : Env) => coreOf e.sh)) 0 ((Tab.at? (tNoFeeder false).teams 0).getD setupTeam) (tEnv (tNoFeeder false))) ∧
    ((fun (o : XF) (id : Nat) (b : Nat) (team : Team) (e : Env) => (fun k => (fun feeder => (fun mine => oneLane e.s tG e.sh e.ln e.sf e.th ∧ inPlace e.s e.sf e.th (e.th.pc + 8) = true ∧ (mine e ∧ (feeder e).team = none ∧ (cacheBanks (coreAt e.s (k e))).getLast? = some b ∧ (entryCount e.s e.th.code ≤ o.x1.toNat ∨ capLen e.th.code < entryOffset e.s e.th.code o.x1.toNat + 8))) (fun (e : Env) => e.sh < feederBase ∧ e.sf.team = some id ∧ Tab.at? e.s.teams id = some team)) (fun (e : Env) => (coreAt e.s (k e)).feeder)) (fun (e : Env) => coreOf e.sh)) (tX 8 2 0xFF 0xFF 0 0) 0 47 ((Tab.at? (tNoFeeder true).teams 0).getD setupTeam) (tEnv (tNoFeeder true))) ∧
    ((fun (o : XF) (id : Nat) (b : Nat) (team : Team) (e : Env) => (fun k => (fun feeder => (fun mine => oneLane e.s tG e.sh e.ln e.sf e.th ∧ inPlace e.s e.sf e.th (e.th.pc + 8) = true ∧ mine e ∧ (feeder e).team = none ∧ (cacheBanks (coreAt e.s (k e))).getLast? = some b ∧ o.x1.toNat < entryCount e.s e.th.code ∧ entryOffset e.s e.th.code o.x1.toNat + 8 ≤ capLen e.th.code ∧ e.s.net = netEmpty ∧ e.s.clusters = []) (fun (e : Env) => e.sh < feederBase ∧ e.sf.team = some id ∧ Tab.at? e.s.teams id = some team)) (fun (e : Env) => (coreAt e.s (k e)).feeder)) (fun (e : Env) => coreOf e.sh)) (tX 8 1 0xFF 0xFF 0 0) 0 47 ((Tab.at? (tNoFeeder true).teams 0).getD setupTeam) (tEnv (tNoFeeder true))) ∧
    ((fun (e : Env) => oneLane e.s tG e.sh e.ln e.sf e.th ∧ inPlace e.s e.sf e.th (e.th.pc + 8) = true ∧ e.sh < feederBase ∧ e.th.park = none) (tEnv (tFeeder [] false none))) ∧
    ((fun (o : XF) (e : Env) => oneLane e.s tG e.sh e.ln e.sf e.th ∧ feederBase ≤ e.sh ∧ (feedQueue (coreAt e.s (e.sh - feederBase)).feeder (o.x0.toNat % 8)).length < 64 ∧ o.x2 = 0xFF) (tX 1 4 0xFF 0xFF 0 0) (soloEnv (tFeedWord (List.replicate 63 9)) feederBase 0 ((sheaf? (tFeedWord (List.replicate 63 9)) feederBase).getD setupSheaf) ((Tab.at? ((sheaf? (tFeedWord (List.replicate 63 9)) feederBase).getD setupSheaf).lanes 0).getD setupThread))) ∧
    ((fun (o : XF) (id : Nat) (team : Team) (v : QWord) (rest : List QWord) (e : Env) => (fun k => (fun feeder => (fun mine => (fun served => (fun q => oneLane e.s tG e.sh e.ln e.sf e.th ∧ inPlace e.s e.sf e.th (e.th.pc + 8) = true ∧ served e ∧ feedQueue (feeder e) q = v :: rest) (o.x1.toNat % 8)) (fun (e : Env) => mine e ∧ (feeder e).team = some id)) (fun (e : Env) => e.sh < feederBase ∧ e.sf.team = some id ∧ Tab.at? e.s.teams id = some team)) (fun (e : Env) => (coreAt e.s (k e)).feeder)) (fun (e : Env) => coreOf e.sh)) (tX 0 1 2 13 0 0) 0 ((Tab.at? (tFeeder [5, 6] false none).teams 0).getD setupTeam) 5 ([6]) (tEnv (tFeeder [5, 6] false none))) ∧
    ((fun (o : XF) (id : Nat) (team : Team) (e : Env) => (fun k => (fun feeder => (fun mine => (fun served => (fun q => oneLane e.s tG e.sh e.ln e.sf e.th ∧ inPlace e.s e.sf e.th (e.th.pc + 8) = true ∧ served e ∧ feedQueue (feeder e) q = [] ∧ (feeder e).faulted = none ∧ (feeder e).closed = true) (o.x1.toNat % 8)) (fun (e : Env) => mine e ∧ (feeder e).team = some id)) (fun (e : Env) => e.sh < feederBase ∧ e.sf.team = some id ∧ Tab.at? e.s.teams id = some team)) (fun (e : Env) => (coreAt e.s (k e)).feeder)) (fun (e : Env) => coreOf e.sh)) (tX 0 1 2 13 0 0) 0 ((Tab.at? (tFeeder [] true none).teams 0).getD setupTeam) (tEnv (tFeeder [] true none))) ∧
    ((fun (o : XF) (id : Nat) (team : Team) (e : Env) => (fun k => (fun feeder => (fun mine => (fun served => (fun q => oneLane e.s tG e.sh e.ln e.sf e.th ∧ inPlace e.s e.sf e.th (e.th.pc + 8) = true ∧ served e ∧ feedQueue (feeder e) q = [] ∧ (feeder e).faulted = none ∧ (feeder e).closed = false) (o.x1.toNat % 8)) (fun (e : Env) => mine e ∧ (feeder e).team = some id)) (fun (e : Env) => e.sh < feederBase ∧ e.sf.team = some id ∧ Tab.at? e.s.teams id = some team)) (fun (e : Env) => (coreAt e.s (k e)).feeder)) (fun (e : Env) => coreOf e.sh)) (tX 0 1 2 13 0 0) 0 ((Tab.at? (tFeeder [] false none).teams 0).getD setupTeam) (tEnv (tFeeder [] false none))) ∧
    ((fun (o : XF) (id : Nat) (team : Team) (c : Byte) (pc : Word) (e : Env) => (fun k => (fun feeder => (fun mine => (fun served => (fun q => oneLane e.s tG e.sh e.ln e.sf e.th ∧ inPlace e.s e.sf e.th (e.th.pc + 8) = true ∧ (served e ∧ feedQueue (feeder e) q = [] ∧ (feeder e).faulted = some (c, pc) ∧ e.th.park = none)) (o.x1.toNat % 8)) (fun (e : Env) => mine e ∧ (feeder e).team = some id)) (fun (e : Env) => e.sh < feederBase ∧ e.sf.team = some id ∧ Tab.at? e.s.teams id = some team)) (fun (e : Env) => (coreAt e.s (k e)).feeder)) (fun (e : Env) => coreOf e.sh)) (tX 0 1 2 13 0 0) 0 ((Tab.at? (tFeeder [] true (some (0x16, 0x48))).teams 0).getD setupTeam) 0x16 0x48 (tEnv (tFeeder [] true (some (0x16, 0x48))))) ∧
    ((fun (o : XF) (id : Nat) (team : Team) (e : Env) => (fun k => (fun feeder => (fun mine => (fun served => (fun q => oneLane e.s tG e.sh e.ln e.sf e.th ∧ inPlace e.s e.sf e.th (e.th.pc + 8) = true ∧ served e ∧ (feeder e).faulted = none ∧ o.x2.toNat ≤ (feedQueue (feeder e) q).length) (o.x1.toNat % 8)) (fun (e : Env) => mine e ∧ (feeder e).team = some id)) (fun (e : Env) => e.sh < feederBase ∧ e.sf.team = some id ∧ Tab.at? e.s.teams id = some team)) (fun (e : Env) => (coreAt e.s (k e)).feeder)) (fun (e : Env) => coreOf e.sh)) (tX 0 1 2 13 0 0) 0 ((Tab.at? (tFeeder [5, 6] false none).teams 0).getD setupTeam) (tEnv (tFeeder [5, 6] false none))) ∧
    ((fun (o : XF) (id : Nat) (team : Team) (e : Env) => (fun k => (fun feeder => (fun mine => (fun served => (fun q => oneLane e.s tG e.sh e.ln e.sf e.th ∧ inPlace e.s e.sf e.th (e.th.pc + 8) = true ∧ served e ∧ (feeder e).faulted = none ∧ (feedQueue (feeder e) q).length < o.x2.toNat ∧ (feeder e).closed = true) (o.x1.toNat % 8)) (fun (e : Env) => mine e ∧ (feeder e).team = some id)) (fun (e : Env) => e.sh < feederBase ∧ e.sf.team = some id ∧ Tab.at? e.s.teams id = some team)) (fun (e : Env) => (coreAt e.s (k e)).feeder)) (fun (e : Env) => coreOf e.sh)) (tX 0 1 2 13 0 0) 0 ((Tab.at? (tFeeder [5] true none).teams 0).getD setupTeam) (tEnv (tFeeder [5] true none))) ∧
    ((fun (id : Nat) (team : Team) (e : Env) => (fun k => (fun feeder => (fun mine => (fun served => oneLane e.s tG e.sh e.ln e.sf e.th ∧ inPlace e.s e.sf e.th (e.th.pc + 8) = true ∧ served e ∧ (coreAt e.s (k e)).copyq.any copyFed = false) (fun (e : Env) => mine e ∧ (feeder e).team = some id)) (fun (e : Env) => e.sh < feederBase ∧ e.sf.team = some id ∧ Tab.at? e.s.teams id = some team)) (fun (e : Env) => (coreAt e.s (k e)).feeder)) (fun (e : Env) => coreOf e.sh)) 0 ((Tab.at? (tFeeder [5] true none).teams 0).getD setupTeam) (tEnv (tFeeder [5] true none))) := by
  refine ⟨?_, ?_, ?_, ?_, ?_, ?_, ?_, ?_, ?_, ?_, ?_, ?_, ?_⟩ <;> (beta_reduce; decide +kernel)

/-- States and operands that meet the hypotheses of `RakeWordsComplete`, each clause at a boundary of its range. -/
theorem meets_RakeWordsComplete :
    ((fun (o : XF) (e : Env) => oneLane e.s tG e.sh e.ln e.sf e.th ∧ (cReg e.th (o.x1.toNat % 32)).tag = true ∧ capSealed (cReg e.th (o.x1.toNat % 32)) = false ∧ capKind (cReg e.th (o.x1.toNat % 32)) = 6 ∧ (validColours (coloursOf e.s e.sf)).contains (capColour (cReg e.th (o.x1.toNat % 32))) = true ∧ (codePair e o.x3).toNat % 2 ^ 64 ≠ 0 ∧ (codePair e o.x2).toNat + (codePair e o.x3).toNat % 2 ^ 64 ≤ capLen (cReg e.th (o.x1.toNat % 32)) ∧ e.s.rake.entries.length < 256) (tX 0 2 2 4 0 0) (tEnv (tRake 255 1))) ∧
    ((fun (o : XF) (e : Env) => oneLane e.s tG e.sh e.ln e.sf e.th ∧ (cReg e.th (o.x1.toNat % 32)).tag = true ∧ capSealed (cReg e.th (o.x1.toNat % 32)) = false ∧ capKind (cReg e.th (o.x1.toNat % 32)) = 6 ∧ (validColours (coloursOf e.s e.sf)).contains (capColour (cReg e.th (o.x1.toNat % 32))) = true ∧ (codePair e o.x3).toNat % 2 ^ 64 ≠ 0 ∧ (codePair e o.x2).toNat + (codePair e o.x3).toNat % 2 ^ 64 ≤ capLen (cReg e.th (o.x1.toNat % 32)) ∧ 256 ≤ e.s.rake.entries.length) (tX 0 2 2 4 0 0) (tEnv (tRake 256 4))) ∧
    ((fun (o : XF) (e : Env) => oneLane e.s tG e.sh e.ln e.sf e.th ∧ (cReg e.th (o.x1.toNat % 32)).tag = true ∧ capSealed (cReg e.th (o.x1.toNat % 32)) = false ∧ capKind (cReg e.th (o.x1.toNat % 32)) = 6 ∧ (validColours (coloursOf e.s e.sf)).contains (capColour (cReg e.th (o.x1.toNat % 32))) = true ∧ (codeQuad e o.x3).toNat % 2 ^ 64 ≠ 0 ∧ (codePair e o.x2).toNat + (codeQuad e o.x3).toNat % 2 ^ 64 ≤ capLen (cReg e.th (o.x1.toNat % 32)) ∧ e.s.rake.entries.length < 256) (tX 0 2 2 4 0 0) (tEnv (tRake 255 1))) ∧
    ((fun (o : XF) (e : Env) => oneLane e.s tG e.sh e.ln e.sf e.th ∧ (cReg e.th (o.x1.toNat % 32)).tag = true ∧ capSealed (cReg e.th (o.x1.toNat % 32)) = false ∧ capKind (cReg e.th (o.x1.toNat % 32)) = 6 ∧ (validColours (coloursOf e.s e.sf)).contains (capColour (cReg e.th (o.x1.toNat % 32))) = true ∧ (codeQuad e o.x3).toNat % 2 ^ 64 ≠ 0 ∧ (codePair e o.x2).toNat + (codeQuad e o.x3).toNat % 2 ^ 64 ≤ capLen (cReg e.th (o.x1.toNat % 32)) ∧ 256 ≤ e.s.rake.entries.length) (tX 0 2 2 4 0 0) (tEnv (tRake 256 4))) ∧
    ((fun (o : XF) (e : Env) => oneLane e.s tG e.sh e.ln e.sf e.th ∧ (cReg e.th (o.x1.toNat % 32)).tag = true ∧ capSealed (cReg e.th (o.x1.toNat % 32)) = false ∧ capKind (cReg e.th (o.x1.toNat % 32)) = 6 ∧ (validColours (coloursOf e.s e.sf)).contains (capColour (cReg e.th (o.x1.toNat % 32))) = true ∧ o.flags.getLsbD 1 = false ∧ ((e.s.rake.running.toList ++ e.s.rake.waiting).filter fun p => p.origin.isNone).length < 5) (tX 6 2 20 0xFF 0 0) (tEnv (tRake 256 4))) ∧
    ((fun (o : XF) (e : Env) => oneLane e.s tG e.sh e.ln e.sf e.th ∧ (cReg e.th (o.x1.toNat % 32)).tag = true ∧ capSealed (cReg e.th (o.x1.toNat % 32)) = false ∧ capKind (cReg e.th (o.x1.toNat % 32)) = 6 ∧ (validColours (coloursOf e.s e.sf)).contains (capColour (cReg e.th (o.x1.toNat % 32))) = true ∧ o.flags.getLsbD 1 = false ∧ ((e.s.rake.running.toList ++ e.s.rake.waiting).filter fun p => p.origin.isNone).length ≥ 5) (tX 6 2 20 0xFF 0 0) (tEnv (tRake 3 5))) ∧
    ((fun (o : XF) (a : Nat) (e : Env) => oneLane e.s tG e.sh e.ln e.sf e.th ∧ (cReg e.th (o.x1.toNat % 32)).tag = true ∧ capSealed (cReg e.th (o.x1.toNat % 32)) = false ∧ capKind (cReg e.th (o.x1.toNat % 32)) = 6 ∧ (validColours (coloursOf e.s e.sf)).contains (capColour (cReg e.th (o.x1.toNat % 32))) = true ∧ o.flags.getLsbD 1 = true ∧ readsStruct e (cReg e.th (o.x3.toNat % 32)) accLoad 4 a ∧ ((e.s.rake.running.toList ++ e.s.rake.waiting).filter fun p => p.origin.isNone).length < 5) (tX 6 2 0xFF 5 2 0) (tAddr 0x201000) (tEnv tRakeMask)) ∧
    ((fun (o : XF) (e : Env) => oneLane e.s tG e.sh e.ln e.sf e.th ∧ inPlace e.s e.sf e.th (e.th.pc + 8) = true ∧ passState e.s.rake (readCode e o.x0.toNat).toNat = 0) (tX 20 0xFF 0xFF 0xFF 0 0) (tEnv (tRake 0 0))) ∧
    ((fun (o : XF) (e : Env) => oneLane e.s tG e.sh e.ln e.sf e.th ∧ inPlace e.s e.sf e.th (e.th.pc + 8) = true ∧ passState e.s.rake (readCode e o.x0.toNat).toNat ≠ 0) (tX 20 0xFF 0xFF 0xFF 0 0) (tEnv (tRake 256 4))) := by
  refine ⟨?_, ?_, ?_, ?_, ?_, ?_, ?_, ?_, ?_⟩ <;> (beta_reduce; (try unfold readsStruct); decide +kernel)

/-- States and operands that meet the hypotheses of `RakeEventsComplete`, each clause at a boundary of its range. -/
theorem meets_RakeEventsComplete :
    ((fun (p : Pass) => p.relocate = false) ({ number := 4, relocate := false, ranges := [{ base := tAddr 32, len := 96, relocate := false, delta := 256, colour := 1 }], peers := [], swept := false, cursor := 0, leases := 0, origin := none, ctx := none })) ∧
    ((fun (p : Pass) (c : Cap) => p.relocate = true ∧ inSweep p c = false) ({ number := 4, relocate := true, ranges := [{ base := tAddr 32, len := 96, relocate := true, delta := 256, colour := 1 }], peers := [], swept := false, cursor := 0, leases := 0, origin := none, ctx := none }) (tCap 128 16 3 0)) ∧
    ((fun (s : State) (p : Pass) (rest : List Pass) => s.rake.running = none ∧ s.rake.waiting = p :: rest ∧ p.origin = none) tPassWaits ({ number := 4, relocate := false, ranges := [{ base := tAddr 32, len := 96, relocate := false, delta := 256, colour := 1 }], peers := [7], swept := false, cursor := 0, leases := 0, origin := none, ctx := none }) ([])) ∧
    ((fun (s : State) (p : Pass) k => s.rake.running = some p ∧ p.swept = false ∧ p.ctx = some k ∧ s.host.migration = none ∧ (ctxAt s k).state = .stopping) tPassStops ({ number := 4, relocate := false, ranges := [{ base := tAddr 32, len := 96, relocate := false, delta := 256, colour := 1 }], peers := [], swept := false, cursor := 0, leases := 0, origin := none, ctx := some 1 }) 1) ∧
    ((fun (s : State) (p : Pass) => s.rake.running = some p ∧ p.swept = false ∧ rakeStopped s p = false ∧ passBlocked s p = false ∧ p.cursor = 0) (tPass false false 0 none []) ({ number := 4, relocate := false, ranges := [{ base := tAddr 32, len := 96, relocate := false, delta := 256, colour := 1 }], peers := [], swept := false, cursor := 0, leases := 0, origin := none, ctx := none })) ∧
    ((fun (s : State) (p : Pass) g l next => s.rake.running = some p ∧ p.swept = false ∧ rakeStopped s p = false ∧ p.cursor = g + 1 ∧ (batchAt s g = (l, next)) ∧ l ≠ []) (tPass false false 1 none [2]) ({ number := 4, relocate := false, ranges := [{ base := tAddr 32, len := 96, relocate := false, delta := 256, colour := 1 }], peers := [2], swept := false, cursor := 1, leases := 0, origin := none, ctx := none }) 0 ((batchAt (tPass false false 1 none [2]) 0).1) ((batchAt (tPass false false 1 none [2]) 0).2)) ∧
    ((fun (s : State) (p : Pass) g l next => s.rake.running = some p ∧ p.swept = false ∧ rakeStopped s p = false ∧ p.cursor = g + 1 ∧ (batchAt s g = (l, next)) ∧ l ≠ []) (tPass true false 1 none [2]) ({ number := 4, relocate := true, ranges := [{ base := tAddr 32, len := 96, relocate := true, delta := 256, colour := 1 }], peers := [2], swept := false, cursor := 1, leases := 0, origin := none, ctx := none }) 0 ((batchAt (tPass true false 1 none [2]) 0).1) ((batchAt (tPass true false 1 none [2]) 0).2)) ∧
    ((fun (s : State) (p : Pass) => s.rake.running = some p ∧ p.swept = false ∧ rakeStopped s p = false ∧ p.cursor ≠ 0 ∧ (batchAt s (p.cursor - 1)).1 = []) (tPass false false 257 none [2]) ({ number := 4, relocate := false, ranges := [{ base := tAddr 32, len := 96, relocate := false, delta := 256, colour := 1 }], peers := [2], swept := false, cursor := 257, leases := 0, origin := none, ctx := none })) ∧
    ((fun (s : State) (p : Pass) => s.rake.running = some p ∧ p.origin = none) (tPass false false 1 none [2]) ({ number := 4, relocate := false, ranges := [{ base := tAddr 32, len := 96, relocate := false, delta := 256, colour := 1 }], peers := [2], swept := false, cursor := 1, leases := 0, origin := none, ctx := none })) ∧
    ((fun (s : State) (p : Pass) => s.rake.running = some p ∧ p.swept = true ∧ p.peers = [] ∧ p.leases = 0 ∧ oldPackets s = false ∧ p.origin = none) (tPass false true 9 none []) ({ number := 4, relocate := false, ranges := [{ base := tAddr 32, len := 96, relocate := false, delta := 256, colour := 1 }], peers := [], swept := true, cursor := 9, leases := 0, origin := none, ctx := none })) ∧
    ((fun (peer : Nat) => peer < 511) 510) := by
  refine ⟨?_, ?_, ?_, ?_, ?_, ?_, ?_, ?_, ?_, ?_, ?_⟩ <;> (beta_reduce; decide +kernel)

/-- Operations at the head of array 0, and what they give. -/
def tArrBht : State := tArray (tTiles (2, 1, 2) (2, 16, 16) .ready) (.bht 0 0 2 1)
def tArrBhtDone : State × LaneRes := bhtTile tArrBht 0 0 2
def tArrTqnt : State := tArray (tTiles (9, 1, 2) (2, 1, 2) .ready) (.tqnt 0 0 1 none 0 0 0 1)
def tArrTqntDone : State × LaneRes := tqntTile tArrTqnt 0 0 1 none 0 0 0
def tArrAccst : State := tArray (tTiles (9, 32, 16) (2, 32, 16) .ready) (.accst 0 [4] 0 none [(0, 0)] 9 0 1 1)
def tArrAccstDone : State × LaneRes := accstRow tArrAccst 0 [4] 0 none [(0, 0)] 9 0 1 0 0
def tArrTtrn : State := tArray (tTiles (2, 16, 32) (2, 32, 16) .ready) (.ttrn 0 0 1 1)
def tResW (r : LaneRes) : Wr := match r with
  | .ok w => w
  | _ => wrNone
/-- States and operands that meet the hypotheses of `GroupsComplete`, each clause at a boundary of its range. -/
theorem meets_GroupsComplete :
    ((fun (o : XF) (a byte : Nat) (e : Env) => oneLane e.s tG e.sh e.ln e.sf e.th ∧ accessAddr e (cReg e.th (o.x1.toNat % 32)) accMr (readCode e o.x2.toNat).toNat 4 4 = .ok a ∧ regionOf e.s.fabric.number a = .windows ∧ 5 = localOf a / 2 ^ 30 % 1024 ∧ byte = localOf a % 2 ^ 30 ∧ (groupAt e.s 5).valid = true ∧ byte < 128 * (groupAt e.s 5).desc.lines ∧ groupT (groupAt e.s 5).desc.type = some o.t.toNat ∧ quiet e.s (coreOf e.sh) e.sf.ctx) (tX 1 4 2 0 0 0) (tAddr (0x60000000000 + 5 * 2 ^ 30 + 8)) 8 (tEnv (tGroup 2 none))) ∧
    ((fun (o : XF) (a byte : Nat) (e : Env) => oneLane e.s tG e.sh e.ln e.sf e.th ∧ accessAddr e (cReg e.th (o.x1.toNat % 32)) accMr (readCode e o.x2.toNat).toNat 4 4 = .ok a ∧ regionOf e.s.fabric.number a = .windows ∧ 5 = localOf a / 2 ^ 30 % 1024 ∧ byte = localOf a % 2 ^ 30 ∧ (groupAt e.s 5).valid = true ∧ byte < 128 * (groupAt e.s 5).desc.lines ∧ (BitVec.ofNat 32 (Tab.get 0 (groupAt e.s 5).gens (memberOf (groupAt e.s 5).desc (coreOf e.sh))) - readCode e o.x0.toNat).toNat < 2 ^ 31) (tX 3 4 2 0 0 0) (tAddr (0x60000000000 + 5 * 2 ^ 30 + 8)) 8 (tEnv (tGroup 2 none))) ∧
    ((fun (o : XF) (a byte : Nat) (e : Env) => oneLane e.s tG e.sh e.ln e.sf e.th ∧ accessAddr e (cReg e.th (o.x1.toNat % 32)) accMr (readCode e o.x2.toNat).toNat 4 4 = .ok a ∧ regionOf e.s.fabric.number a = .windows ∧ 5 = localOf a / 2 ^ 30 % 1024 ∧ byte = localOf a % 2 ^ 30 ∧ (groupAt e.s 5).valid = true ∧ byte < 128 * (groupAt e.s 5).desc.lines ∧ 2 ^ 31 ≤ (BitVec.ofNat 32 (Tab.get 0 (groupAt e.s 5).gens (memberOf (groupAt e.s 5).desc (coreOf e.sh))) - readCode e o.x0.toNat).toNat) (tX 1 4 2 0 0 0) (tAddr (0x60000000000 + 5 * 2 ^ 30 + 8)) 8 (tEnv (tGroup 2 none))) ∧
    ((fun (s : State) (g : Nat) (line : Nat) (d : Nat) (c : Cap) => (fun x => (fun a => g < 1024 ∧ x.valid = true ∧ line < x.desc.lines ∧ (members x.desc).Nodup ∧ (x.desc.dest = [(d, c)]) ∧ d < 8 ∧ regionOf s.fabric.number a = .hbm ∧ 128 * (line + 1) ≤ capLen c ∧ granuleCheck s (localOf a) (capColour c) = .pass ∧ waitersStand s (mrWaits g fun _ _ => true) ∧ (∀ e ∈ s.sheaves, ∀ l ∈ e.2.lanes, (mrWaits g (fun _ _ => true) e.1 l.1 l.2).isSome = true → l.2.word = none) ∧ x.desc.type = 2 ∧ x.desc.peers = [] ∧ members x.desc ≠ [] ∧ (∀ m ∈ members x.desc, ∀ i, i < 32 → Tab.get [] (Tab.get [] x.contrib m) (line * 32 + i) ≠ [])) ((capBase c + 128 * line) % 2 ^ 52)) (groupAt s g)) (tGroup 2 (some (.mr 5 0 4))) 5 0 0 tHeap) ∧
    ((fun (s : State) (g : Nat) (line : Nat) (d : Nat) (c : Cap) (sum : List Word) => (fun x => (fun a => g < 1024 ∧ x.valid = true ∧ line < x.desc.lines ∧ (members x.desc).Nodup ∧ (x.desc.dest = [(d, c)]) ∧ d < 8 ∧ regionOf s.fabric.number a = .hbm ∧ 128 * (line + 1) ≤ capLen c ∧ granuleCheck s (localOf a) (capColour c) = .pass ∧ waitersStand s (mrWaits g fun _ _ => true) ∧ (∀ e ∈ s.sheaves, ∀ l ∈ e.2.lanes, (mrWaits g (fun _ _ => true) e.1 l.1 l.2).isSome = true → l.2.word = none) ∧ x.desc.type ≠ 3 ∧ Tab.get [] x.atSwitch line ≠ [] ∧ sum.length = (if x.desc.type = 1 then 64 else 32)) ((capBase c + 128 * line) % 2 ^ 52)) (groupAt s g)) (tGroup 1 (some (.mr 5 0 4))) 5 0 0 tHeap (List.replicate 64 1)) ∧
    ((fun (s : State) (g : Nat) (line : Nat) (d : Nat) (c : Cap) (sum : List Word) => (fun x => (fun a => g < 1024 ∧ x.valid = true ∧ line < x.desc.lines ∧ (members x.desc).Nodup ∧ (x.desc.dest = [(d, c)]) ∧ d < 8 ∧ regionOf s.fabric.number a = .hbm ∧ 128 * (line + 1) ≤ capLen c ∧ granuleCheck s (localOf a) (capColour c) = .pass ∧ waitersStand s (mrWaits g fun _ _ => true) ∧ (∀ e ∈ s.sheaves, ∀ l ∈ e.2.lanes, (mrWaits g (fun _ _ => true) e.1 l.1 l.2).isSome = true → l.2.word = none) ∧ x.desc.type ≠ 3 ∧ Tab.get [] x.atSwitch line ≠ [] ∧ sum.length = (if x.desc.type = 1 then 64 else 32)) ((capBase c + 128 * line) % 2 ^ 52)) (groupAt s g)) (tGroup 0 none) 5 0 0 tHeap (List.replicate 32 1)) ∧
    ((fun (g : Nat) => g < 1024) 1023) ∧
    ((fun (s : State) (g : Nat) (sh : Nat) (ln : Nat) (m : Nat) (target : Word) (sf : Sheaf) (th : Thread) => g < 1024 ∧ tidy s ∧ standing s sh ln sf th ∧ th.park = none ∧ th.hold = some (.mr g m target) ∧ 2 ^ 31 ≤ (BitVec.ofNat 32 (Tab.get 0 (groupAt s g).gens m) - target).toNat ∧ (∀ e ∈ s.sheaves, ∀ l ∈ e.2.lanes, (mrWaits g (fun _ _ => true) e.1 l.1 l.2).isSome = true → (e.1, l.1) = (sh, ln))) (tGroup 2 (some (.mr 5 0 4))) 5 0 0 0 4 (tSf (tGroup 2 (some (.mr 5 0 4)))) (tTh (tGroup 2 (some (.mr 5 0 4))))) := by
  refine ⟨?_, ?_, ?_, ?_, ?_, ?_, ?_, ?_⟩ <;> (beta_reduce; (try unfold waitersStand); (try unfold tidy); (try unfold standing); (try unfold wordmates); decide +kernel)

/-- States and operands that meet the hypotheses of `AccumulatorsComplete`, each clause at a boundary of its range. -/
theorem meets_AccumulatorsComplete :
    ((fun (o : XF) (id : Nat) (b : Nat) (e : Env) => (fun c => (fun m => (fun run => (fun mine => (fun hinted => (fun next => (fun alone => oneLane e.s tG e.sh e.ln e.sf e.th ∧ inPlace e.s e.sf e.th (e.th.pc + 8) = true ∧ alone e ∧ next e ∧ run e = some b) (fun (e : Env) => e.sf.team = some id ∧ 1 ≤ m ∧ m ≤ 128 ∧ ∀ r ∈ (c e).accq, r.team ≠ id)) (fun (e : Env) => mine e ∨ (c e).accq = [] ∨ hinted e id ∧ ∀ r ∈ (c e).accq, ¬hinted e r.team)) (fun (e : Env) (k : Nat) => ∃ x, Tab.at? e.s.teams k = some x ∧ 0 < x.accHint)) (fun (e : Env) => ∃ x ∈ (c e).acc, x.2.team = some id)) (fun (e : Env) => findRun (c e) m (o.flags.toNat % 4))) (o.x2.toNat)) (fun (e : Env) => coreAt e.s (coreOf e.sh))) (tX 2 9 2 0 0 0) 0 4 (tEnv (tAccs [0, 1, 3] 0))) ∧
    ((fun (o : XF) (id : Nat) (b : Nat) (e : Env) => (fun c => (fun m => (fun run => (fun mine => (fun hinted => (fun next => (fun alone => oneLane e.s tG e.sh e.ln e.sf e.th ∧ inPlace e.s e.sf e.th (e.th.pc + 8) = true ∧ alone e ∧ next e ∧ run e = some b) (fun (e : Env) => e.sf.team = some id ∧ 1 ≤ m ∧ m ≤ 128 ∧ ∀ r ∈ (c e).accq, r.team ≠ id)) (fun (e : Env) => mine e ∨ (c e).accq = [] ∨ hinted e id ∧ ∀ r ∈ (c e).accq, ¬hinted e r.team)) (fun (e : Env) (k : Nat) => ∃ x, Tab.at? e.s.teams k = some x ∧ 0 < x.accHint)) (fun (e : Env) => ∃ x ∈ (c e).acc, x.2.team = some id)) (fun (e : Env) => findRun (c e) m (o.flags.toNat % 4))) (o.x2.toNat)) (fun (e : Env) => coreAt e.s (coreOf e.sh))) (tX 2 9 128 0 0 0) 0 128 (tEnv (tAccs [7] 0))) ∧
    ((fun (o : XF) (id : Nat) (e : Env) => (fun c => (fun m => (fun run => (fun mine => oneLane e.s tG e.sh e.ln e.sf e.th ∧ inPlace e.s e.sf e.th (e.th.pc + 8) = true ∧ e.sf.team = some id ∧ 1 ≤ m ∧ m ≤ 128 ∧ run e = none ∧ mine e) (fun (e : Env) => ∃ x ∈ (c e).acc, x.2.team = some id)) (fun (e : Env) => findRun (c e) m (o.flags.toNat % 4))) (o.x2.toNat)) (fun (e : Env) => coreAt e.s (coreOf e.sh))) (tX 2 9 2 0 0 0) 0 (tEnv (tCore (tAccs [] 0) fun c => { c with acc := c.acc ++ ((List.range 256).filter (fun b => b < 3 || 5 < b)).map fun b => (b, { accReset with team := some 9 }) }))) ∧
    ((fun (o : XF) (id : Nat) (e : Env) => (fun c => (fun m => (fun run => (fun mine => (fun hinted => (fun alone => oneLane e.s tG e.sh e.ln e.sf e.th ∧ inPlace e.s e.sf e.th (e.th.pc + 8) = true ∧ (alone e ∧ ¬mine e ∧ (run e = none ∨ (c e).accq ≠ [] ∧ ¬hinted e id))) (fun (e : Env) => e.sf.team = some id ∧ 1 ≤ m ∧ m ≤ 128 ∧ ∀ r ∈ (c e).accq, r.team ≠ id)) (fun (e : Env) (k : Nat) => ∃ x, Tab.at? e.s.teams k = some x ∧ 0 < x.accHint)) (fun (e : Env) => ∃ x ∈ (c e).acc, x.2.team = some id)) (fun (e : Env) => findRun (c e) m (o.flags.toNat % 4))) (o.x2.toNat)) (fun (e : Env) => coreAt e.s (coreOf e.sh))) (tX 2 9 128 0 2 0) 0 (tEnv (tAccs (List.range 256) 0))) ∧
    ((fun (o : XF) (id : Nat) (e : Env) => (fun c => (fun first => oneLane e.s tG e.sh e.ln e.sf e.th ∧ inPlace e.s e.sf e.th (e.th.pc + 8) = true ∧ (e.sf.team = some id ∧ 1 ≤ o.x1.toNat ∧ o.x1.toNat ≤ 128 ∧ ∀ j, first e o.x0 ≤ j → j < first e o.x0 + o.x1.toNat → j < 256 ∧ (accAt (c e) j).team = some id ∧ (accAt (c e) j).pending = 0)) (fun (e : Env) (r : BitVec 8) => (readCode e r.toNat).toNat)) (fun (e : Env) => coreAt e.s (coreOf e.sh))) (tX 2 3 0 0 0 0) 0 (tEnv (tAccs [] 0))) ∧
    ((fun (o : XF) (id : Nat) (e : Env) => (fun c => (fun first => oneLane e.s tG e.sh e.ln e.sf e.th ∧ inPlace e.s e.sf e.th (e.th.pc + 8) = true ∧ (e.sf.team = some id ∧ 1 ≤ o.x1.toNat ∧ o.x1.toNat ≤ 128 ∧ ∀ j, first e o.x0 ≤ j → j < first e o.x0 + o.x1.toNat → j < 256 ∧ (accAt (c e) j).team = some id ∧ (accAt (c e) j).pending = 0)) (fun (e : Env) (r : BitVec 8) => (readCode e r.toNat).toNat)) (fun (e : Env) => coreAt e.s (coreOf e.sh))) (tX 1 1 0 0 0 0) 0 (tEnv (tAccs [] 0))) ∧
    ((fun (o : XF) (id : Nat) (b : Nat) (e : Env) => (fun c => (fun first => (fun one => oneLane e.s tG e.sh e.ln e.sf e.th ∧ inPlace e.s e.sf e.th (e.th.pc + 8) = true ∧ one e o.x0) (fun (e : Env) (r : BitVec 8) => e.sf.team = some id ∧ e.sf.width ≠ 64 ∧ o.t ≠ 14 ∧ first e r = b ∧ b < 256 ∧ (accAt (c e) b).team = some id ∧ (accAt (c e) b).pending = 0)) (fun (e : Env) (r : BitVec 8) => (readCode e r.toNat).toNat)) (fun (e : Env) => coreAt e.s (coreOf e.sh))) (tX 1 0 0 0 0 0) 0 4 (tEnv (tAccs [] 0))) ∧
    ((fun (o : XF) (id : Nat) (b : Nat) (e : Env) => (fun c => (fun first => (fun one => oneLane e.s tG e.sh e.ln e.sf e.th ∧ inPlace e.s e.sf e.th (e.th.pc + 8) = true ∧ one e o.x1 ∧ o.x2.toNat < 4) (fun (e : Env) (r : BitVec 8) => e.sf.team = some id ∧ e.sf.width ≠ 64 ∧ o.t ≠ 14 ∧ first e r = b ∧ b < 256 ∧ (accAt (c e) b).team = some id ∧ (accAt (c e) b).pending = 0)) (fun (e : Env) (r : BitVec 8) => (readCode e r.toNat).toNat)) (fun (e : Env) => coreAt e.s (coreOf e.sh))) (tX 8 1 3 0 0 0) 0 4 (tEnv (tAccs [] 0))) ∧
    ((fun (o : XF) (id : Nat) (b : Nat) (e : Env) => (fun c => (fun first => (fun one => oneLane e.s tG e.sh e.ln e.sf e.th ∧ inPlace e.s e.sf e.th (e.th.pc + 8) = true ∧ one e o.x1 ∧ o.x2.toNat < 4) (fun (e : Env) (r : BitVec 8) => e.sf.team = some id ∧ e.sf.width ≠ 64 ∧ o.t ≠ 14 ∧ first e r = b ∧ b < 256 ∧ (accAt (c e) b).team = some id ∧ (accAt (c e) b).pending = 0)) (fun (e : Env) (r : BitVec 8) => (readCode e r.toNat).toNat)) (fun (e : Env) => coreAt e.s (coreOf e.sh))) (tX 5 1 0 0 0 9) 0 4 (tEnv (tAccs [] 0))) ∧
    ((fun (o : XF) (bs : List Nat) (e : Env) => (fun c => (fun first => oneLane e.s tG e.sh e.ln e.sf e.th ∧ inPlace e.s e.sf e.th (e.th.pc + 8) = true ∧ namedBlocks (c e) e.sf (first e o.x1) true = .ok bs ∧ accBusy (c e) bs = false ∧ o.t = 14) (fun (e : Env) (r : BitVec 8) => (readCode e r.toNat).toNat)) (fun (e : Env) => coreAt e.s (coreOf e.sh))) (tX 8 1 1 0 0 14) ([4, 5]) (tEnv (tAccs [] 0))) := by
  refine ⟨?_, ?_, ?_, ?_, ?_, ?_, ?_, ?_, ?_, ?_⟩ <;> (beta_reduce; decide +kernel)

/-- States and operands that meet the hypotheses of `MatrixWordsComplete`, each clause at a boundary of its range. -/
theorem meets_MatrixWordsComplete :
    ((fun (o : XF) (id : Nat) (i : Nat) (j : Nat) (team : Team) (a : Tile) (b : Tile) (tacc : Nat) (ks : Nat) (x : Nat) (e : Env) => (fun c => (fun two => (fun room => (fun block => oneLane e.s tG e.sh e.ln e.sf e.th ∧ inPlace e.s e.sf e.th (e.th.pc + 8) = true ∧ (two e o.x1 o.x2 ∧ a.state = .ready ∧ b.state = .ready ∧ mmaPair a.fmt.toNat b.fmt.toNat = some (tacc, ks) ∧ tacc ≠ 14 ∧ a.rows = 32 ∧ b.rows = a.elems ∧ b.elems = 16 ∧ a.elems % ks = 0 ∧ block e o.x0 x ∧ room e (x / 128) ∧ e.s.net = netEmpty ∧ e.s.clusters = [])) (fun (e : Env) (r : BitVec 8) (x : Nat) => (readCode e r.toNat).toNat = x ∧ x < 256 ∧ e.sf.width ≠ 64 ∧ (accAt (c e) x).team = some id)) (fun (e : Env) (k : Nat) => (arrayAt (c e) k).queue.length < 8)) (fun (e : Env) (x y : BitVec 8) => namesTile e id team x.toNat i a ∧ namesTile e id team y.toNat j b ∧ a.flt = false ∧ b.flt = false ∧ a.fmt ≠ 0xF ∧ b.fmt ≠ 0xF ∧ coreOf e.sh = team.core)) (fun (e : Env) => coreAt e.s team.core)) (tX 1 0 1 0 0 0) 0 0 1 ((Tab.at? (tTiles (7, 32, 16) (7, 16, 16) .ready).teams 0).getD setupTeam) (tileAt (tTiles (7, 32, 16) (7, 16, 16) .ready) 0 0) (tileAt (tTiles (7, 32, 16) (7, 16, 16) .ready) 0 1) 0 16 4 (tEnv (tTiles (7, 32, 16) (7, 16, 16) .ready))) ∧
    ((fun (o : XF) (id : Nat) (i : Nat) (team : Team) (a : Tile) (x : Nat) (e : Env) => (fun c => (fun room => (fun take => (fun block => oneLane e.s tG e.sh e.ln e.sf e.th ∧ inPlace e.s e.sf e.th (e.th.pc + 8) = true ∧ namesTile e id team o.x0.toNat i a ∧ coreOf e.sh = team.core ∧ a.flt = false ∧ a.fmt = o.t ∧ o.t ≠ 0xF ∧ o.t ≠ 14 ∧ take a ∧ a.rows = 32 ∧ a.elems = 16 ∧ o.flags.getLsbD 4 = false ∧ block e o.x1 x ∧ (accAt (c e) x).pending = 0 ∧ room e (x / 128)) (fun (e : Env) (r : BitVec 8) (x : Nat) => (readCode e r.toNat).toNat = x ∧ x < 256 ∧ e.sf.width ≠ 64 ∧ (accAt (c e) x).team = some id)) (fun (x : Tile) => x.state = .empty ∨ x.state = .ready)) (fun (e : Env) (k : Nat) => (arrayAt (c e) k).queue.length < 8)) (fun (e : Env) => coreAt e.s team.core)) (tX 0 1 2 0 5 9) 0 0 ((Tab.at? (tTiles (9, 32, 16) (2, 32, 16) .ready).teams 0).getD setupTeam) (tileAt (tTiles (9, 32, 16) (2, 32, 16) .ready) 0 0) 4 (tEnv (tTiles (9, 32, 16) (2, 32, 16) .ready))) ∧
    ((fun (o : XF) (id : Nat) (i : Nat) (team : Team) (a : Tile) (x : Nat) (e : Env) => (fun c => (fun room => (fun take => (fun block => oneLane e.s tG e.sh e.ln e.sf e.th ∧ inPlace e.s e.sf e.th (e.th.pc + 8) = true ∧ namesTile e id team o.x0.toNat i a ∧ coreOf e.sh = team.core ∧ a.flt = false ∧ a.fmt = o.t ∧ o.t ≠ 0xF ∧ o.t ≠ 14 ∧ take a ∧ a.rows = 32 ∧ a.elems = 16 ∧ o.flags.getLsbD 4 = false ∧ block e o.x1 x ∧ (accAt (c e) x).pending = 0 ∧ room e (x / 128)) (fun (e : Env) (r : BitVec 8) (x : Nat) => (readCode e r.toNat).toNat = x ∧ x < 256 ∧ e.sf.width ≠ 64 ∧ (accAt (c e) x).team = some id)) (fun (x : Tile) => x.state = .empty ∨ x.state = .ready)) (fun (e : Env) (k : Nat) => (arrayAt (c e) k).queue.length < 8)) (fun (e : Env) => coreAt e.s team.core)) (tX 0 1 2 0 5 9) 0 0 ((Tab.at? (tTiles (9, 32, 16) (2, 32, 16) .empty).teams 0).getD setupTeam) (tileAt (tTiles (9, 32, 16) (2, 32, 16) .empty) 0 0) 4 (tEnv (tTiles (9, 32, 16) (2, 32, 16) .empty))) ∧
    ((fun (o : XF) (id : Nat) (i : Nat) (team : Team) (a : Tile) (e : Env) => (fun c => (fun room => (fun arr => oneLane e.s tG e.sh e.ln e.sf e.th ∧ inPlace e.s e.sf e.th (e.th.pc + 8) = true ∧ namesTile e id team o.x0.toNat i a ∧ coreOf e.sh = team.core ∧ a.flt = false ∧ a.fmt = 2 ∧ a.state = .ready ∧ a.elems % o.x1.toNat = 0 ∧ room e (arr e)) (fun (e : Env) => if quadOf e.sh % 4 < 2 then 0 else 1)) (fun (e : Env) (k : Nat) => (arrayAt (c e) k).queue.length < 8)) (fun (e : Env) => coreAt e.s team.core)) (tX 0 16 0 0 0 0) 0 0 ((Tab.at? (tTiles (2, 32, 16) (2, 16, 16) .ready).teams 0).getD setupTeam) (tileAt (tTiles (2, 32, 16) (2, 16, 16) .ready) 0 0) (tEnv (tTiles (2, 32, 16) (2, 16, 16) .ready))) ∧
    ((fun (o : XF) (id : Nat) (i : Nat) (j : Nat) (team : Team) (a : Tile) (b : Tile) (e : Env) => (fun c => (fun two => (fun room => (fun take => (fun arr => oneLane e.s tG e.sh e.ln e.sf e.th ∧ inPlace e.s e.sf e.th (e.th.pc + 8) = true ∧ (two e o.x0 o.x1 ∧ take a ∧ b.state = .ready ∧ i ≠ j ∧ b.fmt = 2 ∧ a.fmt.toNat ∈ [3, 4, 7, 9, 10, 11, 12] ∧ a.rows = b.rows ∧ a.elems = b.elems ∧ o.flags.getLsbD 4 = false ∧ room e (arr e))) (fun (e : Env) => if quadOf e.sh % 4 < 2 then 0 else 1)) (fun (x : Tile) => x.state = .empty ∨ x.state = .ready)) (fun (e : Env) (k : Nat) => (arrayAt (c e) k).queue.length < 8)) (fun (e : Env) (x y : BitVec 8) => namesTile e id team x.toNat i a ∧ namesTile e id team y.toNat j b ∧ a.flt = false ∧ b.flt = false ∧ a.fmt ≠ 0xF ∧ b.fmt ≠ 0xF ∧ coreOf e.sh = team.core)) (fun (e : Env) => coreAt e.s team.core)) (tX 0 1 2 0 5 0) 0 0 1 ((Tab.at? (tTiles (9, 32, 16) (2, 32, 16) .ready).teams 0).getD setupTeam) (tileAt (tTiles (9, 32, 16) (2, 32, 16) .ready) 0 0) (tileAt (tTiles (9, 32, 16) (2, 32, 16) .ready) 0 1) (tEnv (tTiles (9, 32, 16) (2, 32, 16) .ready))) ∧
    ((fun (o : XF) (id : Nat) (i : Nat) (j : Nat) (team : Team) (a : Tile) (b : Tile) (e : Env) => (fun c => (fun two => (fun room => (fun take => (fun arr => oneLane e.s tG e.sh e.ln e.sf e.th ∧ inPlace e.s e.sf e.th (e.th.pc + 8) = true ∧ two e o.x0 o.x1 ∧ take a ∧ b.state = .ready ∧ i ≠ j ∧ a.fmt = b.fmt ∧ b.elems ≤ 256 ∧ a.rows = b.elems ∧ a.elems = b.rows ∧ room e (arr e)) (fun (e : Env) => if quadOf e.sh % 4 < 2 then 0 else 1)) (fun (x : Tile) => x.state = .empty ∨ x.state = .ready)) (fun (e : Env) (k : Nat) => (arrayAt (c e) k).queue.length < 8)) (fun (e : Env) (x y : BitVec 8) => namesTile e id team x.toNat i a ∧ namesTile e id team y.toNat j b ∧ a.flt = false ∧ b.flt = false ∧ a.fmt ≠ 0xF ∧ b.fmt ≠ 0xF ∧ coreOf e.sh = team.core)) (fun (e : Env) => coreAt e.s team.core)) (tX 0 1 0 0 0 0) 0 0 1 ((Tab.at? (tTiles (2, 16, 32) (2, 32, 16) .empty).teams 0).getD setupTeam) (tileAt (tTiles (2, 16, 32) (2, 32, 16) .empty) 0 0) (tileAt (tTiles (2, 16, 32) (2, 32, 16) .empty) 0 1) (tEnv (tTiles (2, 16, 32) (2, 32, 16) .empty))) := by
  refine ⟨?_, ?_, ?_, ?_, ?_, ?_⟩ <;> (beta_reduce; (try unfold namesTile); decide +kernel)

/-- States and operands that meet the hypotheses of `MatrixEventsComplete`, each clause at a boundary of its range. -/
theorem meets_MatrixEventsComplete :
    ((fun (s : State) (core : Nat) (arr : Nat) (sh : Nat) (x : Nat) (a : Tile) (b : Tile) (mask : Word) (rest : List ArrayOp) => (fun c => (arrayAt c arr).queue = .mma sh [x] a b mask :: rest ∧ core < Config.cores ∧ arr < 2 ∧ mmaSteps a b ≤ (arrayAt c arr).steps) (coreAt s core)) (tCore (tTiles (7, 32, 16) (7, 16, 16) .ready) fun c => { c with acc := [(4, { team := some 0, words := [], pending := 1, freeing := false })], array1 := { queue := [(.mma 0 [4] (tileAt (tTiles (7, 32, 16) (7, 16, 16) .ready) 0 0) (tileAt (tTiles (7, 32, 16) (7, 16, 16) .ready) 0 1) 1), .bht 0 0 2 1], steps := 32, permit := 65536 } }) 0 1 0 4 (tileAt (tTiles (7, 32, 16) (7, 16, 16) .ready) 0 0) (tileAt (tTiles (7, 32, 16) (7, 16, 16) .ready) 0 1) 1 ([.bht 0 0 2 1])) ∧
    ((fun (s : State) (core : Nat) (arr : Nat) (sh : Nat) (mask : Word) (rest : List ArrayOp) (w : Wr) i n s' => (fun c => core < Config.cores ∧ arr < 2 ∧ arrayMay s core arr = true ∧ waitersStand s (arrayHeld sh mask w) ∧ (arrayAt c arr).queue = .bht sh i n mask :: rest ∧ (bhtTile s core i n = (s', .ok w))) (coreAt s core)) tArrBht 0 0 0 1 ([]) (tResW tArrBhtDone.2) 0 2 tArrBhtDone.1) ∧
    ((fun (s : State) (core : Nat) (arr : Nat) (sh : Nat) (mask : Word) (rest : List ArrayOp) (w : Wr) d x exp rm pol s' => (fun c => core < Config.cores ∧ arr < 2 ∧ arrayMay s core arr = true ∧ waitersStand s (arrayHeld sh mask w) ∧ (arrayAt c arr).queue = .tqnt sh d x none exp rm pol mask :: rest ∧ (tqntTile s core d x none exp rm pol = (s', .ok w))) (coreAt s core)) tArrTqnt 0 0 0 1 ([]) (tResW tArrTqntDone.2) 0 1 0 0 0 tArrTqntDone.1) ∧
    ((fun (s : State) (core : Nat) (arr : Nat) (sh : Nat) (mask : Word) (rest : List ArrayOp) (w : Wr) bs d exps ty rm pol ln s' => (fun c => core < Config.cores ∧ arr < 2 ∧ arrayMay s core arr = true ∧ waitersStand s (arrayHeld sh mask w) ∧ (arrayAt c arr).queue = .accst sh bs d none exps ty rm pol mask :: rest ∧ (arrayWaiters s sh mask = [(sh, ln)]) ∧ (accstRow s core bs d none exps ty.toNat rm pol (((sheaf? s sh).map fun sf => if sf.width = 64 then 32 * sf.half else 0).getD 0) ln = (s', .ok w))) (coreAt s core)) tArrAccst 0 0 0 1 ([]) (tResW tArrAccstDone.2) ([4]) 0 ([(0, 0)]) 9 0 1 0 tArrAccstDone.1) ∧
    ((fun (s : State) (core : Nat) (arr : Nat) (sh : Nat) (mask : Word) (rest : List ArrayOp) (w : Wr) d x => (fun c => core < Config.cores ∧ arr < 2 ∧ arrayMay s core arr = true ∧ waitersStand s (arrayHeld sh mask w) ∧ (arrayAt c arr).queue = .ttrn sh d x mask :: rest ∧ w = wrNone) (coreAt s core)) tArrTtrn 0 0 0 1 ([]) wrNone 0 1) ∧
    ((fun (s : State) (core : Nat) (b : Nat) (r : AccReq) (sf : Sheaf) => (fun w => accHead s core = some r ∧ sheaf? s r.sh = some sf ∧ Tab.at? sf.lanes 0 = some (tTh s) ∧ r.mask.getLsbD 0 = true ∧ (tTh s).hold = some .acc ∧ findRun (coreAt s core) r.m r.arr = some b ∧ (∀ x ∈ (coreAt s core).accq.erase r, x.team ≠ r.team) ∧ waitersStand s (accHeldLanes r.sh r.mask w)) (wrBoth (wrPred r.pred true) (wrReg r.dest (BitVec.ofNat 32 b)))) tAccWaits 0 4 ((accHead tAccWaits 0).getD { team := 9, sh := 9, mask := 0, pred := 0, dest := 0, m := 0, arr := 0 }) (tSf tAccWaits)) ∧
    ((fun (s : State) (core : Nat) (u : PermitUnit) => core < Config.cores ∧ needsPermit s core u = true ∧ ((core, u) ∉ (dieAt s (core / 56)).permits)) (tCore (tTiles (14, 32, 1) (14, 1, 16) .ready) fun c => { c with array0 := { queue := (List.range 8).map (fun _ => .mma 0 [4] { tileReset with fmt := 14, rows := 32, elems := 1000 } { tileReset with fmt := 14, rows := 1000, elems := 16 } 1), steps := 5, permit := 0 } }) 0 (.array 0)) ∧
    ((fun (s : State) (core : Nat) (u : PermitUnit) => core < Config.cores ∧ needsPermit s core u = true ∧ ((core, u) ∉ (dieAt s (core / 56)).permits)) (tCore tPlain fun c => { c with copyq := [.command 1 0 tHeap tHeap tHeap 0 0 1000000 0 false 0 false] }) 0 .copy) ∧
    ((fun (s : State) (core : Nat) (die : Nat) (u : PermitUnit) (rest : List (Nat × PermitUnit)) => ((dieAt s die).permits = (core, u) :: rest) ∧ (dieAt s die).hot = false ∧ (dieAt s die).temp < 1050) ({ tPlain with dies := [(0, { permits := [(1, .copy)], temp := 0, hot := false })] }) 1 0 .copy ([])) := by
  refine ⟨?_, ?_, ?_, ?_, ?_, ?_, ?_, ?_, ?_⟩ <;> (beta_reduce; (try unfold waitersStand); (try unfold tidy); (try unfold wordmates); decide +kernel)

/-- States and operands that meet the hypotheses of `HomesAnswer`, each clause at a boundary of its range. -/
theorem meets_HomesAnswer :
    ((fun (s : State) (i : Nat) (r : Renew) => s.net.renews[i]? = some r ∧ granuleCheck s (r.line * 128) r.colour ≠ .transit ∧ (∀ x ∈ s.net.renews.take i, sentTo r.core r.line x = false) ∧ (∀ p ∈ s.net.stores, p.core = r.core → homeOf (lineOf (localOf p.addr)) = homeOf r.line → r.seq ≤ p.seq)) (tRenew none 1) 0 ({ core := 0, line := 0x4020, pts := 9, w := none, colour := 1, hint := 0, sector := 0, seq := 0 } : Renew)) ∧
    ((fun (s : State) (i : Nat) (r : Renew) => s.net.renews[i]? = some r ∧ granuleCheck s (r.line * 128) r.colour ≠ .transit ∧ (∀ x ∈ s.net.renews.take i, sentTo r.core r.line x = false) ∧ (∀ p ∈ s.net.stores, p.core = r.core → homeOf (lineOf (localOf p.addr)) = homeOf r.line → r.seq ≤ p.seq)) (tRenew none 2) 0 ({ core := 0, line := 0x4020, pts := 9, w := none, colour := 2, hint := 0, sector := 0, seq := 0 } : Renew)) ∧
    ((fun (s : State) (i : Nat) (r : Reply) => s.net.replies[i]? = some r) tReply 0 ({ core := 0, line := 0x4020, wts := 12, rts := 90, data := some (7, 0), colour := 1, hint := 0, sector := 0, fill := true })) ∧
    ((fun (s : State) (core : Nat) (addr : Nat) => core < Config.cores ∧ regionOf s.fabric.number addr = .hbm) tReply 447 (tAddr 0x201000)) ∧
    ((fun (addr : Nat) (data : List Byte) => addr + data.length ≤ 2 ^ 42) (2 ^ 42 - 3) ([1, 2, 3])) ∧
    ((fun (core : Nat) => core < Config.cores) 447) ∧
    ((fun (die : Nat) (g : Nat) => die < 8 ∧ g < 262144) 7 262143) ∧
    ((fun (s : State) (core : Nat) (q : Nat) (line : Nat) => core < Config.cores ∧ q < 4 ∧ line < 2 ^ 35 ∧ (granuleOf s (line * 128)).extractLsb' 14 2 = 1) (tNet (tData 0 1) fun n => { n with stores := [{ tStore with kind := StoreKind.stackLine }] }) 447 3 0x4020) ∧
    ((fun (s : State) (core : Nat) (q : Nat) (line : Nat) (p : PStore) => core < Config.cores ∧ q < 4 ∧ line < 2 ^ 35 ∧ s.net = { netEmpty with stores := [p] } ∧ ownerAt s p.sh p.ln = some p.who ∧ p.kind = .stackLine ∧ quadOf p.sh = core * 4 + q ∧ lineOf (localOf p.addr) = line ∧ granuleCheck s (localOf p.addr) (capColour p.cap) = .pass) (tNet (tData 0 1) fun n => { n with stores := [{ tStore with kind := StoreKind.stackLine }] }) 0 0 0x4020 ({ tStore with kind := StoreKind.stackLine })) := by
  refine ⟨?_, ?_, ?_, ?_, ?_, ?_, ?_, ?_, ?_⟩ <;> (beta_reduce; decide +kernel)

/-- States and operands that meet the hypotheses of `WritesSettle`, each clause at a boundary of its range. -/
theorem meets_WritesSettle :
    ((fun (s : State) (i : Nat) (a : Ack) => s.net.acks[i]? = some a ∧ a.lost = false) (tAck false) 0 (tAck false |>.net.acks.headD { sh := 9, ln := 9, who := { ctx := 0, launch := 0, stage := 0, teamid := 0, gangid := 0, tid := 0 }, core := 0, addr := 0, size := 0, data := 0, tagged := false, colour := 0, wts := 0, line := 0, tags := 0, hint := 0, lost := false })) ∧
    ((fun (s : State) (i : Nat) (a : Ack) (sf : Sheaf) (th : Thread) => s.net.acks[i]? = some a ∧ a.lost = true ∧ sheaf? s a.sh = some sf ∧ Tab.at? sf.lanes a.ln = some th ∧ th.status = .live ∧ whoOf sf th = a.who ∧ th.losses.length < 16 ∧ (∀ e ∈ s.sheaves, ∀ l ∈ e.2.lanes, l.2.status = .live → whoOf e.2 l.2 = a.who → e.1 = a.sh ∧ l.1 = a.ln)) (tAck true) 0 (tAck true |>.net.acks.headD { sh := 9, ln := 9, who := { ctx := 0, launch := 0, stage := 0, teamid := 0, gangid := 0, tid := 0 }, core := 0, addr := 0, size := 0, data := 0, tagged := false, colour := 0, wts := 0, line := 0, tags := 0, hint := 0, lost := false }) (tSf (tAck true)) (tTh (tAck true))) ∧
    ((fun (s : State) (i : Nat) (w : WriteBack) => s.net.wbs[i]? = some w ∧ granuleCheck s (w.line * 128) w.colour = .pass ∧ (homeTimes s w.line).1 = w.wts) (tWriteBack 0) 0 ({ cluster := 0, line := 0x4020, data := 0x77, wts := 0, colour := 1 })) ∧
    ((fun (s : State) (i : Nat) (w : WriteBack) => s.net.wbs[i]? = some w ∧ granuleCheck s (w.line * 128) w.colour = .pass ∧ (homeTimes s w.line).1 ≠ w.wts) (tWriteBack 3) 0 ({ cluster := 0, line := 0x4020, data := 0x77, wts := 3, colour := 1 })) ∧
    ((fun (s : State) (i : Nat) (r : WbReply) (x : CaLine) => s.net.wbReplies[i]? = some r ∧ Tab.at? (clusterAt s r.cluster).lines r.line = some x ∧ r.accepted = true ∧ x.waiting = []) (tWbReply true) 0 ({ cluster := 0, line := 0x4020, accepted := true, wts := 8, data := 0x99, tags := 1, granule := false }) ({ data := 0x77, tags := 0, wts := 4, rts := 4, colour := 1, outstanding := true, sent := [{ sh := 0, ln := 0, who := { ctx := 1, launch := 0, stage := 0, teamid := 0, gangid := 0, tid := 0 }, addr := tAddr 0x201000, colour := 1 }], waiting := [], used := 1 })) ∧
    ((fun (s : State) (i : Nat) (r : WbReply) (x : CaLine) => s.net.wbReplies[i]? = some r ∧ Tab.at? (clusterAt s r.cluster).lines r.line = some x ∧ r.accepted = false ∧ r.granule = false) (tWbReply false) 0 ({ cluster := 0, line := 0x4020, accepted := false, wts := 8, data := 0x99, tags := 1, granule := false }) ({ data := 0x77, tags := 0, wts := 4, rts := 4, colour := 1, outstanding := true, sent := [{ sh := 0, ln := 0, who := { ctx := 1, launch := 0, stage := 0, teamid := 0, gangid := 0, tid := 0 }, addr := tAddr 0x201000, colour := 1 }], waiting := [], used := 1 })) ∧
    ((fun (s : State) (i : Nat) (x : Held) (p : PStore) => s.net.held[i]? = some x ∧ (granuleOf s (heldGranule x * 2 ^ 21)).extractLsb' 14 2 ≠ 2 ∧ (∀ y ∈ s.net.held.take i, heldGranule y ≠ heldGranule x) ∧ x = .store p ∧ (granuleCheck s (localOf p.addr) (capColour p.cap) = .pass ∧ ∀ r ∈ s.net.renews, sentTo p.core (lineOf (localOf p.addr)) r = true → p.seq ≤ r.seq)) (tTransit false) 0 (.store tStore) tStore) ∧
    ((fun (s : State) (i : Nat) (x : Held) => s.net.held[i]? = some x ∧ (granuleOf s (heldGranule x * 2 ^ 21)).extractLsb' 14 2 ≠ 2 ∧ (∀ y ∈ s.net.held.take i, heldGranule y ≠ heldGranule x) ∧ x = .lane 0 0 1 ∧ thread? s 0 0 = some (tTh s) ∧ (tTh s).hold = some .transit ∧ wordmates (tSf s) (tTh s) fun k _ => k = 0) (tTransit true) 0 (.lane 0 0 1)) ∧
    ((fun (s : State) (i : Nat) (x : Held) => s.net.held[i]? = some x ∧ (granuleOf s (heldGranule x * 2 ^ 21)).extractLsb' 14 2 ≠ 2 ∧ (∀ y ∈ s.net.held.take i, heldGranule y ≠ heldGranule x)) (tHeldIn (.mail true { sh := 0, ln := 0, cap := tHeap, carried := tHeap, word := 9, pred := 2, cd := 9, wreg := 14, sreg := 16 })) 0 (.mail true { sh := 0, ln := 0, cap := tHeap, carried := tHeap, word := 9, pred := 2, cd := 9, wreg := 14, sreg := 16 })) ∧
    ((fun (s : State) (i : Nat) (x : Held) => s.net.held[i]? = some x ∧ (granuleOf s (heldGranule x * 2 ^ 21)).extractLsb' 14 2 ≠ 2 ∧ (∀ y ∈ s.net.held.take i, heldGranule y ≠ heldGranule x)) (tHeldIn (.mail false { sh := 0, ln := 0, cap := tHeap, carried := tHeap, word := 9, pred := 2, cd := 9, wreg := 14, sreg := 16 })) 0 (.mail false { sh := 0, ln := 0, cap := tHeap, carried := tHeap, word := 9, pred := 2, cd := 9, wreg := 14, sreg := 16 })) ∧
    ((fun (s : State) (i : Nat) (x : Held) => s.net.held[i]? = some x ∧ (granuleOf s (heldGranule x * 2 ^ 21)).extractLsb' 14 2 ≠ 2 ∧ (∀ y ∈ s.net.held.take i, heldGranule y ≠ heldGranule x)) (tHeldIn (.ingress { peer := 5, time := 3, cap := { bits := tHeap.bits, home := 0, codeOk := true }, op := .load, off := 0, size := 8, data := 0, data2 := 0, carried := none, sender := 0 })) 0 (.ingress { peer := 5, time := 3, cap := { bits := tHeap.bits, home := 0, codeOk := true }, op := .load, off := 0, size := 8, data := 0, data2 := 0, carried := none, sender := 0 })) ∧
    ((fun (s : State) (i : Nat) (x : Held) => s.net.held[i]? = some x ∧ (granuleOf s (heldGranule x * 2 ^ 21)).extractLsb' 14 2 ≠ 2 ∧ (∀ y ∈ s.net.held.take i, heldGranule y ≠ heldGranule x)) (tHeldIn (.window 1 0 2 0 8 none)) 0 (.window 1 0 2 0 8 none)) ∧
    ((fun (s : State) (i : Nat) (x : Held) (r : Renew) => s.net.held[i]? = some x ∧ (granuleOf s (heldGranule x * 2 ^ 21)).extractLsb' 14 2 ≠ 2 ∧ (∀ y ∈ s.net.held.take i, heldGranule y ≠ heldGranule x) ∧ x = .renew r ∧ granuleCheck s (r.line * 128) r.colour ≠ .transit) (tHeldIn (.renew { core := 0, line := 0x4020, pts := 9, w := none, colour := 1, hint := 0, sector := 0, seq := 0 })) 0 (.renew { core := 0, line := 0x4020, pts := 9, w := none, colour := 1, hint := 0, sector := 0, seq := 0 }) ({ core := 0, line := 0x4020, pts := 9, w := none, colour := 1, hint := 0, sector := 0, seq := 0 })) ∧
    ((fun (s : State) (i : Nat) (x : Held) (w : WriteBack) => s.net.held[i]? = some x ∧ (granuleOf s (heldGranule x * 2 ^ 21)).extractLsb' 14 2 ≠ 2 ∧ (∀ y ∈ s.net.held.take i, heldGranule y ≠ heldGranule x) ∧ x = .back w ∧ granuleCheck s (w.line * 128) w.colour = .pass ∧ (homeTimes s w.line).1 = w.wts) (tHeldIn (.back { cluster := 0, line := 0x4020, data := 0x77, wts := 0, colour := 1 })) 0 (.back { cluster := 0, line := 0x4020, data := 0x77, wts := 0, colour := 1 }) ({ cluster := 0, line := 0x4020, data := 0x77, wts := 0, colour := 1 })) := by
  refine ⟨?_, ?_, ?_, ?_, ?_, ?_, ?_, ?_, ?_, ?_, ?_, ?_, ?_, ?_⟩ <;> (beta_reduce; (try unfold wordmates); decide +kernel)

/-- States and operands that meet the hypotheses of `RemoteAnswers`, each clause at a boundary of its range. -/
theorem meets_RemoteAnswers :
    ((fun (s : State) (i : Nat) (sh : Nat) (ln : Nat) (n : Nat) (sf : Sheaf) (th : Thread) (r : Req) (d : BitVec 8) (sz : BitVec 3) => standing s sh ln sf th ∧ r.sh = sh ∧ r.ln = ln ∧ r.want = .load d sz ∧ r.size = n ∧ s.net.pcieReqs[i]? = some r) (tAway false (.load 4 2)) 0 0 0 4 (tSf (tAway false (.load 4 2))) (tTh (tAway false (.load 4 2))) ({ sh := 0, ln := 0, want := .load 4 2, cap := tHeap, addr := tAddr 0x201000, size := 4, data := 0, data2 := 0, pos := 0, port := 2 }) 4 2) ∧
    ((fun (s : State) (i : Nat) (sh : Nat) (ln : Nat) (n : Nat) (sf : Sheaf) (th : Thread) (r : Req) (d : BitVec 8) (sz : BitVec 3) (ans : PeerAnswer) => standing s sh ln sf th ∧ r.sh = sh ∧ r.ln = ln ∧ r.want = .load d sz ∧ r.size = n ∧ s.net.peerReqs[i]? = some r ∧ ans.refused = none) (tAway true (.load 4 2)) 0 0 0 4 (tSf (tAway true (.load 4 2))) (tTh (tAway true (.load 4 2))) ({ sh := 0, ln := 0, want := .load 4 2, cap := tHeap, addr := tAddr 0x201000, size := 4, data := 0, data2 := 0, pos := 0, port := 2 }) 4 2 ({ time := 0, data := 0, cap := none, refused := none })) ∧
    ((fun (s : State) (i : Nat) (sh : Nat) (ln : Nat) (n : Nat) (sf : Sheaf) (th : Thread) (r : Req) (d : BitVec 8) (sz : BitVec 3) (ans : PeerAnswer) c x => standing s sh ln sf th ∧ r.sh = sh ∧ r.ln = ln ∧ r.want = .load d sz ∧ r.size = n ∧ s.net.peerReqs[i]? = some r ∧ (ans.refused = some (c, x)) ∧ th.park = none) (tAway true (.load 4 2)) 0 0 0 4 (tSf (tAway true (.load 4 2))) (tTh (tAway true (.load 4 2))) ({ sh := 0, ln := 0, want := .load 4 2, cap := tHeap, addr := tAddr 0x201000, size := 4, data := 0, data2 := 0, pos := 0, port := 2 }) 4 2 ({ time := 0, data := 0, cap := none, refused := some (0x15, 7) }) (0x15 : Byte) (7 : Byte)) ∧
    ((fun (s : State) (i : Nat) (sh : Nat) (ln : Nat) (sf : Sheaf) (th : Thread) (r : Req) (ans : PeerAnswer) => standing s sh ln sf th ∧ r.sh = sh ∧ r.ln = ln ∧ r.want = .store ∧ th.hold = some .reply ∧ s.net.peerReqs[i]? = some r ∧ ans.refused = none) (tAway true (.store)) 0 0 0 (tSf (tAway true (.store))) (tTh (tAway true (.store))) ({ sh := 0, ln := 0, want := .store, cap := tHeap, addr := tAddr 0x201000, size := 4, data := 0, data2 := 0, pos := 0, port := 2 }) ({ time := 0, data := 0, cap := none, refused := none })) ∧
    ((fun (s : State) (p : PStore) (rest : List PStore) => s.net.pcieWrites = p :: rest) tHostStore (tHostStore.net.pcieWrites.headD tStore) ([])) := by
  refine ⟨?_, ?_, ?_, ?_, ?_⟩ <;> (beta_reduce; (try unfold standing); (try unfold wordmates); decide +kernel)

/-- States and operands that meet the hypotheses of `DispatchAndRetire`, each clause at a boundary of its range. -/
theorem meets_DispatchAndRetire :
    ((fun (s : State) (core : Nat) (quad : Nat) (slot : Nat) (sf : Sheaf) (g : Thread × Word) => (fun q => core < Config.cores ∧ quad < 4 ∧ slot < 16 ∧ sheaf? s (q * 16 + slot) = some sf ∧ sf.pair = none ∧ readyGroups s sf = [g]) (core * 4 + quad)) tPlain 0 0 0 (tSf tPlain) ((readyGroups tPlain (tSf tPlain)).headD (setupThread, (0 : Word)))) ∧
    ((∀ k x, k < 16 → k ≠ 0 → sheaf? tPlain (0 * 16 + k) = some x → readyGroups tPlain x = []) ∧ (∀ k x, k < 16 → sheaf? tPlain (0 * 16 + k) = some x → ∀ l ∈ x.lanes, ∀ n, l.2.hold ≠ some (.yielded n))) ∧
    ((fun (s : State) => (∀ l ∈ s.launches, l.2.runner = none) ∧ (s.ctxs.map (·.1)).Nodup) tFinished) ∧
    ((fun (s : State) (cl : Nat) (b : Tcb) (rest : List Tcb) (l : Launch) (sp : Spot) => cl < 64 ∧ (clusterAt s cl).queue = b :: rest ∧ Tab.at? s.launches b.launch = some l ∧ l.s = 1 ∧ (ctxAt s l.ctx).state = .running ∧ placeSet l.s (needOf l) (scratchBanks s) ((dispatchCores s l.ctx cl).map (useOf s)) = some [sp]) tDealt 0 ({ launch := 0, index := 0 }) ([]) ((Tab.at? tDealt.launches 0).getD setupLaunch) (((placeSet 1 (needOf ((Tab.at? tDealt.launches 0).getD setupLaunch)) (scratchBanks tDealt) ((dispatchCores tDealt 1 0).map (useOf tDealt))).getD []).headD { core := 9, quads := [], sbase := 0, tbase := 0 })) ∧
    ((fun (s : State) (u : Nat) (e : Nat × Launch) => u < 64 ∧ mayAsk s u = true ∧ (unitLaunches s u).head? = some e ∧ mayInject s (Config.cores + u) e.2.ctx = true) (tSteal false) 0 ((unitLaunches (tSteal false) 0).headD (0, setupLaunch))) ∧
    ((fun (s : State) (u : Nat) (v : Nat) (l : List Tcb) => u < 64 ∧ (clusterAt s u).asking = some v ∧ v ≠ u ∧ shipped s u v = l ∧ l ≠ []) (tSteal true) 0 1 (shipped (tSteal true) 0 1)) ∧
    ((fun (s : State) (id : Nat) (team : Team) (l : Launch) => Tab.at? s.teams id = some team ∧ Tab.at? s.launches team.launch = some l ∧ mayRetire s id team = true ∧ s.net = netEmpty) tExited 0 ((Tab.at? tExited.teams 0).getD setupTeam) ((Tab.at? tExited.launches 0).getD setupLaunch)) ∧
    ((fun (s : State) (id : Nat) (l : Launch) => Tab.at? s.launches id = some l ∧ l.runner = none ∧ l.left = 0 ∧ launchWrites s id = false ∧ regionOf s.fabric.number (capBase l.signal) = .hbm ∧ granuleCheck s (localOf (capBase l.signal)) (capColour l.signal) = .pass) tFinished 0 ((Tab.at? tFinished.launches 0).getD setupLaunch)) ∧
    (∀ e ∈ tFinished.sheaves, ∀ x ∈ e.2.lanes, ∀ h, x.2.hold = some (.lwait h) → x.2.word = none) ∧
    ((fun (s : State) (waits : Nat → Nat → Thread → Option Wr) => waitersStand s waits) tFinished (fun sh _ th => if (sheaf? tFinished sh).map (fun sf => sf.ctx) = some 1 then (match th.hold with | some (.lwait _) => some wrNone | _ => none) else none)) := by
  refine ⟨?_, ?_, ?_, ?_, ?_, ?_, ?_, ?_, ?_, ?_⟩
  · (beta_reduce; (try unfold waitersStand); (try unfold tidy); (try unfold wordmates); decide +kernel)
  · have h : ∀ k, k < 16 → ((sheaf? tPlain (0 * 16 + k)).all fun x => decide (readyGroups tPlain x = [] ∨ k = 0) && decide (∀ l ∈ x.lanes, l.2.hold = none)) = true := by decide +kernel
    refine ⟨fun k x hk hn hx => ?_, fun k x hk hx l hl n hh => ?_⟩ <;> (have := h k hk; rw [hx] at this; simp only [Option.all_some, Bool.and_eq_true, decide_eq_true_eq] at this)
    · exact this.1.resolve_right hn
    · have := this.2 l hl; rw [hh] at this; cases this
  · (beta_reduce; (try unfold waitersStand); (try unfold tidy); (try unfold wordmates); decide +kernel)
  · (beta_reduce; (try unfold waitersStand); (try unfold tidy); (try unfold wordmates); decide +kernel)
  · (beta_reduce; (try unfold waitersStand); (try unfold tidy); (try unfold wordmates); decide +kernel)
  · (beta_reduce; (try unfold waitersStand); (try unfold tidy); (try unfold wordmates); decide +kernel)
  · (beta_reduce; (try unfold waitersStand); (try unfold tidy); (try unfold wordmates); decide +kernel)
  · (beta_reduce; (try unfold waitersStand); (try unfold tidy); (try unfold wordmates); decide +kernel)
  · have h : ∀ e ∈ tFinished.sheaves, ∀ x ∈ e.2.lanes, x.2.word = none := by decide +kernel
    exact fun e he x hx _ _ => h e he x hx
  · (beta_reduce; (try unfold waitersStand); (try unfold tidy); (try unfold wordmates); decide +kernel)

/-- States and operands that meet the hypotheses of `RunnersComplete`, each clause at a boundary of its range. -/
theorem meets_RunnersComplete :
    ((fun (s : State) (s1 : State) (id : Nat) (sg : Nat) (l : Launch) (r : Runner) => (runnerAt s id = some (l, r)) ∧ r.started = false ∧ (ctxAt s l.ctx).state = .running ∧ (∀ x ∈ s.teams, x.2.core ∉ runnerCores r) ∧ reserveAll s id r = some s1 ∧ segmentOf r (BitVec.ofNat 32 l.entry) = some sg) tRunNew ((reserveAll tRunNew 0 ((runnerAt tRunNew 0).getD (setupLaunch, tRunner)).2).getD tRunNew) 0 0 (((runnerAt tRunNew 0).getD (setupLaunch, tRunner)).1) (((runnerAt tRunNew 0).getD (setupLaunch, tRunner)).2)) ∧
    ((fun (s : State) (id : Nat) (l : Launch) (r : Runner) => (runnerAt s id = some (l, r)) ∧ r.started = true ∧ r.threads ≤ r.exits ∧ launchWrites s id = false ∧ regionOf s.fabric.number (capBase l.signal) = .hbm ∧ granuleCheck s (localOf (capBase l.signal)) (capColour l.signal) = .pass) tRunOver 0 (((runnerAt tRunOver 0).getD (setupLaunch, tRunner)).1) (((runnerAt tRunOver 0).getD (setupLaunch, tRunner)).2)) ∧
    (∀ e ∈ tRunOver.sheaves, ∀ x ∈ e.2.lanes, ∀ h, x.2.hold ≠ some (.lwait h)) ∧
    ((fun (s : State) (sh : Nat) (ln : Nat) (seg : Nat) (sf : Sheaf) (th : Thread) (target : Word) (source : Word) (l : Launch) (r : Runner) => sheaf? s sh = some sf ∧ Tab.at? sf.lanes ln = some th ∧ th.hold = some (.travel target source) ∧ th.losses = [] ∧ th.overrun = none ∧ quiet s (coreOf sh) sf.ctx ∧ (runnerAt s sf.launch = some (l, r)) ∧ segmentOf r target = some seg) tTravels 0 0 1 (tSf tTravels) (tTh tTravels) 136 64 (((runnerAt tTravels 0).getD (setupLaunch, tRunner)).1) (((runnerAt tTravels 0).getD (setupLaunch, tRunner)).2)) ∧
    ((fun (s : State) (i : Nat) (p : Packet) (l : Launch) (r : Runner) => s.net.packets[i]? = some p ∧ (∀ q ∈ s.net.packets.take i, q.sender = p.sender → q.holder ≠ p.holder) ∧ (runnerAt s p.launch = some (l, r)) ∧ fifoRoom r p.seg p.holder = true ∧ ringHead s r p.seg = ringTail s r p.seg) (tRelay false false) 0 (tPacket 0 0 64) (((runnerAt (tRelay false false) 0).getD (setupLaunch, tRunner)).1) (((runnerAt (tRelay false false) 0).getD (setupLaunch, tRunner)).2)) ∧
    ((fun (s : State) (i : Nat) (p : Packet) (l : Launch) (r : Runner) => s.net.packets[i]? = some p ∧ (∀ q ∈ s.net.packets.take i, q.sender = p.sender → q.holder ≠ p.holder) ∧ (runnerAt s p.launch = some (l, r)) ∧ (fifoRoom r p.seg p.holder = false ∨ ringHead s r p.seg ≠ ringTail s r p.seg)) (tRelay true false) 0 (tPacket 0 0 64) (((runnerAt (tRelay true false) 0).getD (setupLaunch, tRunner)).1) (((runnerAt (tRelay true false) 0).getD (setupLaunch, tRunner)).2)) ∧
    ((fun (s : State) (i : Nat) (p : Packet) (l : Launch) (r : Runner) => s.net.packets[i]? = some p ∧ (∀ q ∈ s.net.packets.take i, q.sender = p.sender → q.holder ≠ p.holder) ∧ (runnerAt s p.launch = some (l, r)) ∧ (fifoRoom r p.seg p.holder = false ∨ ringHead s r p.seg ≠ ringTail s r p.seg)) (tRelay false true) 0 (tPacket 0 0 64) (((runnerAt (tRelay false true) 0).getD (setupLaunch, tRunner)).1) (((runnerAt (tRelay false true) 0).getD (setupLaunch, tRunner)).2)) ∧
    ((fun (s : State) (id : Nat) (seg : Nat) (core : Nat) (l : Launch) (r : Runner) => (runnerAt s id = some (l, r)) ∧ (ctxAt s l.ctx).state = .running ∧ core ∈ (segAt r seg).holders ∧ r.started = true ∧ fifoRoom r seg core = true ∧ ringHead s r seg ≠ ringTail s r seg) tRing 0 0 0 (((runnerAt tRing 0).getD (setupLaunch, tRunner)).1) (((runnerAt tRing 0).getD (setupLaunch, tRunner)).2)) ∧
    ((fun (s : State) (id : Nat) (seg : Nat) (core : Nat) (l : Launch) (r : Runner) (p : Packet) (rest : List Packet) (sh : Nat) sf => (runnerAt s id = some (l, r)) ∧ (ctxAt s l.ctx).state = .running ∧ core ∈ (segAt r seg).holders ∧ fifoAt r seg core = p :: rest ∧ formingFor s core p = some sh ∧ sheaf? s sh = some sf ∧ Tab.at? sf.lanes sf.lanes.length = none) (tArrives true) 0 0 0 (((runnerAt (tArrives true) 0).getD (setupLaunch, tRunner)).1) (((runnerAt (tArrives true) 0).getD (setupLaunch, tRunner)).2) (tPacket 0 0 64) ([tPacket 0 0 72]) 5 ((sheaf? (tArrives true) 5).getD setupSheaf)) ∧
    ((fun (s : State) (id : Nat) (seg : Nat) (core : Nat) (l : Launch) (r : Runner) (p : Packet) (rest : List Packet) (sh : Nat) => (runnerAt s id = some (l, r)) ∧ (ctxAt s l.ctx).state = .running ∧ core ∈ (segAt r seg).holders ∧ fifoAt r seg core = p :: rest ∧ formingFor s core p = none ∧ formingSlot s core l = some sh ∧ sheaf? s sh = none) (tArrives false) 0 0 0 (((runnerAt (tArrives false) 0).getD (setupLaunch, tRunner)).1) (((runnerAt (tArrives false) 0).getD (setupLaunch, tRunner)).2) (tPacket 0 0 64) ([tPacket 0 0 72]) ((formingSlot (tArrives false) 0 ((runnerAt (tArrives false) 0).getD (setupLaunch, tRunner)).1).getD 9)) ∧
    ((fun (s : State) (sh : Nat) (sf : Sheaf) (f : Forming) (l : Launch) (r : Runner) => sheaf? s sh = some sf ∧ sf.forming = some f ∧ (runnerAt s sf.launch = some (l, r)) ∧ (ctxAt s l.ctx).state = .running ∧ (32 ≤ sf.lanes.length ∨ f.start + (if (segAt r f.seg).gather = 0 then 64 else (segAt r f.seg).gather) ≤ s.cycle) ∧ segmentOf r f.tpc = some f.seg) (tArrives true) 5 ((sheaf? (tArrives true) 5).getD setupSheaf) ({ seg := 0, tpc := 64, start := 0, stamps := [0] }) (((runnerAt (tArrives true) 0).getD (setupLaunch, tRunner)).1) (((runnerAt (tArrives true) 0).getD (setupLaunch, tRunner)).2)) ∧
    ((fun (s : State) (core : Nat) (id : Nat) (l : Launch) (r : Runner) => core < Config.cores ∧ (runnerAt s id = some (l, r)) ∧ (∀ g ∈ r.segs, ∀ k ∈ g.holders, k < Config.cores)) tRing 447 0 (((runnerAt tRing 0).getD (setupLaunch, tRunner)).1) (((runnerAt tRing 0).getD (setupLaunch, tRunner)).2)) ∧
    ((fun (s : State) (id : Nat) (l : Launch) (r : Runner) => (runnerAt s id = some (l, r))) tRing 0 (((runnerAt tRing 0).getD (setupLaunch, tRunner)).1) (((runnerAt tRing 0).getD (setupLaunch, tRunner)).2)) ∧
    ((fun (s : State) (id : Nat) (seg : Nat) (core : Nat) (l : Launch) (r : Runner) s1 => (runnerAt s id = some (l, r)) ∧ r.started = true ∧ seg < r.segs.length ∧ core ∈ runnerCores r ∧ core ∉ (segAt r seg).holders ++ nextHolders (segAt r seg) ++ (segAt r seg).draining ∧ (nextHolders (segAt r seg)).length < 8 ∧ cuttingFits r seg core = true ∧ reserveFifo s id seg core = some s1) tRing 0 0 2 (((runnerAt tRing 0).getD (setupLaunch, tRunner)).1) (((runnerAt tRing 0).getD (setupLaunch, tRunner)).2) ((reserveFifo tRing 0 0 2).getD tRing)) ∧
    ((fun (s : State) (id : Nat) (seg : Nat) (l : Launch) (r : Runner) slot k => (runnerAt s id = some (l, r)) ∧ r.started = true ∧ seg < r.segs.length ∧ slot ≠ 0 ∧ (nextHolders (segAt r seg))[slot]? = some k) tRing 0 1 (((runnerAt tRing 0).getD (setupLaunch, tRunner)).1) (((runnerAt tRing 0).getD (setupLaunch, tRunner)).2) 1 2) := by
  refine ⟨?_, ?_, ?_, ?_, ?_, ?_, ?_, ?_, ?_, ?_, ?_, ?_, ?_, ?_, ?_⟩
  · (beta_reduce; decide +kernel)
  · (beta_reduce; decide +kernel)
  · exact fun e he => absurd he (by simp [tRunOver])
  · (beta_reduce; decide +kernel)
  · (beta_reduce; decide +kernel)
  · (beta_reduce; decide +kernel)
  · (beta_reduce; decide +kernel)
  · (beta_reduce; decide +kernel)
  · (beta_reduce; decide +kernel)
  · (beta_reduce; decide +kernel)
  · (beta_reduce; decide +kernel)
  · (beta_reduce; decide +kernel)
  · (beta_reduce; decide +kernel)
  · (beta_reduce; decide +kernel)
  · (beta_reduce; decide +kernel)

/-- With no granule taken, a run of granules is found from wherever the firmware begins to look. -/
theorem freeGranules_empty (s : State) (hs : s.granules = []) (p n : Nat) (hn : n ≤ 2 ^ 21) : ∃ g, freeGranules s p n = some g := by
  unfold freeGranules
  rw [if_neg (by omega), hs]
  apply Option.isSome_iff_exists.mp
  rw [List.find?_isSome]
  by_cases h : p % 2 ^ 21 + n ≤ 2 ^ 21
  · exact ⟨p % 2 ^ 21, by simp only [List.mem_map, List.mem_range]; exact ⟨0, by simp, by simp⟩, by simp [Tab.get, Tab.at?]; omega⟩
  · exact ⟨0, by simp only [List.mem_map, List.mem_range]; exact ⟨2 ^ 21 - p % 2 ^ 21, by simp; omega, by omega⟩, by simp [Tab.get, Tab.at?]; omega⟩

/-- Commands of CTX_CREATE, QUEUE_CREATE and MON_SET. -/
def tCreate (cols m : Nat) : List Byte := tCmd 0x01 [(8, toBytes 8 cols), (16, toBytes 4 9), (20, toBytes 2 7), (24, toBytes 8 m)]
def tQueueNew (q k prio n kind addr : Nat) : List Byte :=
  tCmd 0x05 [(8, toBytes 2 q), (10, toBytes 1 k), (11, toBytes 1 prio), (12, toBytes 4 n), (16, toBytes 1 kind), (24, toBytes 8 addr)]
def tMonSet (a b k q site c : Nat) : List Byte := tCmd 0x07 [(8, toBytes 1 a), (9, toBytes 1 b), (10, toBytes 1 k), (11, toBytes 1 q), (12, toBytes 2 site), (14, toBytes 2 c)]
def tWindowSet (w k mask off len : Nat) : List Byte := tCmd 0x09 [(8, toBytes 1 w), (9, toBytes 1 k), (10, toBytes 2 mask), (16, toBytes 8 off), (24, toBytes 8 len)]

/-- A context whose restoring has begun, and its image. -/
def tRestoresEmpty : State := tNext (execRestore 1 (tCtxIn .saved (fun c => { c with image := none }) (tSaved .saved))) (tSaved .saved)
def tRestores : State := tNext (execRestore 1 (tSaved .saved)) (tSaved .saved)
def tRestoresImage : SaveImage := (ctxAt tRestores 1).image.getD (saveImage tPlain 1)

/-- A state whose granule table is empty. -/
def tNoGranules : State := { tOwned .idle with granules := [] }
/-- The context of a VF. -/
def tVf (st : CtxState) : State := tCtx (tAdmin 1 (tOnly st)) fun c => { c with func := 1 }

/-- The launch a check lets through; the parts of a window's check; the code of a refusal. -/
def tLaunchOk (r : Except Nat Launch) : Launch := match r with
  | .ok l => l
  | .error _ => setupLaunch
def tLaunchErr (r : Except Nat Launch) : Nat := match r with
  | .ok _ => 0
  | .error x => x
def tGot (r : RingRead) : List Byte × Byte := match r with
  | .got b t => (b, t)
  | _ => ([], 0)
/-- A capability to the memory of a peer; a queue whose WAIT names a signal there. -/
def capAt (peer base : Nat) : Cap := { bits := capBits (BitVec.ofNat 52 (peer * 2 ^ 43 + base)) 0 4096 0x3FF 1 0 0 0 0, tag := true }
def tQPeer : State :=
  let s := tQueues [(0, { tQ 1 2 with state := 1, raw := some (tQCommand (toBytes 16 (capAt 5 0x201000).bits.toNat ++ toBytes 8 10) 2, 1) })]
  { s with fabric := { s.fabric with ports := [(3, { portReset with state := 3, partner := 5 })], routes := [(5, [3])] } }
def tWinOk (r : Except Byte (Nat × Aperture × Cap)) : Nat × Aperture × Cap := match r with
  | .ok v => v
  | .error _ => (0, { ctx := 0, off := 0, len := 0, mask := 0, refusals := 0 }, nullCap)
def tWinErr (r : Except Byte (Nat × Aperture × Cap)) : Byte := match r with
  | .ok _ => 0
  | .error x => x
def tChkErr (r : Except Byte Nat) : Byte := match r with
  | .ok _ => 0
  | .error x => x
/-- States and operands that meet the hypotheses of `TenancyComplete`, each clause at a boundary of its range. -/
theorem meets_TenancyComplete :
    ((fun (s : State) (k : Nat) => (ctxAt s k).state = .running) tPlain 1) ∧
    ((fun (s : State) (k : Nat) => (ctxAt s k).state ≠ .running) (tStopping []) 1) ∧
    ((fun (s : State) (k : Nat) (die : Nat) => (ctxAt s k).state = .stopping ∧ noRunner s k ∧ s.net = netEmpty ∧ sumsInFlight s k = false ∧ die < 8 ∧ die ∉ (ctxAt s k).acks ∧ s.clusters = [] ∧ (∀ e ∈ ctxSheaves s k, dieOfCore (coreOf e.1) = die → ∀ x ∈ e.2.lanes, x.2.word = none ∧ laneStopped s e.1 x.1 x.2 = true) ∧ (∀ c ∈ s.cores, dieOfCore c.1 = die → feederStopped s k c.1 = true)) (tStopping [2]) 1 7) ∧
    ((fun (s : State) (k : Nat) => (ctxAt s k).state = .stopping ∧ noRunner s k ∧ s.net = netEmpty ∧ sumsInFlight s k = false ∧ (∀ d, d < 8 → d ∈ (ctxAt s k).acks)) (tStopping [0, 1, 2, 3, 4, 5, 6, 7]) 1) ∧
    ((fun (s : State) (k : Nat) => (ctxAt s k).state = .stopped) (tCtxIn .stopped id tJoinWaits) 1) ∧
    ((fun (s : State) (k : Nat) => (ctxAt s k).state = .saving ∧ (ctxAt s k).why ≠ some .halt) (tSaved .saving) 1) ∧
    ((fun (s : State) (k : Nat) => (ctxAt s k).state = .saving ∧ (ctxAt s k).why = some .halt) (tCtxIn .saving (fun c => { c with why := some .halt }) tPlain) 1) ∧
    ((fun (s : State) (k : Nat) => (ctxAt s k).state ≠ .restoring ∧ mayRestore s k = true) (tSaved .saved) 1) ∧
    ((fun (s : State) (k : Nat) => (ctxAt s k).state = .restoring ∧ noRunner s k ∧ noAcquire s.sheaves ∧ fnEnabled s (ctxAt s k).func = true ∧ shareCores s (ctxAt s k).func = grantsOf s k ∧ (ctxAt s k).image = none) tRestoresEmpty 1) ∧
    ((fun (s : State) (k : Nat) i => (ctxAt s k).state = .restoring ∧ noRunner s k ∧ noAcquire s.sheaves ∧ fnEnabled s (ctxAt s k).func = true ∧ shareCores s (ctxAt s k).func = grantsOf s k ∧ (ctxAt s k).image = some i ∧ (i.sheaves.map (·.1)).Nodup ∧ (i.teams.map (·.1)).Nodup ∧ noAcquire i.sheaves) tRestores 1 tRestoresImage) ∧
    ((fun (s : State) (k : Nat) => (ctxAt s k).state = .restoring ∧ noRunner s k ∧ noAcquire s.sheaves ∧ (ctxAt s k).image = none ∧ (fnEnabled s (ctxAt s k).func = false ∨ shareCores s (ctxAt s k).func ≠ grantsOf s k)) (tCtxIn .restoring id (tQueues [])) 1) ∧
    ((fun (s : State) (i : Nat) => s.cycle % Config.seasonCycles = 0 ∧ s.host.quantumEnd ≤ s.season ∧ nextEntry s = some i ∧ ((qtList (qtEntry s i)).map (·.1)).Nodup ∧ (s.ctxs.map (·.1)).Nodup) (tQtab [(0, [4, 5]), (9, [1])]) 3) := by
  refine ⟨?_, ?_, ?_, ?_, ?_, ?_, ?_, ?_, ?_, ?_, ?_, ?_⟩ <;> (beta_reduce; (try unfold noRunner); (try unfold noAcquire); decide +kernel)

/-- States and operands that meet the hypotheses of `QueuesComplete`, each clause at a boundary of its range. -/
theorem meets_QueuesComplete :
    ((fun (s : State) (fn : Nat) (q : Nat) (x : QueueSt) => queueAt s q = some x ∧ x.func = fn ∧ x.slot.isSome = true ∧ fnEnabled s fn = true) (tQueues [(0, tQ 0 1)]) 0 0 (tQ 0 1)) ∧
    ((fun (s : State) (fn : Nat) (q : Nat) (x : QueueSt) => queueAt s q = some x ∧ x.func = fn ∧ (x.slot = none ∨ fnEnabled s fn = false)) (tQueues [(0, { tQ 0 1 with slot := none })]) 0 0 ({ tQ 0 1 with slot := none })) ∧
    ((fun (s : State) (fn : Nat) (q : Nat) (x : QueueSt) => queueAt s q = some x ∧ x.func ≠ fn) (tQueues [(0, tQ 0 1)]) 63 0 (tQ 0 1)) ∧
    ((fun (s : State) (n : Nat) (k : Nat) (x : QueueSt) => queueAt s n = some x ∧ (s.host.queues.filter (fun q => mappable s q.2) = [(n, x)]) ∧ freeQueueSlot s = some k) (tQueues [(3, { tQ 0 1 with slot := none, pending := true }), (5, tQ 0 1)]) 3 1 ({ tQ 0 1 with slot := none, pending := true })) ∧
    ((fun (s : State) (q : Nat) (x : QueueSt) (host : List Byte) b tags => queueAt s q = some x ∧ mayBegin s x = true ∧ inProgress x = false ∧ x.head ≠ x.tail ∧ migrating s x.ctx = false ∧ x.marked = none ∧ ringCount x ≤ x.size ∧ readCommand s x host = .got b tags ∧ field b 127 1 < 4) (tQBegin 3 1 2) 0 (tQ 1 2) ([]) ((tGot (readCommand (tQBegin 3 1 2) (tQ 1 2) [])).1) ((tGot (readCommand (tQBegin 3 1 2) (tQ 1 2) [])).2)) ∧
    ((fun (s : State) (q : Nat) (x : QueueSt) (host : List Byte) b tags => queueAt s q = some x ∧ mayBegin s x = true ∧ inProgress x = false ∧ x.head ≠ x.tail ∧ migrating s x.ctx = false ∧ x.marked = none ∧ ringCount x ≤ x.size ∧ readCommand s x host = .got b tags ∧ 4 ≤ field b 127 1) (tQBegin 4 0 1) 0 (tQ 0 1) ([]) ((tGot (readCommand (tQBegin 4 0 1) (tQ 0 1) [])).1) ((tGot (readCommand (tQBegin 4 0 1) (tQ 0 1) [])).2)) ∧
    ((fun (s : State) (q : Nat) (x : QueueSt) (host : List Byte) => queueAt s q = some x ∧ mayBegin s x = true ∧ inProgress x = false ∧ x.head ≠ x.tail ∧ migrating s x.ctx = false ∧ x.marked = none ∧ ringCount x ≤ x.size ∧ readCommand s x host = .wait) ({ tQBegin 4 0 1 with granules := [(1, 0x8001)] }) 0 (tQ 0 1) ([])) ∧
    ((fun (s : State) (q : Nat) (x : QueueSt) (host : List Byte) => queueAt s q = some x ∧ mayBegin s x = true ∧ inProgress x = false ∧ x.head ≠ x.tail ∧ migrating s x.ctx = false ∧ x.marked = none ∧ ringCount x ≤ x.size ∧ readCommand s x host = .bad) (tQueues [(0, { tQ 1 2 with ring := tCap 0x201400 255 0x3FF 0 })]) 0 ({ tQ 1 2 with ring := tCap 0x201400 255 0x3FF 0 }) ([])) ∧
    ((fun (s : State) (q : Nat) (x : QueueSt) (host : List Byte) => queueAt s q = some x ∧ mayBegin s x = true ∧ inProgress x = false ∧ x.head ≠ x.tail ∧ migrating s x.ctx = false ∧ x.marked = none ∧ ringCount x ≤ x.size ∧ readCommand s x host = .bad) ({ tQBegin 4 0 1 with granules := [] }) 0 (tQ 0 1) ([])) ∧
    ((fun (s : State) (q : Nat) (x : QueueSt) => queueAt s q = some x ∧ mayBegin s x = true ∧ inProgress x = false ∧ x.head ≠ x.tail ∧ migrating s x.ctx = false ∧ x.marked = none ∧ x.size < ringCount x) (tQBegin 0 0 3) 0 (tQ 0 3)) ∧
    ((fun (s : State) (q : Nat) (x : QueueSt) e => (fun read => queueAt s q = some x ∧ mayBegin s x = true ∧ inProgress x = false ∧ x.head ≠ x.tail ∧ migrating s x.ctx = false ∧ x.marked = none ∧ read = .error e) (checkCap s.fabric.number (ctxAt s x.ctx).colours x.ring accLoad (128 * (x.head % max 1 x.size) : Nat) 128 16)) (tQueues [(0, { tQ 1 2 with ring := tCap 0x201400 255 0x3FF 0 })]) 0 ({ tQ 1 2 with ring := tCap 0x201400 255 0x3FF 0 }) (tChkErr (checkCap (tQueues [(0, { tQ 1 2 with ring := tCap 0x201400 255 0x3FF 0 })]).fabric.number (ctxAt (tQueues [(0, { tQ 1 2 with ring := tCap 0x201400 255 0x3FF 0 })]) 1).colours ({ tQ 1 2 with ring := tCap 0x201400 255 0x3FF 0 }).ring accLoad (128 * (({ tQ 1 2 with ring := tCap 0x201400 255 0x3FF 0 }).head % max 1 ({ tQ 1 2 with ring := tCap 0x201400 255 0x3FF 0 }).size) : Nat) 128 16))) ∧
    ((fun (s : State) (q : Nat) (x : QueueSt) a => (fun read => queueAt s q = some x ∧ mayBegin s x = true ∧ inProgress x = false ∧ x.head ≠ x.tail ∧ migrating s x.ctx = false ∧ x.marked = none ∧ read = .ok a ∧ regionOf s.fabric.number a = .hbm ∧ granulesCheck s (localOf a) 128 (capColour x.ring) = .transit) (checkCap s.fabric.number (ctxAt s x.ctx).colours x.ring accLoad (128 * (x.head % max 1 x.size) : Nat) 128 16)) ({ tQBegin 4 0 1 with granules := [(1, 0x8001)] }) 0 (tQ 0 1) (tAddr 0x201400)) ∧
    ((fun (s : State) (q : Nat) (x : QueueSt) a => (fun read => queueAt s q = some x ∧ mayBegin s x = true ∧ inProgress x = false ∧ x.head ≠ x.tail ∧ migrating s x.ctx = false ∧ x.marked = none ∧ read = .ok a ∧ regionOf s.fabric.number a = .hbm ∧ granulesCheck s (localOf a) 128 (capColour x.ring) = .fail) (checkCap s.fabric.number (ctxAt s x.ctx).colours x.ring accLoad (128 * (x.head % max 1 x.size) : Nat) 128 16)) ({ tQBegin 4 0 1 with granules := [] }) 0 (tQ 0 1) (tAddr 0x201400)) ∧
    ((fun (s : State) (q : Nat) (x : QueueSt) a => (fun read => queueAt s q = some x ∧ mayBegin s x = true ∧ inProgress x = false ∧ x.head ≠ x.tail ∧ migrating s x.ctx = false ∧ x.marked = none ∧ read = .ok a ∧ regionOf s.fabric.number a = .hbm ∧ granulesCheck s (localOf a) 128 (capColour x.ring) = .pass) (checkCap s.fabric.number (ctxAt s x.ctx).colours x.ring accLoad (128 * (x.head % max 1 x.size) : Nat) 128 16)) (tQBegin 4 0 1) 0 (tQ 0 1) (tAddr 0x201400)) ∧
    ((fun (s : State) (q : Nat) (x : QueueSt) (b : List Byte) (tags : Byte) => queueAtCommand s q x b tags 0) (tQAt 0 0 0) 0 ({ tQ 1 2 with state := 1, raw := some (tQCommand (toBytes 16 tHeap.bits.toNat ++ toBytes 8 (0 + 0)) 0, 1) }) (tQCommand (toBytes 16 tHeap.bits.toNat ++ toBytes 8 (0 + 0)) 0) 1) ∧
    ((fun (s : State) (q : Nat) (x : QueueSt) (b : List Byte) (tags : Byte) l => (fun desc => queueAtCommand s q x b tags 1 ∧ needsMap s x.ctx desc (homeMax s) = false ∧ l.runner = none ∧ launchCheck s x.ctx desc (homeMax s) false none = .ok l) (parseDesc (b.take 127 ++ [0]) ((List.range 8).map fun k => tags.getLsbD k))) (tQLaunch 0) 0 ({ tQ 1 2 with state := 1, raw := some (tQCommand (tDescBytes 0 2 2) 1, 5) }) (tQCommand (tDescBytes 0 2 2) 1) 5 (tLaunchOk (launchCheck (tQLaunch 0) 1 (parseDesc ((tQCommand (tDescBytes 0 2 2) 1).take 127 ++ [0]) ((List.range 8).map fun k => (5 : Byte).getLsbD k)) (homeMax (tQLaunch 0)) false none))) ∧
    ((fun (s : State) (q : Nat) (x : QueueSt) (b : List Byte) (tags : Byte) e => (fun desc => queueAtCommand s q x b tags 1 ∧ needsMap s x.ctx desc (homeMax s) = false ∧ launchCheck s x.ctx desc (homeMax s) false none = .error e) (parseDesc (b.take 127 ++ [0]) ((List.range 8).map fun k => tags.getLsbD k))) (tQLaunch 5) 0 ({ tQ 1 2 with state := 1, raw := some (tQCommand (tDescBytes 5 2 2) 1, 5) }) (tQCommand (tDescBytes 5 2 2) 1) 5 (tLaunchErr (launchCheck (tQLaunch 5) 1 (parseDesc ((tQCommand (tDescBytes 5 2 2) 1).take 127 ++ [0]) ((List.range 8).map fun k => (5 : Byte).getLsbD k)) (homeMax (tQLaunch 5)) false none))) ∧
    ((fun (s : State) (q : Nat) (x : QueueSt) (b : List Byte) (tags : Byte) (a : Nat) => (fun c => queueAtCommand s q x b tags 2 ∧ checkCap s.fabric.number (ctxAt s x.ctx).colours c accLoad 0 8 8 = .ok a ∧ regionOf s.fabric.number a = .hbm ∧ granuleCheck s (localOf a) (capColour c) = .pass ∧ field b 16 8 ≤ ofBytes (bytesAt s a 8)) (capField16 b ((List.range 8).map fun k => tags.getLsbD k) 0)) (tQAt 2 9 0) 0 ({ tQ 1 2 with state := 1, raw := some (tQCommand (toBytes 16 tHeap.bits.toNat ++ toBytes 8 (9 + 0)) 2, 1) }) (tQCommand (toBytes 16 tHeap.bits.toNat ++ toBytes 8 (9 + 0)) 2) 1 (tAddr 0x201000)) ∧
    ((fun (s : State) (q : Nat) (x : QueueSt) (b : List Byte) (tags : Byte) (a : Nat) => (fun c => queueAtCommand s q x b tags 2 ∧ checkCap s.fabric.number (ctxAt s x.ctx).colours c accLoad 0 8 8 = .ok a ∧ regionOf s.fabric.number a = .hbm ∧ granuleCheck s (localOf a) (capColour c) = .pass ∧ ofBytes (bytesAt s a 8) < field b 16 8) (capField16 b ((List.range 8).map fun k => tags.getLsbD k) 0)) (tQAt 2 10 0) 0 ({ tQ 1 2 with state := 1, raw := some (tQCommand (toBytes 16 tHeap.bits.toNat ++ toBytes 8 (10 + 0)) 2, 1) }) (tQCommand (toBytes 16 tHeap.bits.toNat ++ toBytes 8 (10 + 0)) 2) 1 (tAddr 0x201000)) ∧
    ((fun (s : State) (q : Nat) (x : QueueSt) (b : List Byte) (tags : Byte) (a : Nat) m => (fun c => queueAtCommand s q x b tags 2 ∧ checkCap s.fabric.number (ctxAt s x.ctx).colours c accLoad 0 8 8 = .ok a ∧ regionOf s.fabric.number a = .peer ∧ x.answered = none ∧ queueOut s q = false ∧ portFor s (devOf a) a = some m) (capField16 b ((List.range 8).map fun k => tags.getLsbD k) 0)) tQPeer 0 ({ tQ 1 2 with state := 1, raw := some (tQCommand (toBytes 16 (capAt 5 0x201000).bits.toNat ++ toBytes 8 10) 2, 1) }) (tQCommand (toBytes 16 (capAt 5 0x201000).bits.toNat ++ toBytes 8 10) 2) 1 (5 * 2 ^ 43 + 0x201000) 3) ∧
    ((fun (s : State) (q : Nat) (x : QueueSt) (b : List Byte) (tags : Byte) a => (fun c => queueAtCommand s q x b tags 3 ∧ checkCap s.fabric.number (ctxAt s x.ctx).colours c (accAtomic true) 0 8 8 = .ok a ∧ regionOf s.fabric.number a = .hbm ∧ granuleCheck s (localOf a) (capColour c) = .pass) (capField16 b ((List.range 8).map fun k => tags.getLsbD k) 0)) (tQAt 3 0 4) 0 ({ tQ 1 2 with state := 1, raw := some (tQCommand (toBytes 16 tHeap.bits.toNat ++ toBytes 8 (0 + 4)) 3, 1) }) (tQCommand (toBytes 16 tHeap.bits.toNat ++ toBytes 8 (0 + 4)) 3) 1 (tAddr 0x201000)) ∧
    ((fun (s : State) (q : Nat) (x : QueueSt) (b : List Byte) (tags : Byte) e => (fun c => queueAtCommand s q x b tags 3 ∧ checkCap s.fabric.number (ctxAt s x.ctx).colours c (accAtomic true) 0 8 8 = .error e) (capField16 b ((List.range 8).map fun k => tags.getLsbD k) 0)) (tQueues [(0, { tQ 1 2 with state := 1, raw := some (tQCommand [] 3, 1) })]) 0 ({ tQ 1 2 with state := 1, raw := some (tQCommand [] 3, 1) }) (tQCommand [] 3) 1 (tChkErr (checkCap (tQueues [(0, { tQ 1 2 with state := 1, raw := some (tQCommand [] 3, 1) })]).fabric.number (ctxAt (tQueues [(0, { tQ 1 2 with state := 1, raw := some (tQCommand [] 3, 1) })]) 1).colours (capField16 (tQCommand [] 3) ((List.range 8).map fun k => (1 : Byte).getLsbD k) 0) (accAtomic true) 0 8 8))) := by
  refine ⟨?_, ?_, ?_, ?_, ?_, ?_, ?_, ?_, ?_, ?_, ?_, ?_, ?_, ?_, ?_, ?_, ?_, ?_, ?_, ?_, ?_, ?_⟩ <;> (beta_reduce; (try unfold queueAtCommand); decide +kernel)

/-- States and operands that meet the hypotheses of `AdminCommandsComplete`, each clause at a boundary of its range. -/
theorem meets_AdminCommandsComplete :
    ((fun (fn : Nat) => fn < 64) 63) ∧
    ((fun (s : State) (fn : Nat) (n : Nat) (cmd : List Byte) (cols : DWord) => (adminWaits s fn cmd 0x01 [(8, 8), (16, 4), (20, 2), (24, 8)]) ∧ cols = BitVec.ofNat 64 (field cmd 8 8) ∧ n = (field cmd 24 8 + 2 ^ 21 - 1) / 2 ^ 21 ∧ cols.extractLsb' 52 12 = 0 ∧ coloursOk (adminTaken s fn) fn cols = false) (tOwned .idle) 0 1 (tCreate 0x0000000000000001 1) 0x0000000000000001) ∧
    ((fun (s : State) (fn : Nat) (n : Nat) (cmd : List Byte) (cols : DWord) => (adminWaits s fn cmd 0x01 [(8, 8), (16, 4), (20, 2), (24, 8)]) ∧ cols = BitVec.ofNat 64 (field cmd 8 8) ∧ n = (field cmd 24 8 + 2 ^ 21 - 1) / 2 ^ 21 ∧ cols.extractLsb' 52 12 = 0 ∧ coloursOk (adminTaken s fn) fn cols = true ∧ 2 ^ 21 < n) (tOwned .idle) 0 (2 ^ 22 + 2) (tCreate 0x0001000000000001 (2 ^ 43 + 2 ^ 22)) 0x0001000000000001) ∧
    ((fun (s : State) (fn : Nat) (k : Nat) (n : Nat) (cmd : List Byte) (cols : DWord) => (adminWaits s fn cmd 0x01 [(8, 8), (16, 4), (20, 2), (24, 8)]) ∧ cols = BitVec.ofNat 64 (field cmd 8 8) ∧ n = (field cmd 24 8 + 2 ^ 21 - 1) / 2 ^ 21 ∧ cols.extractLsb' 52 12 = 0 ∧ coloursOk (adminTaken s fn) fn cols = true ∧ k < 256 ∧ (ctxAt s k).state = .free ∧ (∀ j, j < k → (ctxAt s j).state ≠ .free)) tNoGranules 0 0 0 (tCreate 0x0001000000000001 0) 0x0001000000000001) ∧
    (∃ g, freeGranules tNoGranules (Config.place tNoGranules.free) 0 = some g ∧ ∀ m, 1 ≤ m → m ≤ 512 → ∃ h, freeGranules (ownGranules tNoGranules g 0 0) (Config.place (tNoGranules.free + 1)) m = some h) ∧
    ((fun (s : State) (fn : Nat) (k : Nat) (cmd : List Byte) (c : Ctx) o => k = field cmd 8 1 ∧ c = ctxAt s k ∧ (adminWaits s fn cmd 0x02 [(8, 1), (16, 4), (20, 2)]) ∧ ownCtx s fn k = true ∧ c.state ≠ .halted ∧ c.state ≠ .lost ∧ c.objects.find? (fun o => o.handle = field cmd 16 4) = some o ∧ field cmd 20 2 < o.entries) (tOwned .idle) 0 1 (tCmd 0x02 [(8, toBytes 1 1), (16, toBytes 4 1), (20, toBytes 2 1)]) (ctxAt (tOwned .idle) 1) ((ctxAt (tOwned .idle) 1).objects.headD { handle := 9, lo := 0, hi := 0, gbase := 0, code := nullCap, entries := 0, kernels := [], exports := [], time := 0 })) ∧
    ((fun (s : State) (fn : Nat) (k : Nat) (cmd : List Byte) (c : Ctx) o => k = field cmd 8 1 ∧ c = ctxAt s k ∧ (adminWaits s fn cmd 0x02 [(8, 1), (16, 4), (20, 2)]) ∧ ownCtx s fn k = true ∧ c.state ≠ .halted ∧ c.state ≠ .lost ∧ c.objects.find? (fun o => o.handle = field cmd 16 4) = some o ∧ ¬ (field cmd 20 2 < o.entries)) (tOwned .idle) 0 1 (tCmd 0x02 [(8, toBytes 1 1), (16, toBytes 4 1), (20, toBytes 2 2)]) (ctxAt (tOwned .idle) 1) ((ctxAt (tOwned .idle) 1).objects.headD { handle := 9, lo := 0, hi := 0, gbase := 0, code := nullCap, entries := 0, kernels := [], exports := [], time := 0 })) ∧
    ((fun (s : State) (fn : Nat) (k : Nat) (cmd : List Byte) (c : Ctx) => k = field cmd 8 1 ∧ c = ctxAt s k ∧ (adminWaits s fn cmd 0x02 [(8, 1), (16, 4), (20, 2)]) ∧ ownCtx s fn k = false) (tOwned .idle) 0 3 (tCmd 0x02 [(8, toBytes 1 3), (16, toBytes 4 1), (20, toBytes 2 0)]) (ctxAt (tOwned .idle) 3)) ∧
    ((fun (s : State) (fn : Nat) (k : Nat) (cmd : List Byte) (c : Ctx) => k = field cmd 8 1 ∧ c = ctxAt s k ∧ (adminWaits s fn cmd 0x02 [(8, 1), (16, 4), (20, 2)]) ∧ ownCtx s fn k = true ∧ (c.state = .halted ∨ c.state = .lost)) (tOwned .halted) 0 1 (tCmd 0x02 [(8, toBytes 1 1), (16, toBytes 4 1), (20, toBytes 2 1)]) (ctxAt (tOwned .halted) 1)) ∧
    ((fun (s : State) (fn : Nat) (k : Nat) (cmd : List Byte) (c : Ctx) => k = field cmd 8 1 ∧ c = ctxAt s k ∧ (adminWaits s fn cmd 0x03 [(8, 1)]) ∧ ownCtx s fn k = false) (tOwned .idle) 0 5 (tCmd 0x03 [(8, toBytes 1 5)]) (ctxAt (tOwned .idle) 5)) ∧
    ((fun (s : State) (fn : Nat) (k : Nat) (cmd : List Byte) (c : Ctx) => k = field cmd 8 1 ∧ c = ctxAt s k ∧ (adminWaits s fn cmd 0x03 [(8, 1)]) ∧ ownCtx s fn k = true ∧ (c.state ∈ [.running, .stopping, .stopped, .saving, .restoring])) (tOwned .running) 0 1 (tCmd 0x03 [(8, toBytes 1 1)]) (ctxAt (tOwned .running) 1)) ∧
    ((fun (s : State) (fn : Nat) (k : Nat) (cmd : List Byte) (c : Ctx) => k = field cmd 8 1 ∧ c = ctxAt s k ∧ (adminWaits s fn cmd 0x03 [(8, 1)]) ∧ ownCtx s fn k = true ∧ (c.state ∈ [.idle, .saved, .halted, .lost]) ∧ (s.granules.map (·.1)).Nodup) (tOnly .idle) 0 1 (tCmd 0x03 [(8, toBytes 1 1)]) (ctxAt (tOnly .idle) 1)) ∧
    ((fun (s : State) (fn : Nat) (k : Nat) (cmd : List Byte) (c : Ctx) => k = field cmd 8 1 ∧ c = ctxAt s k ∧ (adminWaits s fn cmd 0x03 [(8, 1)]) ∧ ownCtx s fn k = true ∧ (c.state ∈ [.idle, .saved, .halted, .lost]) ∧ (s.granules.map (·.1)).Nodup) (tOnly .lost) 0 1 (tCmd 0x03 [(8, toBytes 1 1)]) (ctxAt (tOnly .lost) 1)) ∧
    ((fun (s : State) (fn : Nat) (k : Nat) (cmd : List Byte) (c : Ctx) => k = field cmd 8 1 ∧ c = ctxAt s k ∧ (adminWaits s fn cmd 0x08 [(8, 1), (9, 1), (10, 1)]) ∧ ownCtx s fn k = true) (tOnly .idle) 0 1 (tCmd 0x08 [(8, toBytes 1 1), (9, toBytes 1 1), (10, toBytes 1 2)]) (ctxAt (tOnly .idle) 1)) ∧
    ((fun (s : State) (fn : Nat) (k : Nat) (cmd : List Byte) (c : Ctx) => k = field cmd 8 1 ∧ c = ctxAt s k ∧ (adminWaits s fn cmd 0x0B [(8, 1), (16, 8)]) ∧ ownCtx s fn k = true) (tOwned .halted) 0 1 (tCmd 0x0B [(8, toBytes 1 1), (16, toBytes 8 0x2000)]) (ctxAt (tOwned .halted) 1)) ∧
    ((fun (s : State) (fn : Nat) (k : Nat) (cmd : List Byte) (c : Ctx) => k = field cmd 8 1 ∧ c = ctxAt s k ∧ (adminWaits s fn cmd 0x0B [(8, 1), (16, 8)]) ∧ ownCtx s fn k = false) (tOwned .idle) 0 4 (tCmd 0x0B [(8, toBytes 1 4), (16, toBytes 8 0x2000)]) (ctxAt (tOwned .idle) 4)) ∧
    ((fun (s : State) (fn : Nat) (k : Nat) (cmd : List Byte) (file : List Byte) (obj : List Byte) (c : Ctx) st => (adminWaits s fn cmd 0x04 [(8, 1), (16, 8), (24, 4), (32, 8), (40, 4)]) ∧ k = field cmd 8 1 ∧ c = ctxAt s k ∧ ownCtx s fn k = true ∧ c.state ≠ .halted ∧ c.state ≠ .lost ∧ obj = file.take (field cmd 24 4) ∧ checkHeader obj = .error st) (tOwned .idle) 0 1 (tCmd 0x04 [(8, toBytes 1 1), (16, toBytes 8 0x1000), (24, toBytes 4 63)]) tObjFile (tObjFile.take 63) (ctxAt (tOwned .idle) 1) 0x02) ∧
    ((fun (s : State) (fn : Nat) (k : Nat) (cmd : List Byte) (file : List Byte) (obj : List Byte) (c : Ctx) h g l => (adminWaits s fn cmd 0x04 [(8, 1), (16, 8), (24, 4), (32, 8), (40, 4)]) ∧ k = field cmd 8 1 ∧ c = ctxAt s k ∧ ownCtx s fn k = true ∧ c.state ≠ .halted ∧ c.state ≠ .lost ∧ obj = file.take (field cmd 24 4) ∧ checkHeader obj = .ok h ∧ chooseG c (occupied s k c) h = some g ∧ ownerPatches c obj g h (variantsOf obj h) (symbolsOf obj h) (relocsOf obj h) 0xFFFF = .ok l ∧ c.nextHandle < 2 ^ 32) tNoGranules 0 1 (tCmd 0x04 [(8, toBytes 1 1), (16, toBytes 8 0x1000), (24, toBytes 4 96)]) tObjFile (tObjFile.take 96) (ctxAt tNoGranules 1) (parseHeader (tObjFile.take 96)) ((chooseG (ctxAt tNoGranules 1) (occupied tNoGranules 1 (ctxAt tNoGranules 1)) (parseHeader (tObjFile.take 96))).getD 0) ([])) ∧
    (∃ p, freeGranules tNoGranules (Config.place tNoGranules.free) (((parseHeader (tObjFile.take 96)).textSize + 2 ^ 21 - 1) / 2 ^ 21) = some p) ∧
    ((fun (s : State) (k : Nat) (n : Nat) (o : Object) => (ctxAt s k).objects.find? (fun x => x.handle = n) = some o ∧ s.rake.entries.length < 255) (tOwned .running) 1 1 ((ctxAt (tOwned .idle) 1).objects.headD { handle := 9, lo := 0, hi := 0, gbase := 0, code := nullCap, entries := 0, kernels := [], exports := [], time := 0 })) ∧
    ((fun (s : State) (fn : Nat) (q : Nat) (k : Nat) (n : Nat) (base : Nat) (cmd : List Byte) => (adminWaits s fn cmd 0x05 [(8, 2), (10, 1), (11, 1), (12, 4), (16, 1), (24, 8)]) ∧ q = field cmd 8 2 ∧ k = field cmd 10 1 ∧ n = field cmd 12 4 ∧ ownCtx s fn k = true ∧ q < 16384 ∧ field cmd 11 1 ≤ 7 ∧ n = 2 ^ 1 ∧ field cmd 16 1 ≤ 1 ∧ queueAt s q = none ∧ ringPlace (ctxAt s k) (field cmd 16 1) (field cmd 24 8) (128 * n) = some base) (tOnly .idle) 0 9 1 2 ((ringPlace (ctxAt (tOnly .idle) 1) 0 0 256).getD 0) (tQueueNew 9 1 7 2 0 0)) ∧
    ((fun (s : State) (fn : Nat) (q : Nat) (k : Nat) (n : Nat) (base : Nat) (cmd : List Byte) => (adminWaits s fn cmd 0x05 [(8, 2), (10, 1), (11, 1), (12, 4), (16, 1), (24, 8)]) ∧ q = field cmd 8 2 ∧ k = field cmd 10 1 ∧ n = field cmd 12 4 ∧ ownCtx s fn k = true ∧ q < 16384 ∧ field cmd 11 1 ≤ 7 ∧ n = 2 ^ 16 ∧ field cmd 16 1 ≤ 1 ∧ queueAt s q = none ∧ ringPlace (ctxAt s k) (field cmd 16 1) (field cmd 24 8) (128 * n) = some base) (tOnly .idle) 0 16383 1 65536 ((ringPlace (ctxAt (tOnly .idle) 1) 1 4096 (128 * 65536)).getD 0) (tQueueNew 16383 1 0 65536 1 4096)) ∧
    ((fun (s : State) (fn : Nat) (q : Nat) (k : Nat) (n : Nat) (cmd : List Byte) x => (adminWaits s fn cmd 0x05 [(8, 2), (10, 1), (11, 1), (12, 4), (16, 1), (24, 8)]) ∧ q = field cmd 8 2 ∧ k = field cmd 10 1 ∧ n = field cmd 12 4 ∧ ownCtx s fn k = true ∧ q < 16384 ∧ field cmd 11 1 ≤ 7 ∧ n = 2 ^ 1 ∧ field cmd 16 1 ≤ 1 ∧ queueAt s q = some x) (tOnly .idle) 0 3 1 2 (tQueueNew 3 1 0 2 0 0) ({ tQ 0 1 with marked := some 4 })) ∧
    ((fun (s : State) (fn : Nat) (cmd : List Byte) (x : QueueSt) => (adminWaits s fn cmd 0x06 [(8, 2)]) ∧ queueAt s (field cmd 8 2) = some x ∧ x.func = fn) (tOnly .idle) 0 (tCmd 0x06 [(8, toBytes 2 3)]) ({ tQ 0 1 with marked := some 4 })) ∧
    ((fun (s : State) (fn : Nat) (cmd : List Byte) (x : QueueSt) => (adminWaits s fn cmd 0x06 [(8, 2)]) ∧ queueAt s (field cmd 8 2) = some x ∧ ¬ (x.func = fn)) (tVf .idle) 1 (tCmd 0x06 [(8, toBytes 2 3)]) ({ tQ 0 1 with marked := some 4 })) ∧
    ((fun (s : State) (fn : Nat) (key : Nat) (cmd : List Byte) => key = field cmd 9 1 * 16 + field cmd 8 1 ∧ field cmd 8 1 ≤ 15 ∧ field cmd 9 1 ≤ 7 ∧ (adminWaits s fn cmd 0x07 [(8, 1), (9, 1), (10, 1), (11, 1), (12, 2), (14, 2)]) ∧ field cmd 10 1 ≤ 3 ∧ field cmd 11 1 ≤ 1 ∧ field cmd 12 2 < monSites (field cmd 10 1) ∧ fnColour (adminTaken s fn) fn (field cmd 14 2) = true ∧ (∀ m, Tab.at? s.host.monitors key = some m → m.func = fn)) tMonitor 0 (7 * 16 + 15) (tMonSet 15 7 3 1 0 1)) ∧
    ((fun (s : State) (fn : Nat) (key : Nat) (cmd : List Byte) m => key = field cmd 9 1 * 16 + field cmd 8 1 ∧ field cmd 8 1 ≤ 15 ∧ field cmd 9 1 ≤ 7 ∧ (adminWaits s fn cmd 0x0A [(8, 1), (9, 1), (16, 8)]) ∧ Tab.at? s.host.monitors key = some m ∧ m.func = fn) tMonitor 0 0x12 (tCmd 0x0A [(8, toBytes 1 2), (9, toBytes 1 1), (16, toBytes 8 0x2000)]) ((Tab.at? tMonitor.host.monitors 0x12).getD { func := 9, kind := 1, quantity := 0, site := 3, colour := 1, min := 5, max := 9, bins := [] })) ∧
    ((fun (s : State) (fn : Nat) (key : Nat) (cmd : List Byte) m => key = field cmd 9 1 * 16 + field cmd 8 1 ∧ field cmd 8 1 ≤ 15 ∧ field cmd 9 1 ≤ 7 ∧ (adminWaits s fn cmd 0x0A [(8, 1), (9, 1), (16, 8)]) ∧ Tab.at? s.host.monitors key = some m ∧ ¬ (m.func = fn)) tMonitor 0 0x13 (tCmd 0x0A [(8, toBytes 1 3), (9, toBytes 1 1), (16, toBytes 8 0x2000)]) ((Tab.at? tMonitor.host.monitors 0x13).getD { func := 9, kind := 1, quantity := 0, site := 3, colour := 1, min := 5, max := 9, bins := [] })) ∧
    ((fun (s : State) (fn : Nat) (w : Nat) (k : Nat) (o : Nat) (n : Nat) (cmd : List Byte) => (adminWaits s fn cmd 0x09 [(8, 1), (9, 1), (10, 2), (16, 8), (24, 8)]) ∧ w = field cmd 8 1 ∧ k = field cmd 9 1 ∧ o = field cmd 16 8 ∧ n = field cmd 24 8 ∧ w ≤ 15 ∧ field cmd 10 2 ≤ 1023 ∧ ownCtx s fn k = true ∧ n = 0) (tOwned .running) 0 2 1 3 0 (tWindowSet 2 1 3 3 0)) ∧
    ((fun (s : State) (fn : Nat) (w : Nat) (k : Nat) (o : Nat) (n : Nat) (cmd : List Byte) => (adminWaits s fn cmd 0x09 [(8, 1), (9, 1), (10, 2), (16, 8), (24, 8)]) ∧ w = field cmd 8 1 ∧ k = field cmd 9 1 ∧ o = field cmd 16 8 ∧ n = field cmd 24 8 ∧ w ≤ 15 ∧ field cmd 10 2 ≤ 1023 ∧ ownCtx s fn k = true ∧ 1 ≤ n ∧ n ≤ 2 ^ 32 ∧ o + n ≤ capLen (ctxAt s k).c0 ∧ (capNarrow (ctxAt s k).c0 o n).isSome = true) (tOwned .running) 0 15 1 96 4000 (tWindowSet 15 1 1023 96 4000)) ∧
    ((fun (s : State) (fn : Nat) (cmd : List Byte) => (adminWaits s fn cmd 0x44 [(8, 32), (40, 8), (48, 4)]) ∧ 2464 + 32 * s.boot.log.length ≤ field cmd 48 4) (tOwned .running) 0 (tCmd 0x44 [(8, List.replicate 32 3), (40, toBytes 8 0x3000), (48, toBytes 4 2464)])) ∧
    ((fun (s : State) (fn : Nat) (cmd : List Byte) => (adminWaits s fn cmd 0x44 [(8, 32), (40, 8), (48, 4)]) ∧ ¬ (2464 + 32 * s.boot.log.length ≤ field cmd 48 4)) (tOwned .running) 0 (tCmd 0x44 [(8, List.replicate 32 3), (40, toBytes 8 0x3000), (48, toBytes 4 2463)])) := by
  refine ⟨?_, ?_, ?_, ?_, ?_, ?_, ?_, ?_, ?_, ?_, ?_, ?_, ?_, ?_, ?_, ?_, ?_, ?_, ?_, ?_, ?_, ?_, ?_, ?_, ?_, ?_, ?_, ?_, ?_, ?_, ?_, ?_⟩
  · (beta_reduce; (try unfold adminWaits); decide +kernel)
  · (beta_reduce; (try unfold adminWaits); decide +kernel)
  · (beta_reduce; (try unfold adminWaits); decide +kernel)
  · (beta_reduce; (try unfold adminWaits); decide +kernel)
  · obtain ⟨g, hg⟩ := freeGranules_empty tNoGranules rfl (Config.place tNoGranules.free) 0 (by omega)
    exact ⟨g, hg, fun m _ hm => freeGranules_empty _ rfl _ m (by omega)⟩
  · (beta_reduce; (try unfold adminWaits); decide +kernel)
  · (beta_reduce; (try unfold adminWaits); decide +kernel)
  · (beta_reduce; (try unfold adminWaits); decide +kernel)
  · (beta_reduce; (try unfold adminWaits); decide +kernel)
  · (beta_reduce; (try unfold adminWaits); decide +kernel)
  · (beta_reduce; (try unfold adminWaits); decide +kernel)
  · (beta_reduce; (try unfold adminWaits); decide +kernel)
  · (beta_reduce; (try unfold adminWaits); decide +kernel)
  · (beta_reduce; (try unfold adminWaits); decide +kernel)
  · (beta_reduce; (try unfold adminWaits); decide +kernel)
  · (beta_reduce; (try unfold adminWaits); decide +kernel)
  · (beta_reduce; (try unfold adminWaits); decide +kernel)
  · (beta_reduce; (try unfold adminWaits); decide +kernel)
  · exact freeGranules_empty tNoGranules rfl _ _ (by decide +kernel)
  · (beta_reduce; (try unfold adminWaits); decide +kernel)
  · (beta_reduce; (try unfold adminWaits); decide +kernel)
  · (beta_reduce; (try unfold adminWaits); decide +kernel)
  · (beta_reduce; (try unfold adminWaits); decide +kernel)
  · (beta_reduce; (try unfold adminWaits); decide +kernel)
  · (beta_reduce; (try unfold adminWaits); decide +kernel)
  · (beta_reduce; (try unfold adminWaits); decide +kernel)
  · (beta_reduce; (try unfold adminWaits); decide +kernel)
  · (beta_reduce; (try unfold adminWaits); decide +kernel)
  · (beta_reduce; (try unfold adminWaits); decide +kernel)
  · (beta_reduce; (try unfold adminWaits); decide +kernel)
  · (beta_reduce; (try unfold adminWaits); decide +kernel)
  · (beta_reduce; (try unfold adminWaits); decide +kernel)

/-- States and operands that meet the hypotheses of `PhysicalFunctionCommands`, each clause at a boundary of its range. -/
theorem meets_PhysicalFunctionCommands :
    ((fun (s : State) (fn : Nat) (cmd : List Byte) => fn ≠ 0 ∧ (adminWaits s fn cmd 0x40 [(8, 1), (9, 1), (16, 8)])) (tVf .running) 1 (tCmd 0x40 [(8, toBytes 1 1), (9, toBytes 1 2), (16, toBytes 8 0x3000)])) ∧
    ((fun (s : State) (fn : Nat) (cmd : List Byte) => fn ≠ 0 ∧ (adminWaits s fn cmd 0x41 [(8, 1), (16, 16)])) (tVf .running) 1 (tCmd 0x41 [(8, toBytes 1 3), (16, toBytes 16 (2))])) ∧
    ((fun (s : State) (fn : Nat) (cmd : List Byte) => fn ≠ 0 ∧ (adminWaits s fn cmd 0x43 [(8, 2), (16, 8)])) (tVf .running) 1 (tCmd 0x43 [(8, toBytes 2 5), (16, toBytes 8 (2))])) ∧
    ((fun (s : State) (fn : Nat) (cmd : List Byte) => fn ≠ 0 ∧ (adminWaits s fn cmd 0x42 [(8, 1), (9, 1), (10, 1), (11, 1), (12, 2), (14, 1), (16, 8), (24, 8), (32, 8), (40, 2)])) (tVf .running) 1 (tCmd 0x42 [(8, toBytes 1 1), (10, toBytes 1 0), (11, toBytes 1 7), (16, toBytes 8 (tAddr (2 ^ 30)))])) ∧
    ((fun (s : State) (v : Nat) (cmd : List Byte) (l : List Nat) => (adminWaits s 0 cmd 0x40 [(8, 1), (9, 1), (16, 8)]) ∧ v = field cmd 8 1 ∧ 1 ≤ v ∧ v ≤ 63 ∧ field cmd 9 1 ≤ 64 ∧ l.length = field cmd 9 1 ∧ l.Nodup ∧ (∀ c ∈ l, 1 ≤ c ∧ c ≤ 4095) ∧ (∀ c ∈ s.ctxs, c.2.state = .free ∨ coloursOk (updFunc (adminTaken s 0) v fun f => { f with colours := l }) c.2.func c.2.colours = true)) (tOwned .running) 63 (tCmd 0x40 [(8, toBytes 1 63), (9, toBytes 1 1), (16, toBytes 8 0x3000)]) ([4095])) ∧
    ((fun (s : State) (v : Nat) (cmd : List Byte) (l : List Nat) => (adminWaits s 0 cmd 0x40 [(8, 1), (9, 1), (16, 8)]) ∧ v = field cmd 8 1 ∧ 1 ≤ v ∧ v ≤ 63 ∧ field cmd 9 1 ≤ 64 ∧ l.length = field cmd 9 1 ∧ l.Nodup ∧ (∀ c ∈ l, 1 ≤ c ∧ c ≤ 4095) ∧ (∀ c ∈ s.ctxs, c.2.state = .free ∨ coloursOk (updFunc (adminTaken s 0) v fun f => { f with colours := l }) c.2.func c.2.colours = true)) (tOwned .running) 1 (tCmd 0x40 [(8, toBytes 1 1), (9, toBytes 1 0), (16, toBytes 8 0x3000)]) ([])) ∧
    ((fun (s : State) (cmd : List Byte) (e : QWord) => (adminWaits s 0 cmd 0x41 [(8, 1), (16, 16)]) ∧ field cmd 8 1 ≤ 63 ∧ e = BitVec.ofNat 128 (field cmd 16 16) &&& ~~~(BitVec.ofNat 128 (127 * 2 ^ 56)) ∧ qtRefused (adminTaken s 0) e = true) (tOwned .running) (tCmd 0x41 [(8, toBytes 1 63), (16, toBytes 16 (2 ^ 127))]) (BitVec.ofNat 128 (field (tCmd 0x41 [(8, toBytes 1 63), (16, toBytes 16 (2 ^ 127))]) 16 16) &&& ~~~(BitVec.ofNat 128 (127 * 2 ^ 56)))) ∧
    ((fun (s : State) (cmd : List Byte) (e : QWord) => (adminWaits s 0 cmd 0x41 [(8, 1), (16, 16)]) ∧ field cmd 8 1 ≤ 63 ∧ e = BitVec.ofNat 128 (field cmd 16 16) &&& ~~~(BitVec.ofNat 128 (127 * 2 ^ 56)) ∧ ¬ (qtRefused (adminTaken s 0) e = true)) (tOwned .running) (tCmd 0x41 [(8, toBytes 1 3), (16, toBytes 16 (2 ^ 127 + 2 + 2 * 2 ^ 50 + 2 ^ 44 + 9 * 2 ^ 111 + 2 ^ 99))]) (BitVec.ofNat 128 (field (tCmd 0x41 [(8, toBytes 1 3), (16, toBytes 16 (2 ^ 127 + 2 + 2 * 2 ^ 50 + 2 ^ 44 + 9 * 2 ^ 111 + 2 ^ 99))]) 16 16) &&& ~~~(BitVec.ofNat 128 (127 * 2 ^ 56)))) ∧
    ((fun (s : State) (cmd : List Byte) (e : DWord) => (adminWaits s 0 cmd 0x43 [(8, 2), (16, 8)]) ∧ field cmd 8 2 ≤ 1023 ∧ e = BitVec.ofNat 64 (field cmd 16 8 % 2 ^ 44) ∧ e.getLsbD 43 = true ∧ e.extractLsb' 10 12 = 0) (tOwned .running) (tCmd 0x43 [(8, toBytes 2 1023), (16, toBytes 8 (2 ^ 43))]) 0x80000000000) ∧
    ((fun (s : State) (cmd : List Byte) (e : DWord) => (adminWaits s 0 cmd 0x43 [(8, 2), (16, 8)]) ∧ field cmd 8 2 ≤ 1023 ∧ e = BitVec.ofNat 64 (field cmd 16 8 % 2 ^ 44) ∧ ¬ (e.getLsbD 43 = true ∧ e.extractLsb' 10 12 = 0)) (tOwned .running) (tCmd 0x43 [(8, toBytes 2 5), (16, toBytes 8 (2 ^ 43 + 2 ^ 10))]) 0x80000000400) ∧
    ((fun (s : State) (k : Nat) (base : Nat) (lo : Nat) (cmd : List Byte) => (adminWaits s 0 cmd 0x42 [(8, 1), (9, 1), (10, 1), (11, 1), (12, 2), (14, 1), (16, 8), (24, 8), (32, 8), (40, 2)]) ∧ k = field cmd 8 1 ∧ base = field cmd 16 8 ∧ lo = (ctxGranules s (ctxAt s k)).headD 0 ∧ ((ctxAt s k).state ∈ [.idle, .running, .stopping, .stopped, .saving, .saved, .restoring]) ∧ field cmd 9 1 = 0 ∧ base % 2 ^ 21 = 0 ∧ base < 2 ^ 52 ∧ regionOf s.fabric.number base = .hbm ∧ (∀ g ∈ ctxGranules s (ctxAt s k), let d := (localOf base / 2 ^ 21 + (g - lo)) * 2 ^ 21 / 2 ^ 39; field cmd 10 1 ≤ d ∧ d ≤ field cmd 11 1 ∧ d ≤ 7 ∧ Tab.get 0 s.granules (localOf base / 2 ^ 21 + (g - lo)) = 0)) (tOwned .running) 1 (tAddr (2 ^ 30)) ((ctxGranules (tOwned .running) (ctxAt (tOwned .running) 1)).headD 0) (tCmd 0x42 [(8, toBytes 1 1), (10, toBytes 1 0), (11, toBytes 1 7), (16, toBytes 8 (tAddr (2 ^ 30)))])) := by
  refine ⟨?_, ?_, ?_, ?_, ?_, ?_, ?_, ?_, ?_, ?_, ?_⟩ <;> (beta_reduce; (try unfold adminWaits); decide +kernel)

/-- States and operands that meet the hypotheses of `HostRegistersComplete`, each clause at a boundary of its range. -/
theorem meets_HostRegistersComplete :
    ((fun (s : State) (fn : Nat) => (fun f => f.held = [] ∧ ringRoom f = true) (funcAt s fn)) ({ tOwned .running with host := { (tOwned .running).host with funcs := [(0, { funcReset with evtCtl := 1, evtSize := 4, evtTail := 2, evtDrop := 1 })] } }) 0) ∧
    ((fun (s : State) (fn : Nat) => (fun f => (f.held ≠ [] ∨ ringRoom f = false) ∧ f.held.length < 256) (funcAt s fn)) ({ tOwned .running with host := { (tOwned .running).host with funcs := [(0, { funcReset with held := [[1]], evtSize := 4, evtTail := 2 }), (1, { funcReset with held := List.replicate 256 [2] })] } }) 0) ∧
    ((fun (s : State) (fn : Nat) => (fun f => (f.held ≠ [] ∨ ringRoom f = false) ∧ f.held.length < 256) (funcAt s fn)) (tOwned .running) 63) ∧
    ((fun (s : State) (fn : Nat) => (fun f => 256 ≤ f.held.length) (funcAt s fn)) ({ tOwned .running with host := { (tOwned .running).host with funcs := [(0, { funcReset with held := [[1]], evtSize := 4, evtTail := 2 }), (1, { funcReset with held := List.replicate 256 [2] })] } }) 1) ∧
    ((fun (s : State) => (s.ctxs.map (·.1)).Nodup) tPlain) ∧
    ((fun (s : State) (vf : Nat) => 1 ≤ vf ∧ vf ≤ 63 ∧ (s.ctxs.map (·.1)).Nodup) (tVf .running) 1) ∧
    ((fun (s : State) (vf : Nat) => 1 ≤ vf ∧ vf ≤ 63 ∧ (s.ctxs.map (·.1)).Nodup) (tVf .running) 63) ∧
    ((fun (s : State) (fn : Nat) => fn < 64 ∧ (funcAt s fn).held = []) (tOwned .running) 63) ∧
    ((fun (s : State) (fn : Nat) => fn < 64 ∧ (funcAt s fn).held = []) (tOwned .running) 63) ∧
    ((fun (fn : Nat) => fn < 64) 63) ∧
    ((fun (s : State) (fn : Nat) (off : Nat) (width : Nat) => fn < 64 ∧ (∀ c ∈ s.ctxs, c.2.state = .running → fnEnabled s c.2.func = true) ∧ (off % width ≠ 0 ∨ (width ≠ 4 ∧ width ≠ 8) ∨ off = 0 ∧ width = 4 ∨ off = 0x2000 ∨ off = 0x1000 ∧ width = 8)) (tOwned .running) 63 2 4) ∧
    ((fun (s : State) (fn : Nat) (off : Nat) (width : Nat) => fn < 64 ∧ (∀ c ∈ s.ctxs, c.2.state = .running → fnEnabled s c.2.func = true) ∧ (off % width ≠ 0 ∨ (width ≠ 4 ∧ width ≠ 8) ∨ off = 0 ∧ width = 4 ∨ off = 0x2000 ∨ off = 0x1000 ∧ width = 8)) (tOwned .running) 63 0 2) ∧
    ((fun (s : State) (fn : Nat) (off : Nat) (width : Nat) => fn < 64 ∧ (∀ c ∈ s.ctxs, c.2.state = .running → fnEnabled s c.2.func = true) ∧ (off % width ≠ 0 ∨ (width ≠ 4 ∧ width ≠ 8) ∨ off = 0 ∧ width = 4 ∨ off = 0x2000 ∨ off = 0x1000 ∧ width = 8)) (tOwned .running) 63 0 4) ∧
    ((fun (s : State) (fn : Nat) (off : Nat) (width : Nat) => fn < 64 ∧ (∀ c ∈ s.ctxs, c.2.state = .running → fnEnabled s c.2.func = true) ∧ (off % width ≠ 0 ∨ (width ≠ 4 ∧ width ≠ 8) ∨ off = 0 ∧ width = 4 ∨ off = 0x2000 ∨ off = 0x1000 ∧ width = 8)) (tOwned .running) 63 0x2000 4) ∧
    ((fun (s : State) (fn : Nat) (off : Nat) (width : Nat) => fn < 64 ∧ (∀ c ∈ s.ctxs, c.2.state = .running → fnEnabled s c.2.func = true) ∧ (off % width ≠ 0 ∨ (width ≠ 4 ∧ width ≠ 8) ∨ off = 0 ∧ width = 4 ∨ off = 0x2000 ∨ off = 0x1000 ∧ width = 8)) (tOwned .running) 63 0x1000 8) ∧
    ((fun (s : State) (fn : Nat) (off : Nat) (width : Nat) => fn < 64 ∧ (∀ c ∈ s.ctxs, c.2.state = .running → fnEnabled s c.2.func = true) ∧ off = 0x1000 ∧ width = 4) (tOwned .running) 63 0x1000 4) ∧
    ((fun (s : State) (fn : Nat) (off : Nat) (width : Nat) => fn < 64 ∧ (∀ c ∈ s.ctxs, c.2.state = .running → fnEnabled s c.2.func = true) ∧ off = 0x1008 ∧ width = 8 ∧ (funcAt s fn).adminCtl.getLsbD 0 = false) (tOwned .running) 63 0x1008 8) ∧
    ((fun (s : State) (fn : Nat) (off : Nat) (width : Nat) => fn < 64 ∧ (∀ c ∈ s.ctxs, c.2.state = .running → fnEnabled s c.2.func = true) ∧ off = 0x1008 ∧ width = 8 ∧ (funcAt s fn).adminCtl.getLsbD 0 = true) (tOwned .running) 0 0x1008 8) ∧
    ((fun (s : State) (fn : Nat) (off : Nat) (width : Nat) => fn < 64 ∧ (∀ c ∈ s.ctxs, c.2.state = .running → fnEnabled s c.2.func = true) ∧ off = 0x1018 ∧ width = 4) (tOwned .running) 0 0x1018 4) ∧
    ((fun (s : State) (fn : Nat) (off : Nat) (width : Nat) => fn < 64 ∧ (∀ c ∈ s.ctxs, c.2.state = .running → fnEnabled s c.2.func = true) ∧ off = 0x1100 ∧ width = 8) (tOwned .running) 0 0x1100 8) ∧
    ((fun off => off ≠ 0x1118) 0x1114) ∧
    ((fun (k : Nat) => k < 16) 2) ∧
    ((fun (k : Nat) => k < 16) 15) ∧
    ((fun (k : Nat) => k < 36) 3) ∧
    ((fun (k : Nat) => k < 36) 3) ∧
    ((fun (s : State) (fn : Nat) (win : Nat) (off : Nat) (a : Nat) (w : Aperture) (c : Cap) size => fn < 64 ∧ win ≤ 15 ∧ 1 ≤ size ∧ size ≤ 4096 ∧ (windowCheck s fn win off size accLoad = .ok (a, w, c)) ∧ granulesCheck s (localOf a) size (capColour c) = .pass) (tWindow 0x3FF) 1 2 0 ((tWinOk (windowCheck ((tWindow 0x3FF)) 1 2 0 4096 accLoad)).1) ((tWinOk (windowCheck ((tWindow 0x3FF)) 1 2 0 4096 accLoad)).2.1) ((tWinOk (windowCheck ((tWindow 0x3FF)) 1 2 0 4096 accLoad)).2.2) 4096) ∧
    ((fun (s : State) (fn : Nat) (win : Nat) (off : Nat) (a : Nat) (w : Aperture) (c : Cap) size => fn < 64 ∧ win ≤ 15 ∧ 1 ≤ size ∧ size ≤ 4096 ∧ (windowCheck s fn win off size accLoad = .ok (a, w, c)) ∧ granulesCheck s (localOf a) size (capColour c) = .pass) (tWindow 0x3FF) 1 2 4095 ((tWinOk (windowCheck ((tWindow 0x3FF)) 1 2 4095 1 accLoad)).1) ((tWinOk (windowCheck ((tWindow 0x3FF)) 1 2 4095 1 accLoad)).2.1) ((tWinOk (windowCheck ((tWindow 0x3FF)) 1 2 4095 1 accLoad)).2.2) 1) ∧
    ((fun (s : State) (fn : Nat) (win : Nat) (off : Nat) (a : Nat) (w : Aperture) (c : Cap) size => fn < 64 ∧ win ≤ 15 ∧ 1 ≤ size ∧ size ≤ 4096 ∧ (windowCheck s fn win off size accLoad = .ok (a, w, c)) ∧ granulesCheck s (localOf a) size (capColour c) = .transit) ({ tWindow 0x3FF with granules := [(1, 0x8001)] }) 1 2 0 ((tWinOk (windowCheck ({ tWindow 0x3FF with granules := [(1, 0x8001)] }) 1 2 0 4096 accLoad)).1) ((tWinOk (windowCheck ({ tWindow 0x3FF with granules := [(1, 0x8001)] }) 1 2 0 4096 accLoad)).2.1) ((tWinOk (windowCheck ({ tWindow 0x3FF with granules := [(1, 0x8001)] }) 1 2 0 4096 accLoad)).2.2) 4096) ∧
    ((fun (s : State) (fn : Nat) (win : Nat) (off : Nat) size x => fn < 64 ∧ win ≤ 15 ∧ 1 ≤ size ∧ size ≤ 4096 ∧ windowCheck s fn win off size accLoad = .error x) (tWindow 0) 1 2 0 8 (tWinErr (windowCheck (tWindow 0) 1 2 0 8 accLoad))) ∧
    ((fun (s : State) (fn : Nat) (win : Nat) (off : Nat) size x => fn < 64 ∧ win ≤ 15 ∧ 1 ≤ size ∧ size ≤ 4096 ∧ windowCheck s fn win off size accLoad = .error x) (tWindow 0x3FF) 1 2 4095 2 (tWinErr (windowCheck (tWindow 0x3FF) 1 2 4095 2 accLoad))) ∧
    ((fun (s : State) (fn : Nat) (win : Nat) (off : Nat) (a : Nat) (w : Aperture) (c : Cap) data => fn < 64 ∧ win ≤ 15 ∧ data ≠ [] ∧ (windowCheck s fn win off data.length accStore = .ok (a, w, c)) ∧ granulesCheck s (localOf a) data.length (capColour c) = .pass) (tWindow 0x3FF) 1 2 4092 ((tWinOk (windowCheck ((tWindow 0x3FF)) 1 2 4092 4 accStore)).1) ((tWinOk (windowCheck ((tWindow 0x3FF)) 1 2 4092 4 accStore)).2.1) ((tWinOk (windowCheck ((tWindow 0x3FF)) 1 2 4092 4 accStore)).2.2) ([1, 2, 3, 4])) ∧
    ((fun (s : State) (fn : Nat) (win : Nat) (off : Nat) (a : Nat) (w : Aperture) (c : Cap) data => fn < 64 ∧ win ≤ 15 ∧ data ≠ [] ∧ (windowCheck s fn win off data.length accStore = .ok (a, w, c)) ∧ granulesCheck s (localOf a) data.length (capColour c) = .transit) ({ tWindow 0x3FF with granules := [(1, 0x8001)] }) 1 2 4092 ((tWinOk (windowCheck ({ tWindow 0x3FF with granules := [(1, 0x8001)] }) 1 2 4092 4 accStore)).1) ((tWinOk (windowCheck ({ tWindow 0x3FF with granules := [(1, 0x8001)] }) 1 2 4092 4 accStore)).2.1) ((tWinOk (windowCheck ({ tWindow 0x3FF with granules := [(1, 0x8001)] }) 1 2 4092 4 accStore)).2.2) ([1, 2, 3, 4])) ∧
    ((fun (s : State) (fn : Nat) (win : Nat) (off : Nat) data x => fn < 64 ∧ win ≤ 15 ∧ data ≠ [] ∧ windowCheck s fn win off data.length accStore = .error x) (tWindow 0) 1 15 0 ([1]) (tWinErr (windowCheck (tWindow 0) 1 15 0 1 accStore))) ∧
    ((fun (s : State) (ctx : Nat) (k : Nat) => k < 8 ∧ 2 ^ 48 ≤ Tab.get 0 (ctxAt s ctx).cnt k) (tCtx (tOwned .running) fun c => { c with cnt := [(0, 2 ^ 48), (7, 2 ^ 48 + 9)] }) 1 7) := by
  refine ⟨?_, ?_, ?_, ?_, ?_, ?_, ?_, ?_, ?_, ?_, ?_, ?_, ?_, ?_, ?_, ?_, ?_, ?_, ?_, ?_, ?_, ?_, ?_, ?_, ?_, ?_, ?_, ?_, ?_, ?_, ?_, ?_, ?_, ?_⟩ <;> (beta_reduce; decide +kernel)

/-- States and operands that meet the hypotheses of `FabricAndBoot`, each clause at a boundary of its range. -/
theorem meets_FabricAndBoot :
    ((fun (r : IngressReq) => r.op ≠ .sigdone ∧ r.cap.codeOk = false) (tInbound .load 0 8 false)) ∧
    ((fun (s : State) (r : IngressReq) x => (fun c => (fun checked => r.op ≠ .sigdone ∧ r.cap.codeOk = true ∧ checked = .error x) (checkCap s.fabric.number (inboundCap s r).2 c (ingressAccess r) r.off (ingressSize r) (accessAlign (ingressSize r)))) ((inboundCap s r).1)) ({ tPort 3 with mem := (tData 0 1).mem }) (tInbound .load 4095 2 true) (tChkErr (checkCap (tPort 3).fabric.number (inboundCap ({ tPort 3 with mem := (tData 0 1).mem }) (tInbound .load 4095 2 true)).2 (inboundCap ({ tPort 3 with mem := (tData 0 1).mem }) (tInbound .load 4095 2 true)).1 (ingressAccess (tInbound .load 4095 2 true)) (tInbound .load 4095 2 true).off (ingressSize (tInbound .load 4095 2 true)) (accessAlign (ingressSize (tInbound .load 4095 2 true)))))) ∧
    ((fun (s : State) (r : IngressReq) x => (fun c => (fun checked => r.op ≠ .sigdone ∧ r.cap.codeOk = true ∧ checked = .error x) (checkCap s.fabric.number (inboundCap s r).2 c (ingressAccess r) r.off (ingressSize r) (accessAlign (ingressSize r)))) ((inboundCap s r).1)) ({ tPort 3 with mem := (tData 0 1).mem }) (tInbound .store 1 8 true) (tChkErr (checkCap (tPort 3).fabric.number (inboundCap ({ tPort 3 with mem := (tData 0 1).mem }) (tInbound .store 1 8 true)).2 (inboundCap ({ tPort 3 with mem := (tData 0 1).mem }) (tInbound .store 1 8 true)).1 (ingressAccess (tInbound .store 1 8 true)) (tInbound .store 1 8 true).off (ingressSize (tInbound .store 1 8 true)) (accessAlign (ingressSize (tInbound .store 1 8 true)))))) ∧
    ((fun (s : State) (r : IngressReq) a => (fun c => (fun checked => r.op ≠ .sigdone ∧ r.cap.codeOk = true ∧ checked = .ok a ∧ regionOf s.fabric.number a ≠ .hbm) (checkCap s.fabric.number (inboundCap s r).2 c (ingressAccess r) r.off (ingressSize r) (accessAlign (ingressSize r)))) ((inboundCap s r).1)) ({ tPort 3 with mem := (tData 0 1).mem }) ({ tInbound .load 0 8 true with cap := { bits := (capField (tCap 0x40000000000 64 0x3FF 0) 18 12 9).bits, home := 0, codeOk := true } }) (tAddr 0x40000000000)) ∧
    ((fun (s : State) (r : IngressReq) a => (fun c => (fun checked => r.op ≠ .sigdone ∧ r.cap.codeOk = true ∧ checked = .ok a ∧ regionOf s.fabric.number a = .hbm ∧ granulesCheck s (localOf a) (ingressSize r) (capColour c) = .fail) (checkCap s.fabric.number (inboundCap s r).2 c (ingressAccess r) r.off (ingressSize r) (accessAlign (ingressSize r)))) ((inboundCap s r).1)) ({ tPort 3 with granules := [], mem := (tData 0 1).mem }) (tInbound .load 0 8 true) (tAddr 0x201000)) ∧
    ((fun (s : State) (r : IngressReq) a => (fun c => (fun checked => r.op ≠ .sigdone ∧ r.cap.codeOk = true ∧ checked = .ok a ∧ regionOf s.fabric.number a = .hbm ∧ granulesCheck s (localOf a) (ingressSize r) (capColour c) = .transit) (checkCap s.fabric.number (inboundCap s r).2 c (ingressAccess r) r.off (ingressSize r) (accessAlign (ingressSize r)))) ((inboundCap s r).1)) ({ tPort 3 with granules := [(1, 0x8001)], mem := (tData 0 1).mem }) (tInbound .load 0 8 true) (tAddr 0x201000)) ∧
    ((fun (s : State) (r : IngressReq) a => (fun c => (fun checked => r.op ≠ .sigdone ∧ r.cap.codeOk = true ∧ checked = .ok a ∧ regionOf s.fabric.number a = .hbm ∧ granulesCheck s (localOf a) (ingressSize r) (capColour c) = .pass ∧ r.op = .load) (checkCap s.fabric.number (inboundCap s r).2 c (ingressAccess r) r.off (ingressSize r) (accessAlign (ingressSize r)))) ((inboundCap s r).1)) ({ tPort 3 with mem := (tData 0 1).mem }) (tInbound .load 4088 8 true) (tAddr 0x201FF8)) ∧
    ((fun (s : State) (r : IngressReq) a => (fun c => (fun checked => r.op ≠ .sigdone ∧ r.cap.codeOk = true ∧ checked = .ok a ∧ regionOf s.fabric.number a = .hbm ∧ granulesCheck s (localOf a) (ingressSize r) (capColour c) = .pass ∧ r.op = .loadCap) (checkCap s.fabric.number (inboundCap s r).2 c (ingressAccess r) r.off (ingressSize r) (accessAlign (ingressSize r)))) ((inboundCap s r).1)) ({ tPort 3 with mem := (tData 0 1).mem }) (tInbound .loadCap 0x40 16 true) (tAddr 0x201040)) ∧
    ((fun (s : State) (r : IngressReq) a => (fun c => (fun checked => r.op ≠ .sigdone ∧ r.cap.codeOk = true ∧ checked = .ok a ∧ regionOf s.fabric.number a = .hbm ∧ granulesCheck s (localOf a) (ingressSize r) (capColour c) = .pass ∧ r.op = .store ∧ 1 ≤ r.size) (checkCap s.fabric.number (inboundCap s r).2 c (ingressAccess r) r.off (ingressSize r) (accessAlign (ingressSize r)))) ((inboundCap s r).1)) ({ tPort 3 with mem := (tData 0 1).mem }) (tInbound .store 0x40 8 true) (tAddr 0x201040)) ∧
    ((fun (s : State) (r : IngressReq) a => (fun c => (fun checked => r.op ≠ .sigdone ∧ r.cap.codeOk = true ∧ checked = .ok a ∧ regionOf s.fabric.number a = .hbm ∧ granulesCheck s (localOf a) (ingressSize r) (capColour c) = .pass ∧ r.op = .storeCap) (checkCap s.fabric.number (inboundCap s r).2 c (ingressAccess r) r.off (ingressSize r) (accessAlign (ingressSize r)))) ((inboundCap s r).1)) ({ tPort 3 with mem := (tData 0 1).mem }) ({ tInbound .storeCap 0x40 16 true with carried := none }) (tAddr 0x201040)) ∧
    ((fun (s : State) (r : IngressReq) a => (fun c => (fun checked => r.op ≠ .sigdone ∧ r.cap.codeOk = true ∧ checked = .ok a ∧ regionOf s.fabric.number a = .hbm ∧ granulesCheck s (localOf a) (ingressSize r) (capColour c) = .pass ∧ r.op = .storeCap) (checkCap s.fabric.number (inboundCap s r).2 c (ingressAccess r) r.off (ingressSize r) (accessAlign (ingressSize r)))) ((inboundCap s r).1)) ({ tPort 3 with mem := (tData 0 1).mem }) ({ tInbound .storeCap 0x40 16 true with carried := some { bits := tStack.bits, home := 0, codeOk := true } }) (tAddr 0x201040)) ∧
    ((fun (s : State) (r : IngressReq) a => (fun c => (fun checked => r.op ≠ .sigdone ∧ r.cap.codeOk = true ∧ checked = .ok a ∧ regionOf s.fabric.number a = .hbm ∧ granulesCheck s (localOf a) (ingressSize r) (capColour c) = .pass ∧ r.op = .sigwait) (checkCap s.fabric.number (inboundCap s r).2 c (ingressAccess r) r.off (ingressSize r) (accessAlign (ingressSize r)))) ((inboundCap s r).1)) ({ tPort 3 with mem := (tData 0 1).mem }) (tInbound .sigwait 0x40 8 true) (tAddr 0x201040)) ∧
    ((fun (s : State) (port : Nat) (state : Nat) => port < 36 ∧ state ≤ 4 ∧ (portAt s port).state ≠ state ∧ (∀ r ∈ s.net.peerReqs, r.port ≠ port)) (tPort 3) 35 4) ∧
    ((fun (s : State) (port : Nat) (state : Nat) => port < 36 ∧ state ≤ 4 ∧ (portAt s port).state ≠ state ∧ (∀ r ∈ s.net.peerReqs, r.port ≠ port)) (tPort 3) 3 0) ∧
    ((fun (s : State) (port : Nat) (partner : Nat) => port < 36 ∧ partner ≤ 511 ∧ ((portAt s port).state = 2 ∨ (portAt s port).state = 3)) (tPort 3) 3 511) ∧
    ((fun (s : State) (port : Nat) (partner : Nat) => port < 36 ∧ partner ≤ 511 ∧ ((portAt s port).state = 2 ∨ (portAt s port).state = 3)) (tPort 2) 3 0) ∧
    ((fun (s : State) (port : Nat) (partner : Nat) => port < 36 ∧ partner ≤ 511 ∧ (portAt s port).state = 2) (tPort 2) 3 511) ∧
    ((fun (port : Nat) (partner : Nat) => port < 36 ∧ partner ≤ 511) 35 511) ∧
    ((fun (s : State) (die : Nat) (temp : Nat) => die < 8 ∧ 1150 ≤ temp ∧ (s.ctxs.map (·.1)).Nodup) tPlain 7 1150) ∧
    ((fun (s : State) (die : Nat) (temp : Nat) => die < 8 ∧ temp < 950 ∧ (dieAt s die).hot = true) ({ tPort 3 with dies := [(7, { dieReset with hot := true })] }) 7 949) ∧
    ((fun (s : State) (b : BootInput) => s.boot.done = false ∧ b.bridgesOk = false) (tBoot []) (tBootInput false)) ∧
    ((fun (s : State) (b : BootInput) => s.boot.done = false ∧ b.bridgesOk = true) (tBoot [(4 * 64 + 3, .fail)]) (tBootInput true)) := by
  refine ⟨?_, ?_, ?_, ?_, ?_, ?_, ?_, ?_, ?_, ?_, ?_, ?_, ?_, ?_, ?_, ?_, ?_, ?_, ?_, ?_, ?_, ?_⟩ <;> (beta_reduce; decide +kernel)

/-- Two lanes in focus, whose predicates `p1` differ. -/
def tTwo : State :=
  { tBeside tPlain 1 { setupThread with pc := 64, code := (tTh tPlain).code } with focus := some { sh := 0, mask := 3, pairMask := 0, rest := 0, word := none } }

/-- A group of two lanes, one of which takes effect under `@p1`, meets what every word that only writes registers asks, whatever it writes; so does a single lane. -/
theorem meets_words (w : Env → Wr) : lanesGoOn tTwo (cfg { pn := 0, pg := 1 }) (fun _ => True) w ∧ lanesGoOn tPlain (cfg tG) (fun _ => True) w := by
  refine ⟨⟨by decide +kernel, ?_⟩, lanesGoOn_one (sh := 0) (ln := 0) (sf := tSf tPlain) (th := tTh tPlain) (by decide +kernel) rfl trivial (by decide +kernel)⟩
  have ha : activeLanes tTwo = [(0, 0), (0, 1)] := by decide +kernel
  rw [ha]
  intro x hx
  have hr : x = (0, 0) ∨ x = (0, 1) := by simpa using hx
  have hs : ∀ y ∈ [(0, 0), (0, 1)], wordStop tTwo (cfg { pn := 0, pg := 1 }) y.1 y.2 = none ∧ ((laneEnv tTwo { pn := 0, pg := 1 } y).all fun e =>
      inPlace tTwo e.sf e.th (e.th.pc + 8) && decide (e.th.run = none)) = true := by decide +kernel
  obtain ⟨h1, h2⟩ := hs x hx
  refine ⟨h1, fun e he => ?_⟩
  have he' : laneEnv tTwo { pn := 0, pg := 1 } x = some e := he
  rw [he'] at h2
  simp only [Option.all_some, Bool.and_eq_true, decide_eq_true_eq] at h2
  exact ⟨h2.1, fun _ => ⟨trivial, runForbids_noRun h2.2 _⟩⟩

/-- One lane of the group has a true guard and the other a false one. -/
theorem tTwo_guards : takingLanes tTwo { pn := 0, pg := 1 } = [(0, 0)] ∧ activeLanes tTwo = [(0, 0), (0, 1)] := by decide +kernel

/-- A word at the lane's pc, its group first to issue. -/
def tWord (w : DWord) (s : State) : State :=
  { tMem s [(0x200040, wordBytes w)] with focus := none, issue := [{ sh := 0, mask := 1, pairMask := 0, rest := 0, word := none }], agenda := [.homeWrite] }
/-- States and operands that meet the hypotheses of `SpecialRegistersWritten`, each clause at a boundary of its range. -/
theorem meets_SpecialRegistersWritten :
    ((fun (o : SF) (e : Env) => oneLane e.s tG e.sh e.ln e.sf e.th ∧ o.num.toNat = 0x00) (tS 0xFF 2 0x00) (tEnv tSpecial)) ∧
    ((fun (o : SF) (e : Env) => oneLane e.s tG e.sh e.ln e.sf e.th ∧ o.num.toNat = 0x301) (tS 0xFF 2 0x301) (tEnv tSpecial)) ∧
    ((fun (o : SF) (e : Env) => oneLane e.s tG e.sh e.ln e.sf e.th ∧ o.num.toNat = 0x67) (tS 0xFF 2 0x67) (tEnv tSpecial)) ∧
    ((fun (o : SF) (e : Env) => oneLane e.s tG e.sh e.ln e.sf e.th ∧ o.num.toNat = 0x107) (tS 0xFF 2 0x107) (tEnv tSpecial)) ∧
    ((fun (o : SF) (e : Env) => oneLane e.s tG e.sh e.ln e.sf e.th ∧ o.num.toNat = 0x33 ∧ inHandler e.th = true) (tS 0xFF 2 0x33) (tEnv tHandler)) := by
  refine ⟨?_, ?_, ?_, ?_, ?_⟩ <;> (beta_reduce; decide +kernel)

/-- States and operands that meet the hypotheses of `SpecialRegistersRead`, each clause at a boundary of its range. -/
theorem meets_SpecialRegistersRead :
    ((fun (e : Env) => oneLane e.s tG e.sh e.ln e.sf e.th ∧ inPlace e.s e.sf e.th (e.th.pc + 8) = true) (tEnv tSpecial)) := by
  (beta_reduce; decide +kernel)

/-- States and operands that meet the hypotheses of `FourBitFloats`, each clause at a boundary of its range. -/
theorem meets_FourBitFloats :
    ((fun v => v < 16) 15) := by
  (beta_reduce; decide +kernel)

/-- States and operands that meet the hypotheses of `StepKeepsMemoryCanonical`, each clause at a boundary of its range. -/
theorem meets_StepKeepsMemoryCanonical :
    ((fun (s : State) => Memory.wf s.mem = true ∧ (match step s with | .next _ => true | _ => false) = true) State.reset) ∧
    ((fun (s : State) => Memory.wf s.mem = true ∧ (match step s with | .next _ => true | _ => false) = true) (tWord 0x1817E10302402029 (tData 0 1))) ∧
    ((fun (s : State) => Memory.wf s.mem = true ∧ (match step s with | .next _ => true | _ => false) = true) tHostStore) := by
  refine ⟨?_, ?_, ?_⟩ <;> (beta_reduce; decide +kernel)

/-- States and operands that meet the hypotheses of `DecodeEncode`, each clause at a boundary of its range. -/
theorem meets_DecodeEncode :
    ((fun (regs preds : Nat) (i : Instr) => i.isWord = true ∧ i.wfIn regs preds = true) 192 48 (.ffma { pn := 0, pg := 3 } { d := 4, a := tR 1, b := tR 2, c := tR 3, t := 2 })) ∧
    ((fun (regs preds : Nat) (i : Instr) => i.isWord = true ∧ i.wfIn regs preds = true) 192 48 (.ld tG { d := 191, cap := 31, off := 2, sc := 4, disp := 0x800, rh := 0, sz := 2, scope := 2, ord := 1 })) ∧
    ((fun (regs preds : Nat) (i : Instr) => i.isWord = true ∧ i.wfIn regs preds = true) 192 48 (.pairWord { op := 0, d := 4, a := 1, b := 2, i := 0 } { op := 14, d := 5, a := 3, b := 0, i := 0 } 0)) := by
  refine ⟨?_, ?_, ?_⟩ <;> (beta_reduce; decide +kernel)

/-- States and operands that meet the hypotheses of `EncodeDecode`, each clause at a boundary of its range. -/
theorem meets_EncodeDecode :
    ((fun (w : DWord) (i : Instr) => parse w = .ok i) 0x0830608020080182 (.ffma { pn := 0, pg := 3 } { d := 4, a := tR 1, b := tR 2, c := tR 3, t := 2 })) := by
  (beta_reduce; decide +kernel)

/-- States and operands that meet the hypotheses of `StepRunsDecoded`, each clause at a boundary of its range. -/
theorem meets_StepRunsDecoded :
    ((fun (s : State) (g : Group) (rest : List Group) (sf : Sheaf) (ln : Nat) (th : Thread) (i : Instr) => (fun w => s.issue = g :: rest ∧ sheaf? s g.sh = some sf ∧ (leadOf sf g.mask = some (ln, th)) ∧ sf.forming = none ∧ mayGoOn s sf th = true ∧ runBehind sf th = false ∧ (∀ x ∈ maskLanes g.sh g.mask, ((thread? s x.1 x.2).all fun u => decide (u.losses = [] ∧ u.overrun = none)) = true) ∧ fetchCheck s sf th = none ∧ decode sf.allocRegs sf.allocPreds w = .ok i ∧ (laneWord w = true → pairWaits s sf th = false)) (wordAt s th.code th.pc.toNat)) (tWord 0x0830608020080182 tPlain) ({ sh := 0, mask := 1, pairMask := 0, rest := 0, word := none }) ([]) (tSf (tWord 0x0830608020080182 tPlain)) 0 (tTh (tWord 0x0830608020080182 tPlain)) (.ffma { pn := 0, pg := 3 } { d := 4, a := tR 1, b := tR 2, c := tR 3, t := 2 })) ∧
    ((fun (s : State) (g : Group) (rest : List Group) (sf : Sheaf) (ln : Nat) (th : Thread) (i : Instr) => (fun w => s.issue = g :: rest ∧ sheaf? s g.sh = some sf ∧ (leadOf sf g.mask = some (ln, th)) ∧ sf.forming = none ∧ mayGoOn s sf th = true ∧ runBehind sf th = false ∧ (∀ x ∈ maskLanes g.sh g.mask, ((thread? s x.1 x.2).all fun u => decide (u.losses = [] ∧ u.overrun = none)) = true) ∧ fetchCheck s sf th = none ∧ decode sf.allocRegs sf.allocPreds w = .ok i ∧ (laneWord w = true → pairWaits s sf th = false)) (wordAt s th.code th.pc.toNat)) (tWord 0x1157E04020007800 tPlain) ({ sh := 0, mask := 1, pairMask := 0, rest := 0, word := none }) ([]) (tSf (tWord 0x1157E04020007800 tPlain)) 0 (tTh (tWord 0x1157E04020007800 tPlain)) (.redux tG { d := 2, a := tR 1, b := tR 0, c := tR 0xf0, t := 0 })) ∧
    ((fun (s : State) (d : Due) (rest : List Due) => s.issue = [] ∧ s.agenda = d :: rest) ({ tPlain with issue := [], agenda := [.homeWrite, .seasonBoundary] }) .homeWrite ([.seasonBoundary])) ∧
    ((fun (s : State) => s.issue = [] ∧ s.agenda = []) ({ tPlain with issue := [], agenda := [] })) := by
  refine ⟨?_, ?_, ?_, ?_⟩ <;> (beta_reduce; decide +kernel)

/-- States and operands that meet the hypotheses of `FaultsPark`, each clause at a boundary of its range. -/
theorem meets_FaultsPark :
    ((fun (s : State) (g : Group) (rest : List Group) (sf : Sheaf) (ln : Nat) (th : Thread) c => s.issue = g :: rest ∧ ln < 32 ∧ g.mask = BitVec.ofNat 32 (2 ^ ln) ∧ sheaf? s g.sh = some sf ∧ Tab.at? sf.lanes ln = some th ∧ (leadOf sf g.mask = some (ln, th)) ∧ sf.forming = none ∧ mayGoOn s sf th = true ∧ th.run = none ∧ th.park = none ∧ th.losses = [] ∧ th.overrun = none ∧ checkCap s.fabric.number (coloursOf s sf) th.code accFetch th.pc.toNat 8 1 = .error c) (tWord 0 (tLane tPlain fun th => { th with code := nullCap })) ({ sh := 0, mask := 1, pairMask := 0, rest := 0, word := none }) ([]) (tSf (tWord 0 (tLane tPlain fun th => { th with code := nullCap }))) 0 (tTh (tWord 0 (tLane tPlain fun th => { th with code := nullCap }))) causeTag) ∧
    ((fun (s : State) (g : Group) (rest : List Group) (sf : Sheaf) (ln : Nat) (th : Thread) c => s.issue = g :: rest ∧ ln < 32 ∧ g.mask = BitVec.ofNat 32 (2 ^ ln) ∧ sheaf? s g.sh = some sf ∧ Tab.at? sf.lanes ln = some th ∧ (leadOf sf g.mask = some (ln, th)) ∧ sf.forming = none ∧ mayGoOn s sf th = true ∧ th.run = none ∧ th.park = none ∧ th.losses = [] ∧ th.overrun = none ∧ checkCap s.fabric.number (coloursOf s sf) th.code accFetch th.pc.toNat 8 1 = .error c) (tWord 0 (tLane tPlain fun th => { th with pc := 4096 })) ({ sh := 0, mask := 1, pairMask := 0, rest := 0, word := none }) ([]) (tSf (tWord 0 (tLane tPlain fun th => { th with pc := 4096 }))) 0 (tTh (tWord 0 (tLane tPlain fun th => { th with pc := 4096 }))) causeBounds) ∧
    ((fun (s : State) (g : Group) (rest : List Group) (sf : Sheaf) (ln : Nat) (th : Thread) r => s.issue = g :: rest ∧ ln < 32 ∧ g.mask = BitVec.ofNat 32 (2 ^ ln) ∧ sheaf? s g.sh = some sf ∧ Tab.at? sf.lanes ln = some th ∧ (leadOf sf g.mask = some (ln, th)) ∧ sf.forming = none ∧ mayGoOn s sf th = true ∧ th.run = none ∧ th.park = none ∧ th.losses = [] ∧ th.overrun = none ∧ fetchCheck s sf th = none ∧ decode sf.allocRegs sf.allocPreds (wordAt s th.code th.pc.toNat) = .error r) (tWord 0 tPlain) ({ sh := 0, mask := 1, pairMask := 0, rest := 0, word := none }) ([]) (tSf (tWord 0 tPlain)) 0 (tTh (tWord 0 tPlain)) Reject.unknownOpcode) ∧
    ((fun (o : MF) (x : Byte) (e : Env) => (fun n => oneLane e.s tG e.sh e.ln e.sf e.th ∧ inPlace e.s e.sf e.th (e.th.pc + 8) = true ∧ e.th.park = none ∧ checkCap e.s.fabric.number (coloursOf e.s e.sf) (memCap e o) accLoad (memOff e o) n n = .error x) (szBytes o.sz)) (tM 8 9 0 2 0) causeTag (tEnv (tData 0 1))) ∧
    ((fun (o : MF) (x : Byte) (e : Env) => (fun n => oneLane e.s tG e.sh e.ln e.sf e.th ∧ inPlace e.s e.sf e.th (e.th.pc + 8) = true ∧ e.th.park = none ∧ checkCap e.s.fabric.number (coloursOf e.s e.sf) (memCap e o) accLoad (memOff e o) n n = .error x) (szBytes o.sz)) (tM 8 2 1 2 0) causeAlign (tEnv (tData 0 1))) ∧
    ((fun (o : MF) (x : Byte) (e : Env) => (fun n => oneLane e.s tG e.sh e.ln e.sf e.th ∧ inPlace e.s e.sf e.th (e.th.pc + 8) = true ∧ e.th.park = none ∧ checkCap e.s.fabric.number (coloursOf e.s e.sf) (memCap e o) accStore (memOff e o) n n = .error x) (szBytes o.sz)) (tM 8 9 0 2 0) causeTag (tEnv (tData 0 1))) ∧
    ((fun (o : MF) a (e : Env) => (fun n => oneLane e.s tG e.sh e.ln e.sf e.th ∧ inPlace e.s e.sf e.th (e.th.pc + 8) = true ∧ e.th.park = none ∧ accessAddr e (memCap e o) accLoad (memOff e o) n n = .ok a ∧ regionOf e.s.fabric.number a = .hbm ∧ granuleCheck e.s (localOf a) (capColour (memCap e o)) = .fail ∧ quiet e.s (coreOf e.sh) e.sf.ctx ∧ noCopy e (memCap e o) a) (szBytes o.sz)) (tM 8 2 0 2 0) (tAddr 0x201040) (tEnv { tData 0 1 with granules := [] })) ∧
    ((fun (e : Env) => oneLane e.s tG e.sh e.ln e.sf e.th ∧ inPlace e.s e.sf e.th (e.th.pc + 8) = true ∧ e.th.park = none) (tEnv tPlain)) ∧
    ((fun (e : Env) => oneLane e.s tG e.sh e.ln e.sf e.th ∧ inPlace e.s e.sf e.th (e.th.pc + 8) = true ∧ inHandler e.th = true ∧ (ctxAt e.s e.sf.ctx).state = .running ∧ (ctxAt e.s e.sf.ctx).why ≠ some .halt) (tEnv tHandler)) := by
  refine ⟨?_, ?_, ?_, ?_, ?_, ?_, ?_, ?_, ?_⟩ <;> (beta_reduce; (try unfold noCopy); decide +kernel)

/-- States and operands that meet the hypotheses of `RegisterRules`, each clause at a boundary of its range. -/
theorem meets_RegisterRules :
    ((fun (e : Env) => runnerOf e.s e.sf = none) (tEnv tPlain)) ∧
    ((fun (e : Env) => (runnerOf e.s e.sf).isSome = true) (tEnv tRunnerLane)) ∧
    ((fun (r : BitVec 8) => r.toNat < 0xC0) 0) ∧
    ((fun (r : BitVec 8) => r.toNat < 0xC0) 0xBF) ∧
    ((fun (r : BitVec 8) k => r.toNat < 0xC0 ∧ k ≠ r.toNat) 0xBF 0) ∧
    ((fun (e : Env) (r : BitVec 8) => 0xE0 ≤ r.toNat ∧ r.toNat < 0xF0 ∧ e.th.run = none) (tEnv tPlain) 0xE0) ∧
    ((fun (e : Env) (r : BitVec 8) => 0xE0 ≤ r.toNat ∧ r.toNat < 0xF0 ∧ e.th.run = none) (tEnv tPlain) 0xEF) ∧
    ((fun (e : Env) (r : BitVec 8) => 0xE0 ≤ r.toNat ∧ r.toNat < 0xF0 ∧ e.th.run.isSome = true) (tEnv tInRun) 0xEF) := by
  refine ⟨?_, ?_, ?_, ?_, ?_, ?_, ?_, ?_⟩ <;> (beta_reduce; decide +kernel)
end Sys2Proof.Tests
end

section
/-! The number formats: what the elements of a packed integer result are (R36, R54), the words that compute by `sr.frm` (R103 to R115), the
reduction tree (R52) and the codes of FP4 (R35). -/

namespace Sys2Proof.Machine

/-- A word whose lanes compute without a fault completes, writing what they compute (R84). -/
theorem computeOk_writes {i : Instr} {h : Guard} {w : Env → Wr} (hi : ∀ s, exec i s = .next (computeOk h w s)) :
    wordWrites i (cfg h) (fun _ => True) w :=
  compute_writes hi rfl rfl fun _ _ => rfl

/-! ### Elements of a word -/

/-- The element of a word at a position, for an element type (R36). -/
def elAt (t k : Nat) (x : Word) : Nat := x.toNat / 2 ^ (elemWidth t * k) % 2 ^ elemWidth t

theorem elAt_lt (t k : Nat) (x : Word) : elAt t k x < 2 ^ elemWidth t := Nat.mod_lt _ (Nat.two_pow_pos _)

theorem elAt_mod (t k : Nat) (x : Word) : elAt t k x % 2 ^ elemWidth t = elAt t k x := Nat.mod_mod _ _

/-- The digits in base 2^w of a sum of digits weighted by their places. -/
theorem foldr_digit (w : Nat) (l : List Nat) (k : Nat) :
    l.foldr (fun v acc => acc * 2 ^ w + v % 2 ^ w) 0 / 2 ^ (w * k) % 2 ^ w = l.getD k 0 % 2 ^ w := by
  induction l generalizing k with
  | nil => simp
  | cons v l ih =>
    cases k with
    | zero => simp
    | succ k =>
      have hrest : ∀ acc, (acc * 2 ^ w + v % 2 ^ w) / 2 ^ w = acc := fun acc => by
        rw [Nat.add_comm, Nat.add_mul_div_right _ _ (Nat.two_pow_pos w), Nat.div_eq_of_lt (Nat.mod_lt _ (Nat.two_pow_pos w)), Nat.zero_add]
      rw [List.foldr_cons, Nat.mul_succ, Nat.add_comm (w * k), Nat.pow_add, ← Nat.div_div_eq_div_mul, hrest, ih, List.getD_cons_succ]

/-- An element that lies within 32 bits is not touched by the cut to 32 bits. -/
theorem digit_of_mod_word {w k : Nat} (h : w * k + w ≤ 32) (n : Nat) : n % 2 ^ 32 / 2 ^ (w * k) % 2 ^ w = n / 2 ^ (w * k) % 2 ^ w := by
  have hsplit : 2 ^ 32 = 2 ^ (w * k) * 2 ^ (32 - w * k) := by rw [← Nat.pow_add]; congr 1; omega
  rw [hsplit, Nat.mod_mul_right_div_self, Nat.mod_mod_of_dvd _ (Nat.pow_dvd_pow 2 (by omega))]

theorem elemWidth_mul_count (t : Nat) : elemWidth t * (32 / elemWidth t) = 32 := by
  unfold elemWidth
  split_ifs <;> rfl

/-- An element of a packed word is the low bits of the value packed there: nothing of another element reaches it (R36, R54). -/
theorem elAt_packElems {t k : Nat} (hk : k < 32 / elemWidth t) (l : List Nat) :
    elAt t k (packElems (elemWidth t) l) = l.getD k 0 % 2 ^ elemWidth t := by
  have hfit : elemWidth t * k + elemWidth t ≤ 32 := by
    rw [← Nat.mul_succ]
    exact (Nat.mul_le_mul_left _ hk).trans_eq (elemWidth_mul_count t)
  unfold elAt packElems
  rw [BitVec.toNat_ofNat, digit_of_mod_word hfit, foldr_digit]

/-- An operation on the elements of two words gives, in each element, the low bits of the operation on that element (R54). -/
theorem elAt_mapEl2 {t k : Nat} (hk : k < 32 / elemWidth t) (f : Nat → Nat → Nat) (x y : Word) :
    elAt t k (mapEl2 t f x y) = f (elAt t k x) (elAt t k y) % 2 ^ elemWidth t := by
  unfold mapEl2
  rw [elAt_packElems hk]
  simp [elems, elAt, List.getD_eq_getElem?_getD, hk]

/-- As `elAt_mapEl2`, for an operation whose result fits the element. -/
theorem elAt_mapEl2_of_lt {t k : Nat} (hk : k < 32 / elemWidth t) (f : Nat → Nat → Nat) (x y : Word)
    (hf : f (elAt t k x) (elAt t k y) < 2 ^ elemWidth t) : elAt t k (mapEl2 t f x y) = f (elAt t k x) (elAt t k y) := by
  rw [elAt_mapEl2 hk, Nat.mod_eq_of_lt hf]

theorem elAt_opAdd {t k : Nat} (hk : k < 32 / elemWidth t) (x y : Word) :
    elAt t k (opAdd t x y) = (elAt t k x + elAt t k y) % 2 ^ elemWidth t := elAt_mapEl2 hk _ x y

theorem elAt_opSub {t k : Nat} (hk : k < 32 / elemWidth t) (x y : Word) :
    (elAt t k (opSub t x y) : Int) = ((elAt t k x : Int) - elAt t k y) % 2 ^ elemWidth t := by
  have hy := (elAt_lt t k y).le
  rw [opSub, elAt_mapEl2 hk]
  push_cast [hy]
  rw [show (elAt t k x : Int) + (2 ^ elemWidth t - elAt t k y) = elAt t k x - elAt t k y + 2 ^ elemWidth t by ring, Int.add_emod_right]

theorem elAt_opMul {t k : Nat} (hk : k < 32 / elemWidth t) (x y : Word) :
    elAt t k (opMul t x y) = elAt t k x * elAt t k y % 2 ^ elemWidth t := elAt_mapEl2 hk _ x y

theorem elAt_opMulhu {t k : Nat} (hk : k < 32 / elemWidth t) (x y : Word) :
    elAt t k (opMulhu t x y) = elAt t k x * elAt t k y / 2 ^ elemWidth t :=
  elAt_mapEl2_of_lt hk _ x y (Nat.div_lt_of_lt_mul (Nat.mul_lt_mul'' (elAt_lt t k x) (elAt_lt t k y)))

theorem elAt_opShl {t k : Nat} (hk : k < 32 / elemWidth t) (x y : Word) :
    elAt t k (opShl t x y) = elAt t k x * 2 ^ (elAt t k y % elemWidth t) % 2 ^ elemWidth t := elAt_mapEl2 hk _ x y

theorem elAt_opShr {t k : Nat} (hk : k < 32 / elemWidth t) (x y : Word) :
    elAt t k (opShr t x y) = elAt t k x / 2 ^ (elAt t k y % elemWidth t) :=
  elAt_mapEl2_of_lt hk _ x y ((Nat.div_le_self _ _).trans_lt (elAt_lt t k x))

/-- SAR fills with the sign bit of the element: it divides the signed value, rounding down (R89). -/
theorem elAt_opSar {t k : Nat} (hk : k < 32 / elemWidth t) (x y : Word) :
    (elAt t k (opSar t x y) : Int) = (if 2 ^ (elemWidth t - 1) ≤ elAt t k x then (elAt t k x : Int) - 2 ^ elemWidth t else elAt t k x) /
      2 ^ (elAt t k y % elemWidth t) % 2 ^ elemWidth t := by
  have hpos : (0 : Int) < 2 ^ elemWidth t := by positivity
  rw [opSar, elAt_mapEl2_of_lt hk]
  · have hel : (elAt t k x : Int) % 2 ^ elemWidth t = elAt t k x := by exact_mod_cast elAt_mod t k x
    rw [Int.toNat_of_nonneg (Int.emod_nonneg _ hpos.ne'), signedOf, elAt_mod, hel]
  · have := Int.emod_lt_of_pos (signedOf (elemWidth t) (elAt t k x) / 2 ^ (elAt t k y % elemWidth t)) hpos
    zify
    rwa [Int.toNat_of_nonneg (Int.emod_nonneg _ hpos.ne')]

theorem elAt_opMin {t k : Nat} (hk : k < 32 / elemWidth t) (x y : Word) :
    elAt t k (opMin t x y) = if intOf t (elAt t k x) ≤ intOf t (elAt t k y) then elAt t k x else elAt t k y :=
  elAt_mapEl2_of_lt hk _ x y (by split_ifs <;> exact elAt_lt t k _)

theorem elAt_opMax {t k : Nat} (hk : k < 32 / elemWidth t) (x y : Word) :
    elAt t k (opMax t x y) = if intOf t (elAt t k x) ≤ intOf t (elAt t k y) then elAt t k y else elAt t k x :=
  elAt_mapEl2_of_lt hk _ x y (by split_ifs <;> exact elAt_lt t k _)

/-! ### Division (R54) -/

theorem opDiv_zero (t : Nat) (x : Word) : opDiv t x 0 = 0xFFFFFFFF#32 := by
  by_cases ht : t = 0 <;> simp [opDiv, ht]

theorem opRem_zero (t : Nat) (x : Word) : opRem t x 0 = x := if_pos rfl

theorem opDiv_unsigned {y : Word} (hy : y ≠ 0) (x : Word) : opDiv 1 x y = BitVec.ofNat 32 (x.toNat / y.toNat) := by
  rw [opDiv, if_neg (by decide), if_neg hy, ← BitVec.toNat_udiv, BitVec.ofNat_toNat, BitVec.setWidth_eq]

theorem opRem_unsigned {y : Word} (hy : y ≠ 0) (x : Word) : opRem 1 x y = BitVec.ofNat 32 (x.toNat % y.toNat) := by
  rw [opRem, if_neg hy, if_neg (by decide), ← BitVec.toNat_umod, BitVec.ofNat_toNat, BitVec.setWidth_eq]

/-- Signed division rounds towards zero; the one quotient out of range, -2^31 ÷ -1, keeps its low bits. -/
theorem opDiv_signed {y : Word} (hy : y ≠ 0) (x : Word) : opDiv 0 x y = BitVec.ofInt 32 (x.toInt.tdiv y.toInt) := by
  rw [opDiv, if_pos rfl, if_neg hy]
  apply BitVec.eq_of_toInt_eq
  rw [BitVec.toInt_sdiv, BitVec.toInt_ofInt]

/-- The remainder takes the sign of the dividend. -/
theorem opRem_signed {y : Word} (hy : y ≠ 0) (x : Word) : opRem 0 x y = BitVec.ofInt 32 (x.toInt.tmod y.toInt) := by
  rw [opRem, if_neg hy, if_pos rfl, ← BitVec.toInt_srem, BitVec.ofInt_toInt]

/-! ### ADDC and SUBB (R93) -/

theorem addc_writes (h : Guard) (o : Tri) : wordWrites (.addc h o) (cfg h) (fun _ => True) fun e =>
    let v := (src e o.a 1).toNat + (src e o.b 1).toNat + (if pReg e.th (ctlByte o % 64) then 1 else 0)
    wrBoth (wrReg o.d (BitVec.ofNat 32 (v % 2 ^ 32))) (wrPred (ctlByte o % 64) (decide (2 ^ 32 ≤ v))) := by
  have hcut : ∀ v : Nat, BitVec.ofNat 32 (v % 2 ^ 32) = BitVec.ofNat 32 v := fun v => by
    apply BitVec.eq_of_toNat_eq
    rw [BitVec.toNat_ofNat, BitVec.toNat_ofNat, Nat.mod_mod]
  simp only [hcut]
  exact computeOk_writes fun _ => rfl

theorem subb_writes (h : Guard) (o : Tri) : wordWrites (.subb h o) (cfg h) (fun _ => True) fun e =>
    let v : Int := ((src e o.a 1).toNat : Int) - (src e o.b 1).toNat - (if pReg e.th (ctlByte o % 64) then 1 else 0)
    wrBoth (wrReg o.d (BitVec.ofInt 32 v)) (wrPred (ctlByte o % 64) (decide (v < 0))) :=
  computeOk_writes fun _ => rfl

/-- Settles O2: an element of a packed result is the low bits of the operation on its own elements (`elAt_mapEl2`). -/
theorem integerArithmetic : Obligations.IntegerArithmetic := by
  unfold Obligations.IntegerArithmetic
  refine ⟨?_, ?_, ?_⟩
  · intro t _ x y k hk
    exact ⟨elAt_opAdd hk x y, elAt_opSub hk x y, elAt_opMul hk x y, elAt_opMulhu hk x y, elAt_opShl hk x y, elAt_opShr hk x y,
      elAt_opSar hk x y, elAt_opMin hk x y, elAt_opMax hk x y⟩
  · intro h o
    exact ⟨addc_writes h o, subb_writes h o, computeOk_writes fun _ => rfl, computeOk_writes fun _ => rfl⟩
  · intro x
    exact ⟨opDiv_zero 0 x, opDiv_zero 1 x, opRem_zero 0 x, opRem_zero 1 x, by decide, by decide, fun y hy =>
      ⟨opDiv_unsigned hy x, opRem_unsigned hy x, opDiv_signed hy x, opRem_signed hy x⟩⟩

/-! ### Floating-point words -/

/-- A word with one source that `float1` gives the operation of completes by `sr.frm`. -/
theorem float1_writes {i : Instr} {h : Guard} {o : Tri} (f : Nat → Nat → Bool → Nat → Nat × Word) (hi : ∀ s, exec i s = float1 h o f s) :
    wordWrites i (cfg h) (fun _ => True) fun e => wrFloat o.d o.t.toNat
      (perElem o.t.toNat (f o.t.toNat (frmRM e.th.spr.frm) (frmFTZ e.th.spr.frm)) (srcT e o.a o.t.toNat)) :=
  computeOk_writes hi

/-- A word with two sources that `float2` gives the operation of completes by `sr.frm`. -/
theorem float2_writes {i : Instr} {h : Guard} {o : Tri} (f : Nat → Nat → Bool → Nat → Nat → Nat × Word) (hi : ∀ s, exec i s = float2 h o f s) :
    wordWrites i (cfg h) (fun _ => True) fun e => wrFloat o.d o.t.toNat
      (perElem2 o.t.toNat (f o.t.toNat (frmRM e.th.spr.frm) (frmFTZ e.th.spr.frm)) (srcT e o.a o.t.toNat) (srcT e o.b o.t.toNat)) :=
  computeOk_writes hi

theorem ffma_writes (h : Guard) (o : Tri) : wordWrites (.ffma h o) (cfg h) (fun _ => True) fun e =>
    wrFloat o.d o.t.toNat (perElem3 o.t.toNat (fmaBits o.t.toNat (frmRM e.th.spr.frm) (frmFTZ e.th.spr.frm)) (srcT e o.a o.t.toNat)
      (srcT e o.b o.t.toNat) (srcT e o.c o.t.toNat)) :=
  computeOk_writes fun _ => rfl

/-- FSCL reads its scale factors as integers: one for each 16-bit element, else one for the word (R105). -/
theorem fscl_writes (h : Guard) (o : Tri) : wordWrites (.fscl h o) (cfg h) (fun _ => True) fun e =>
    let t := o.t.toNat
    let scale := scaleBits t (frmRM e.th.spr.frm) (frmFTZ e.th.spr.frm)
    wrFloat o.d t
      (if t = 3 ∨ t = 4 then perElem2 t (fun a k => scale a (intOf 5 k)) (srcT e o.a t) ((src e o.b 5).setWidth 64)
       else perElem t (fun a => scale a (intOf 0 (src e o.b 0).toNat)) (srcT e o.a t)) :=
  computeOk_writes fun _ => rfl

/-- Settles O4: each word computes in its lanes by `float1`, by `float2` or, for FFMA and FSCL, by its own operands. -/
theorem floatWordsComplete : Obligations.FloatWordsComplete := by
  intro h o
  exact ⟨
    float2_writes addBits fun _ => rfl, float2_writes subBits fun _ => rfl, float2_writes mulBits fun _ => rfl, float2_writes divBits fun _ => rfl,
    ffma_writes h o,
    float2_writes (fun t _ ftz => minMaxBits false t ftz) fun _ => rfl, float2_writes (fun t _ ftz => minMaxBits true t ftz) fun _ => rfl,
    float1_writes (fun t _ _ a => (a % 2 ^ (typeWidth t - 1), 0)) fun _ => rfl,
    float1_writes (fun t _ _ a => (a ^^^ 2 ^ (typeWidth t - 1), 0)) fun _ => rfl,
    float1_writes (fun t rm ftz => integralBits t (if ctlByte o % 8 = 4 then rm else ctlByte o % 8) ((ctlByte o).testBit 3) ftz) fun _ => rfl,
    fscl_writes h o,
    float1_writes (fun t rm ftz a => divBits t rm ftz ((fmtOf t).bias * 2 ^ (fmtOf t).mw) a) fun _ => rfl,
    float1_writes sqrtBits fun _ => rfl,
    float1_writes (fun t _ ftz => frsqBits t ftz) fun _ => rfl,
    float1_writes (fun t _ ftz => exp2Bits t ftz) fun _ => rfl,
    float1_writes (fun t _ ftz => flog2Bits t ftz) fun _ => rfl,
    float1_writes (fun t _ ftz => fsinBits t ftz) fun _ => rfl,
    float1_writes (fun t _ ftz => fcosBits t ftz) fun _ => rfl,
    float1_writes (fun t _ ftz => ftanhBits t ftz) fun _ => rfl⟩

/-! ### The reduction tree (R52) -/

/-- Bit `j` of 2^m is 0 for every other `j`. -/
theorem two_pow_bit_ne {j m : Nat} (h : j ≠ m) : ¬ 2 ^ m / 2 ^ j % 2 = 1 := by
  have := Nat.testBit_two_pow_of_ne (Ne.symm h)
  simpa [Nat.testBit_eq_decide_div_mod_eq] using this

/-- Below the block of 2^m positions there is nothing left to join. -/
theorem scanFrom_below (f : DWord → DWord → DWord × Word) {m j : Nat} (hj : j < m) (l : List DWord) (acc : Option (DWord × Word)) :
    scanFrom f (2 ^ m) j l acc = acc := by
  induction j with
  | zero =>
    have h0 := two_pow_bit_ne hj.ne
    rw [Nat.pow_zero, Nat.div_one] at h0
    rw [scanFrom, if_neg h0]
  | succ j ih => rw [scanFrom, if_neg (two_pow_bit_ne hj.ne), ih (by omega)]

/-- The scan over 2^m positions is the one tree of the block they form. -/
theorem scanFrom_two_pow (f : DWord → DWord → DWord × Word) (m d : Nat) (l : List DWord) :
    scanFrom f (2 ^ (m + 1)) (m + 1 + d) l none = some (treeValue f (m + 1) (l.take (2 ^ (m + 1)))) := by
  induction d with
  | zero =>
    have hbit : 2 ^ (m + 1) / 2 ^ (m + 1) % 2 = 1 := by rw [Nat.div_self (Nat.two_pow_pos _)]
    rw [Nat.add_zero, scanFrom, if_pos hbit, scanFrom_below f (Nat.lt_succ_self m)]
  | succ d ih => rw [← Nat.add_assoc, scanFrom, if_neg (two_pow_bit_ne (by omega)), ih]

/-- SCAN at the last of 2^(k+1) positions is the tree over all of them, up to the 64 positions of a gang. -/
theorem scanValue_last (f : DWord → DWord → DWord × Word) {k : Nat} {l : List DWord} (hl : l.length = 2 ^ (k + 1)) (hk : k < 6) :
    scanValue f (2 ^ (k + 1) - 1) l = treeValue f (k + 1) l := by
  obtain ⟨d, hd⟩ : ∃ d, 6 = k + 1 + d := ⟨5 - k, by omega⟩
  rw [scanValue, Nat.sub_add_cancel Nat.one_le_two_pow, hd, scanFrom_two_pow, List.take_of_length_le hl.le, Option.getD_some]

/-- Settles O7: the first clause is the tree's own equation, the second `scanValue_last`. -/
theorem reductionTree : Obligations.ReductionTree :=
  fun f _ _ hl => ⟨rfl, scanValue_last f hl⟩

/-! ### FP4 (R35) -/

/-- What an FP4 code stands for: bit 3 is the sign, and codes 0 and 1 of either sign, whose exponent field is 0, have no hidden bit. -/
theorem decodeFloat_fp4 : ∀ v < 16, decodeFloat 12 false v =
    .num (decide (8 ≤ v)) (if v % 8 < 2 then v % 8 else 2 + v % 2) (((v % 8 / 2 - 1 : Nat) : Int) - 1) := by
  decide

/-- No FP4 code is a NaN or an infinity, and its class is subnormal exactly where the mantissa is 1. -/
theorem classOf_fp4 {v : Nat} (hv : v < 16) :
    classOf 12 v = if v % 8 = 0 then 3 else if v % 8 = 1 then (if 8 ≤ v then 2 else 4) else if 8 ≤ v then 1 else 5 := by
  unfold classOf
  rw [decodeFloat_fp4 v hv]
  have hmw : 2 ^ (fmtOf 12).mw = 2 := rfl
  simp only [hmw, decide_eq_true_eq]
  split_ifs <;> omega

/-- Settles O51: the values from the sixteen codes, the classes from `classOf_fp4`. -/
theorem fourBitFloats : Obligations.FourBitFloats := by
  refine ⟨by decide, fun v hv => ?_⟩
  rw [classOf_fp4 hv]
  split_ifs <;> omega

end Sys2Proof.Machine
end

section
/-! Words and assembly: the fields of a word and the bits they are read from (R55 to R58, R67), the opcode map as rows (R70), decoding and
encoding, and the integer words (R84, R89 to R97). -/

namespace Sys2Proof

/-! ### Fields and bits -/

theorem putFull_k (op : BitVec 7) (fn : BitVec 4) (h : Guard) (b : BitVec 45) : (putFull op fn h b).extractLsb' 63 1 = 0#1 := by
  simp (disch := omega) only [putFull, BitVec.extractLsb'_append_eq_of_le]
  simp

theorem putFull_op (op : BitVec 7) (fn : BitVec 4) (h : Guard) (b : BitVec 45) : (putFull op fn h b).extractLsb' 56 7 = op := by
  simp (disch := omega) only [putFull, BitVec.extractLsb'_append_eq_of_le, BitVec.extractLsb'_append_eq_of_add_le]
  simp

theorem putFull_fn (op : BitVec 7) (fn : BitVec 4) (h : Guard) (b : BitVec 45) : (putFull op fn h b).extractLsb' 52 4 = fn := by
  simp (disch := omega) only [putFull, BitVec.extractLsb'_append_eq_of_le, BitVec.extractLsb'_append_eq_of_add_le]
  simp

theorem readGuard_putFull (op : BitVec 7) (fn : BitVec 4) (h : Guard) (b : BitVec 45) : readGuard (putFull op fn h b) = h := by
  simp (disch := omega) only [readGuard, putFull, BitVec.extractLsb'_append_eq_of_le, BitVec.extractLsb'_append_eq_of_add_le]
  simp

/-- A full word is its fields put together again (R56). -/
theorem putFull_fields {w : DWord} (hk : w.extractLsb' 63 1 = 0#1) :
    putFull (w.extractLsb' 56 7) (w.extractLsb' 52 4) (readGuard w) (w.extractLsb' 0 45) = w := by
  simp (disch := omega) only [putFull, readGuard, ← hk, BitVec.extractLsb'_append_extractLsb'_eq_extractLsb', BitVec.extractLsb'_eq_self]

theorem putPair_k (x y : Slot) (z : BitVec 1) : (putPair x y z).extractLsb' 63 1 = 1#1 := by
  simp (disch := omega) only [putPair, BitVec.extractLsb'_append_eq_of_le]
  simp

theorem readSlot_putPair_first (x y : Slot) (z : BitVec 1) : readSlot (putPair x y z) 32 = x := by
  simp (disch := omega) only [readSlot, putPair, putSlot, BitVec.extractLsb'_append_eq_of_le, BitVec.extractLsb'_append_eq_of_add_le]
  simp

theorem readSlot_putPair_second (x y : Slot) (z : BitVec 1) : readSlot (putPair x y z) 1 = y := by
  simp (disch := omega) only [readSlot, putPair, putSlot, BitVec.extractLsb'_append_eq_of_le, BitVec.extractLsb'_append_eq_of_add_le]
  simp

theorem putPair_z (x y : Slot) (z : BitVec 1) : (putPair x y z).extractLsb' 0 1 = z := by
  simp (disch := omega) only [putPair, BitVec.extractLsb'_append_eq_of_add_le]
  simp

/-- A pair word is its slots put together again (R67). -/
theorem putPair_fields {w : DWord} (hk : w.extractLsb' 63 1 = 1#1) : putPair (readSlot w 32) (readSlot w 1) (w.extractLsb' 0 1) = w := by
  simp (disch := omega) only [putPair, putSlot, readSlot, ← hk, BitVec.extractLsb'_append_extractLsb'_eq_extractLsb', BitVec.extractLsb'_eq_self]

/-- A body format (R58): how a body is read from a word and put into one, each the other's inverse. -/
structure BodyFormat (α : Type) where
  read : DWord → α
  put : α → BitVec 45
  read_put : ∀ op fn h o, read (putFull op fn h (put o)) = o
  put_read : ∀ w, put (read w) = w.extractLsb' 0 45

/-- Format TRI (R58). -/
def triFormat : BodyFormat Tri where
  read := readTri
  put := putTri
  read_put op fn h o := by
    simp (disch := omega) only [readTri, putFull, putTri, putSpec, BitVec.extractLsb'_append_eq_of_le, BitVec.extractLsb'_append_eq_of_add_le]
    simp
  put_read w := by
    simp (disch := omega) only [readTri, putTri, putSpec, BitVec.extractLsb'_append_extractLsb'_eq_extractLsb']

/-- Format I12 (R58). -/
def i12Format : BodyFormat I12 where
  read := readI12
  put := putI12
  read_put op fn h o := by
    simp (disch := omega) only [readI12, putFull, putI12, putSpec, BitVec.extractLsb'_append_eq_of_le, BitVec.extractLsb'_append_eq_of_add_le]
    simp
  put_read w := by
    simp (disch := omega) only [readI12, putI12, putSpec, BitVec.extractLsb'_append_extractLsb'_eq_extractLsb']

/-- Format I20 (R58). -/
def i20Format : BodyFormat I20 where
  read := readI20
  put := putI20
  read_put op fn h o := by
    simp (disch := omega) only [readI20, putFull, putI20, BitVec.extractLsb'_append_eq_of_le, BitVec.extractLsb'_append_eq_of_add_le]
    simp
  put_read w := by
    simp (disch := omega) only [readI20, putI20, BitVec.extractLsb'_append_extractLsb'_eq_extractLsb']

/-- Format M (R58). -/
def mFormat : BodyFormat MF where
  read := readMF
  put := putMF
  read_put op fn h o := by
    simp (disch := omega) only [readMF, putFull, putMF, BitVec.extractLsb'_append_eq_of_le, BitVec.extractLsb'_append_eq_of_add_le]
    simp
  put_read w := by
    simp (disch := omega) only [readMF, putMF, BitVec.extractLsb'_append_extractLsb'_eq_extractLsb']

/-- Format B (R58). -/
def bFormat : BodyFormat BF where
  read := readBF
  put := putBF
  read_put op fn h o := by
    simp (disch := omega) only [readBF, putFull, putBF, BitVec.extractLsb'_append_eq_of_le, BitVec.extractLsb'_append_eq_of_add_le]
    simp
  put_read w := by
    simp (disch := omega) only [readBF, putBF, BitVec.extractLsb'_append_extractLsb'_eq_extractLsb']

/-- Format X (R58). -/
def xFormat : BodyFormat XF where
  read := readXF
  put := putXF
  read_put op fn h o := by
    simp (disch := omega) only [readXF, putFull, putXF, BitVec.extractLsb'_append_eq_of_le, BitVec.extractLsb'_append_eq_of_add_le]
    simp
  put_read w := by
    simp (disch := omega) only [readXF, putXF, BitVec.extractLsb'_append_extractLsb'_eq_extractLsb']

/-- Format S (R58). -/
def sFormat : BodyFormat SF where
  read := readSF
  put := putSF
  read_put op fn h o := by
    simp (disch := omega) only [readSF, putFull, putSF, putSpec, BitVec.extractLsb'_append_eq_of_le, BitVec.extractLsb'_append_eq_of_add_le]
    simp
  put_read w := by
    simp (disch := omega) only [readSF, putSF, putSpec, BitVec.extractLsb'_append_extractLsb'_eq_extractLsb']

/-! ### The opcode map -/

/-- A row of the opcode map (R70): a major opcode, the format of its bodies and its functions. -/
inductive OpcodeRow : {α : Type} → BitVec 7 → BodyFormat α → (Guard → α → Nat → Option Instr) → Prop
  | op01 : OpcodeRow 1#7 triFormat parse01
  | op02 : OpcodeRow 2#7 triFormat parse02
  | op03 : OpcodeRow 3#7 i12Format parse03
  | op04 : OpcodeRow 4#7 i20Format parse04
  | op05 : OpcodeRow 5#7 triFormat parse05
  | op08 : OpcodeRow 8#7 triFormat parse08
  | op09 : OpcodeRow 9#7 triFormat parse09
  | op0A : OpcodeRow 10#7 triFormat parse0A
  | op10 : OpcodeRow 16#7 bFormat parse10
  | op11 : OpcodeRow 17#7 triFormat parse11
  | op12 : OpcodeRow 18#7 triFormat parse12
  | op13 : OpcodeRow 19#7 triFormat parse13
  | op18 : OpcodeRow 24#7 mFormat parse18
  | op19 : OpcodeRow 25#7 mFormat parse19
  | op1A : OpcodeRow 26#7 mFormat parse1A
  | op1B : OpcodeRow 27#7 mFormat parse1B
  | op20 : OpcodeRow 32#7 triFormat parse20
  | op28 : OpcodeRow 40#7 xFormat parse28
  | op29 : OpcodeRow 41#7 xFormat parse29
  | op2A : OpcodeRow 42#7 xFormat parse2A
  | op30 : OpcodeRow 48#7 xFormat parse30
  | op3C : OpcodeRow 60#7 sFormat parse3C

/-- The fields of a word spell an instruction: a pair word's its slots, a full word's a listed function of a row of the map (R56, R67, R70). -/
inductive Spells (w : DWord) : Instr → Prop
  | pair (hk : w.extractLsb' 63 1 = 1#1) : Spells w (.pairWord (readSlot w 32) (readSlot w 1) (w.extractLsb' 0 1))
  | full {α : Type} {op : BitVec 7} {f : BodyFormat α} {p : Guard → α → Nat → Option Instr} {i : Instr} (row : OpcodeRow op f p)
      (hk : w.extractLsb' 63 1 = 0#1) (hop : w.extractLsb' 56 7 = op) (hi : p (readGuard w) (f.read w) (w.extractLsb' 52 4).toNat = some i) : Spells w i

/-- What `parse` answers for the instruction that a function number selects. -/
def listed : Option Instr → Except Reject Instr
  | some i => .ok i
  | none => .error .unknownFunction

theorem listed_eq_ok {r : Option Instr} {i : Instr} : listed r = .ok i ↔ r = some i := by
  cases r <;> simp [listed]

section
variable {α : Type} {op : BitVec 7} {f : BodyFormat α} {p : Guard → α → Nat → Option Instr}

/-- Each row of the map is read where its opcode stands. -/
theorem OpcodeRow.parse_eq (row : OpcodeRow op f p) {w : DWord} (hk : w.extractLsb' 63 1 = 0#1) (hop : w.extractLsb' 56 7 = op) :
    parse w = listed (p (readGuard w) (f.read w) (w.extractLsb' 52 4).toNat) := by
  have hfull : ¬ (w.extractLsb' 63 1 == 1#1) = true := by rw [hk]; decide
  unfold parse
  rw [if_neg hfull, hop]
  cases row <;> rfl

/-- The encoder gives each function of a row its own number in that row's format. -/
theorem OpcodeRow.encode_eq (row : OpcodeRow op f p) {h : Guard} {o : α} {n : Nat} {i : Instr} (hi : p h o n = some i) :
    encode i = putFull op (BitVec.ofNat 4 n) h (f.put o) := by
  cases row <;>
    simp only [parse01, parse02, parse03, parse04, parse05, parse08, parse09, parse0A, parse10, parse11, parse12, parse13, parse18, parse19,
      parse1A, parse1B, parse20, parse28, parse29, parse2A, parse30, parse3C] at hi <;>
    split at hi <;> cases hi
  -- a number that two rows of the opcode table share gives either of them, by the flag bit
  all_goals try split
  all_goals rfl

theorem spells_putFull (row : OpcodeRow op f p) {fn : BitVec 4} {h : Guard} {o : α} {i : Instr} (hi : p h o fn.toNat = some i) :
    Spells (putFull op fn h (f.put o)) i :=
  .full row (putFull_k ..) (putFull_op ..) (by rw [readGuard_putFull, f.read_put, putFull_fn, hi])

theorem spells_of_parse (row : OpcodeRow op f p) {w : DWord} {i : Instr} (hk : w.extractLsb' 63 1 = 0#1)
    (hop : (w.extractLsb' 56 7).toNat = op.toNat) (hw : listed (p (readGuard w) (f.read w) (w.extractLsb' 52 4).toNat) = .ok i) : Spells w i :=
  .full row hk (BitVec.eq_of_toNat_eq hop) (listed_eq_ok.1 hw)

end

theorem spells_of_parse_eq_ok {w : DWord} {i : Instr} (hw : parse w = .ok i) : Spells w i := by
  unfold parse at hw
  split at hw
  · next hk =>
    cases hw
    exact .pair (eq_of_beq hk)
  have hk : w.extractLsb' 63 1 = 0#1 := by
    have : ∀ b : BitVec 1, ¬ (b == 1#1) = true → b = 0#1 := by decide
    exact this _ ‹_›
  dsimp only at hw
  split at hw
  · exact spells_of_parse .op01 hk ‹_› hw
  · exact spells_of_parse .op02 hk ‹_› hw
  · exact spells_of_parse .op03 hk ‹_› hw
  · exact spells_of_parse .op04 hk ‹_› hw
  · exact spells_of_parse .op05 hk ‹_› hw
  · exact spells_of_parse .op08 hk ‹_› hw
  · exact spells_of_parse .op09 hk ‹_› hw
  · exact spells_of_parse .op0A hk ‹_› hw
  · exact spells_of_parse .op10 hk ‹_› hw
  · exact spells_of_parse .op11 hk ‹_› hw
  · exact spells_of_parse .op12 hk ‹_› hw
  · exact spells_of_parse .op13 hk ‹_› hw
  · exact spells_of_parse .op18 hk ‹_› hw
  · exact spells_of_parse .op19 hk ‹_› hw
  · exact spells_of_parse .op1A hk ‹_› hw
  · exact spells_of_parse .op1B hk ‹_› hw
  · exact spells_of_parse .op20 hk ‹_› hw
  · exact spells_of_parse .op28 hk ‹_› hw
  · exact spells_of_parse .op29 hk ‹_› hw
  · exact spells_of_parse .op2A hk ‹_› hw
  · exact spells_of_parse .op30 hk ‹_› hw
  · exact spells_of_parse .op3C hk ‹_› hw
  · cases hw

theorem parse_eq_ok_of_spells {w : DWord} {i : Instr} (hw : Spells w i) : parse w = .ok i := by
  cases hw with
  | pair hk => exact if_pos (beq_of_eq hk)
  | full row hk hop hi => rw [row.parse_eq hk hop, hi]; rfl

theorem encode_of_spells {w : DWord} {i : Instr} (hw : Spells w i) : encode i = w := by
  cases hw with
  | pair hk => exact putPair_fields hk
  | full row hk hop hi =>
    rw [row.encode_eq hi, BodyFormat.put_read, BitVec.ofNat_toNat, BitVec.setWidth_eq, ← hop]
    exact putFull_fields hk

theorem ne_one_of_beq_zero {b : BitVec 1} (h : (b == 0#1) = true) : ¬ (b == 1#1) = true := by
  rw [eq_of_beq h]
  decide

/-- Every word of the map is spelled by its encoding: a row for each function, and the flag bit for the rows that share one (R70). -/
theorem spells_encode {i : Instr} (hword : i.isWord = true) (hflag : flagOk i = true) : Spells (encode i) i := by
  cases i with
  | add h o | sub h o | mul h o | mulh h o | mulhu h o | mad h o | and h o | or h o | xor h o | andn h o | orn h o | shl h o | shr h o | sar h o
  | rot h o | sel h o => exact spells_putFull .op01 rfl
  | min h o | max h o | abs h o | clz h o | popc h o | brev h o | bfx h o | bfi h o | div h o | rem h o | addc h o | subb h o | lop3 h o | prmt h o
  | mov h o | sad h o => exact spells_putFull .op02 rfl
  | addi h o | andi h o | ori h o | xori h o | shli h o | shri h o | sari h o | muli h o => exact spells_putFull .op03 rfl
  | lih h o => exact spells_putFull .op04 rfl
  | icmp h o | fcmp h o | fclass h o | plop3 h o | p2g h o | g2p h o => exact spells_putFull .op05 rfl
  | fadd h o | fsub h o | fmul h o | ffma h o | fmin h o | fmax h o | fabs h o | fneg h o | frnd h o | fscl h o => exact spells_putFull .op08 rfl
  | cvt h o | packh h o | packbl h o | packbh h o | packn h o | unpk h o | dot4i h o | dot4u h o | dot8i h o | dot4f h o | dot8f h o | dot2h h o =>
    exact spells_putFull .op09 rfl
  | frcp h o | frsq h o | fsqrt h o | fexp2 h o | flog2 h o | fsin h o | fcos h o | ftanh h o | fdiv h o => exact spells_putFull .op0A rfl
  | bra h o | brx h o | call h o | callc h o | loop h o | jmark h o | join h o | yield h o | exit h o | nop h o | runb h o | rune h o | enter h o
  | leave h o => exact spells_putFull .op10 rfl
  | ret h o => exact spells_putFull .op10 (congrArg some (if_neg (ne_one_of_beq_zero hflag)))
  | retFar h o => exact spells_putFull .op10 (congrArg some (if_pos hflag))
  | shfl h o | shflp h o | vany h o | vall h o | ballot h o | redux h o | scan h o | matchm h o => exact spells_putFull .op11 rfl
  | rdvinit h o | rdvarr h o | rdvwait h o | rdvaw h o | sigwait h o | sigpost h o | phase h o => exact spells_putFull .op12 rfl
  | live h o | hop h o | launch h o | lwait h o => exact spells_putFull .op13 rfl
  | ld h o | st h o | ldw h o | ldc h o | stc h o | lds h o | sts h o | cas h o | cass h o | pref h o => exact spells_putFull .op18 rfl
  | atomAdd h o | atomMin h o | atomMax h o | atomMinu h o | atomMaxu h o | atomAnd h o | atomOr h o | atomXor h o | atomXchg h o | atomFadd h o
  | atomFmin h o | atomFmax h o | atomInc h o => exact spells_putFull .op19 rfl
  | atomsAdd h o | atomsMin h o | atomsMax h o | atomsMinu h o | atomsMaxu h o | atomsAnd h o | atomsOr h o | atomsXor h o | atomsXchg h o
  | atomsFadd h o | atomsFmin h o | atomsFmax h o | atomsInc h o => exact spells_putFull .op1A rfl
  | fence h o | check h o | wset h o | bankcfg h o => exact spells_putFull .op1B rfl
  | cgetb h o | cgetl h o | cgetp h o | cgetc h o | cgetk h o | cgett h o | cnarrow h o | candp h o | cseal h o | cunseal h o | cmov h o | cclrt h o
  | ctest h o | csend h o | crecv h o | csetu h o => exact spells_putFull .op20 rfl
  | tdef h o | twait h o | tstat h o | tfree h o | tgive h o => exact spells_putFull .op28 rfl
  | tfill h o | tdrain h o => exact spells_putFull .op28 (congrArg some (if_neg (ne_one_of_beq_zero hflag)))
  | tfillResume h o | tdrainResume h o => exact spells_putFull .op28 (congrArg some (if_pos hflag))
  | fstart h o | fpush h o | fpop h o | fwait h o | fstop h o => exact spells_putFull .op29 rfl
  | cmdrun h o | cmdpoll h o | rkwait h o | rkstat h o | stmr h o | mrwait h o => exact spells_putFull .op2A rfl
  | rkmark h o | rkpass h o => exact spells_putFull .op2A (congrArg some (if_neg (ne_one_of_beq_zero hflag)))
  | rkmarkRelocate h o | rkpassRelocate h o => exact spells_putFull .op2A (congrArg some (if_pos hflag))
  | mma h o | accalloc h o | accfree h o | acczero h o | accrd h o | accwr h o | accst h o | bht h o | tqnt h o | ttrn h o =>
    exact spells_putFull .op30 rfl
  | srr h o | srw h o | trap h o | eret h o | brk h o | perf h o | sleep h o | parkq h o => exact spells_putFull .op3C rfl
  | pairWord x y z =>
    have hpair := Spells.pair (putPair_k x y z)
    rwa [readSlot_putPair_first, readSlot_putPair_second, putPair_z] at hpair
  | _ => cases hword

/-- Settles O54: a word of the map spells its instruction (`spells_encode`), and R72 rejects nothing of it. -/
theorem decodeEncode : Obligations.DecodeEncode := by
  intro regs preds i hword hwf
  obtain ⟨hflag, hchecks⟩ := Bool.and_eq_true_iff.1 hwf
  unfold decode
  rw [parse_eq_ok_of_spells (spells_encode hword hflag)]
  simp only [Option.isNone_iff_eq_none.1 hchecks]

/-- Settles O55: a word that reads as an instruction spells it, and the fields it was read from are the whole word. -/
theorem encodeDecode : Obligations.EncodeDecode :=
  fun _ _ hw => encode_of_spells (spells_of_parse_eq_ok hw)

/-- Settles O56: each word's fields are read and pass the checks of R72 by evaluation; the last has no listed opcode. -/
theorem decodeWords : Obligations.DecodeWords := by
  refine ⟨?_, ?_, ?_, ?_, ?_, ?_⟩ <;> decide

end Sys2Proof

namespace Sys2Proof.Machine

/-! ### Integer words -/

section
variable {i : Instr} {h : Guard}

/-- A word that `word2` gives the operation of completes with it on its two sources. -/
theorem word2_writes {o : Tri} (f : Nat → Word → Word → Word) (hi : ∀ s, exec i s = word2 h o f s) :
    wordWrites i (cfg h) (fun _ => True) fun e => wrReg o.d (f o.t.toNat (src e o.a o.t.toNat) (src e o.b o.t.toNat)) :=
  computeOk_writes hi

/-- A word that `word1` gives the operation of completes with it on its one source. -/
theorem word1_writes {o : Tri} (f : Nat → Word → Word) (hi : ∀ s, exec i s = word1 h o f s) :
    wordWrites i (cfg h) (fun _ => True) fun e => wrReg o.d (f o.t.toNat (src e o.a o.t.toNat)) :=
  computeOk_writes hi

/-- A word that `wordImm` gives the operation of completes with it on A and the sign-extended immediate (R96). -/
theorem wordImm_writes {o : I12} (f : Word → Word → Word) (hi : ∀ s, exec i s = wordImm h o f s) :
    wordWrites i (cfg h) (fun _ => True) fun e => wrReg o.d (f (src e o.a 0) (o.imm.signExtend 32)) :=
  computeOk_writes hi

end

/-- LIH's constant, twelve zero bits below the immediate, is the immediate times 2^12 (R97). -/
theorem lih_constant (imm : BitVec 20) : (imm ++ 0#12 : Word) = BitVec.ofNat 32 (imm.toNat * 4096) := by
  apply BitVec.eq_of_toNat_eq
  have := imm.isLt
  rw [BitVec.toNat_append, BitVec.toNat_ofNat, BitVec.toNat_ofNat, Nat.shiftLeft_eq, Nat.zero_mod, Nat.or_zero]
  omega

theorem lih_writes (h : Guard) (u : I20) :
    wordWrites (.lih h u) (cfg h) (fun _ => True) fun _ => wrReg u.d (BitVec.ofNat 32 (u.imm.toNat * 4096)) := by
  rw [← lih_constant]
  exact computeOk_writes fun _ => rfl

/-- Settles O1: each word computes in its lanes by `word2`, by `word1`, by `wordImm` or, where a source is a predicate, the destination or of another type,
by its own operands. -/
theorem integerWordsComplete : Obligations.IntegerWordsComplete := by
  intro h o m u
  exact ⟨
    word2_writes opAdd fun _ => rfl, word2_writes opSub fun _ => rfl, word2_writes opMul fun _ => rfl,
    word2_writes opMulh fun _ => rfl, word2_writes opMulhu fun _ => rfl,
    computeOk_writes fun _ => rfl,
    word2_writes (fun _ a b => a &&& b) fun _ => rfl, word2_writes (fun _ a b => a ||| b) fun _ => rfl,
    word2_writes (fun _ a b => a ^^^ b) fun _ => rfl, word2_writes (fun _ a b => a &&& ~~~b) fun _ => rfl,
    word2_writes (fun _ a b => a ||| ~~~b) fun _ => rfl,
    word2_writes opShl fun _ => rfl, word2_writes opShr fun _ => rfl, word2_writes opSar fun _ => rfl,
    word2_writes (fun _ a b => a.rotateLeft (b.toNat % 32)) fun _ => rfl,
    computeOk_writes fun _ => rfl,
    word2_writes opMin fun _ => rfl, word2_writes opMax fun _ => rfl,
    word1_writes opAbs fun _ => rfl, word1_writes (fun _ => opClz) fun _ => rfl, word1_writes (fun _ => opPopc) fun _ => rfl,
    word1_writes (fun _ => opBrev) fun _ => rfl,
    computeOk_writes fun _ => rfl, computeOk_writes fun _ => rfl,
    word2_writes opDiv fun _ => rfl, word2_writes opRem fun _ => rfl,
    computeOk_writes fun _ => rfl, computeOk_writes fun _ => rfl, computeOk_writes fun _ => rfl, computeOk_writes fun _ => rfl,
    computeOk_writes fun _ => rfl, computeOk_writes fun _ => rfl,
    wordImm_writes (fun a v => a + v) fun _ => rfl, wordImm_writes (fun a v => a &&& v) fun _ => rfl,
    wordImm_writes (fun a v => a ||| v) fun _ => rfl, wordImm_writes (fun a v => a ^^^ v) fun _ => rfl,
    wordImm_writes (opShl 0) fun _ => rfl, wordImm_writes (opShr 0) fun _ => rfl, wordImm_writes (opSar 0) fun _ => rfl,
    wordImm_writes (fun a v => a * v) fun _ => rfl,
    lih_writes h u⟩

end Sys2Proof.Machine
end

section
/-! Predicate words, conversions, dot products and pair words: what they write in the lanes they take effect in (R98 to R102, R106 to R112, R116, R117). -/

namespace Sys2Proof.Machine

/-! ### Predicate words -/

/-- Settles O3: no PRED word has a fault of its own, so each completes by `computeOk_writes` with the predicates, flags or register that its lane computes. -/
theorem predicateWordsComplete : Obligations.PredicateWordsComplete := by
  intro h o
  exact ⟨computeOk_writes fun _ => rfl, computeOk_writes fun _ => rfl, computeOk_writes fun _ => rfl,
    computeOk_writes fun _ => rfl, computeOk_writes fun _ => rfl, computeOk_writes fun _ => rfl⟩

/-! ### Conversions, dot products and pair words -/

section
variable {i : Instr} {h : Guard} {o : Tri}

/-- Where no element traps (R46), a word that converts completes: it writes what it makes of the results, and the flags of all its elements. -/
theorem convWord_writes (k : Nat) (from_ : Env → List Nat) (to_ : Env → List Nat → Wr) (hi : ∀ s, exec i s = convWord h o k from_ to_ s)
    (out : Env → List Nat × Word) :
    wordWrites i (cfg h) (fun e => convertAll (stype o) o.t.toNat (rmodeOf o) (policyOf o) (frmFTZ e.th.spr.frm) k (from_ e) = .ok (out e))
      fun e => wrFlags (to_ e (out e).1) (out e).2 :=
  compute_writes hi rfl rfl fun e hconv => by simp only [hconv]

/-- An integer dot product word completes with the dot product of its operands and accumulator (R111). -/
theorem dotIntWord_writes (hi : ∀ s, exec i s = dotIntWord h o s) :
    wordWrites i (cfg h) (fun _ => True) fun e => wrReg o.d (dotInt o.t.toNat (src e o.a o.t.toNat) (src e o.b o.t.toNat) (src e o.c 0)) :=
  computeOk_writes hi

/-- A floating-point dot product word completes by `sr.frm`, its accumulator read as F32 (R112). -/
theorem dotFloatWord_writes (hi : ∀ s, exec i s = dotFloatWord h o s) :
    wordWrites i (cfg h) (fun _ => True) fun e =>
      let r := dotFloat o.t.toNat (frmRM e.th.spr.frm) (frmFTZ e.th.spr.frm) (src e o.a o.t.toNat) (src e o.b o.t.toNat) (src e o.c 2)
      wrFlags (wrReg o.d (BitVec.ofNat 32 r.1)) r.2 :=
  computeOk_writes hi

end

/-- A pair word has no guard, and writes what both slots make of the operands before either writes (R117). -/
theorem pairWord_writes (x y : Slot) (z : BitVec 1) :
    wordWrites (.pairWord x y z) (cfg { pn := 0, pg := 63 }) (fun _ => True) fun e => wrBoth (slotWr e x) (slotWr e y) :=
  computeOk_writes fun _ => rfl

/-- Settles O5: CVT and the packs convert by `convWord`, and the other words have no fault of their own. -/
theorem conversionWordsComplete : Obligations.ConversionWordsComplete := by
  intro h o x y z
  refine ⟨convWord_writes _ _ _ fun _ => rfl, convWord_writes _ _ _ fun _ => rfl,
    convWord_writes _ _ (fun e l => wrReg o.d ((readCode e o.d.toNat).extractLsb' 16 16 ++ (packElems 8 l).extractLsb' 0 16)) fun _ => rfl,
    convWord_writes _ _ (fun e l => wrReg o.d ((packElems 8 l).extractLsb' 0 16 ++ (readCode e o.d.toNat).extractLsb' 0 16)) fun _ => rfl,
    convWord_writes _ _ _ fun _ => rfl, computeOk_writes fun _ => rfl, ?dotInt, ?dotFloat, pairWord_writes x y z⟩
  case dotInt =>
    simp only [List.forall_mem_cons]
    exact ⟨dotIntWord_writes fun _ => rfl, dotIntWord_writes fun _ => rfl, dotIntWord_writes fun _ => rfl, List.forall_mem_nil _⟩
  case dotFloat =>
    simp only [List.forall_mem_cons]
    exact ⟨dotFloatWord_writes fun _ => rfl, dotFloatWord_writes fun _ => rfl, dotFloatWord_writes fun _ => rfl, List.forall_mem_nil _⟩

end Sys2Proof.Machine
end

section
/-! A word of one lane as an equation of states: the tables it writes as lists, one lane's result as one update of its thread, a lane that parks alone (R377 to
R381), and a lane that waited and goes on (R179, R180). -/

namespace Sys2Proof

/-! ### Tables as lists -/

theorem Tab.mem_of_at? {α : Type} {t : Tab α} {k : Nat} {v : α} (h : Tab.at? t k = some v) : (k, v) ∈ t := by
  induction t with
  | nil => cases h
  | cons e t ih =>
    simp only [Tab.at?] at h
    split at h
    · next hk => cases h; simp [← hk]
    · exact List.mem_cons_of_mem _ (ih h)

theorem Tab.at?_of_mem {α : Type} {t : Tab α} {k : Nat} {v : α} (hn : (t.map (·.1)).Nodup) (h : (k, v) ∈ t) : Tab.at? t k = some v := by
  induction t with
  | nil => cases h
  | cons e t ih =>
    simp only [List.map_cons, List.nodup_cons] at hn
    rcases List.mem_cons.1 h with rfl | ht
    · simp [Tab.at?]
    · have hk : e.1 ≠ k := fun hk => hn.1 (List.mem_map.2 ⟨_, ht, hk.symm⟩)
      simp [Tab.at?, hk, ih hn.2 ht]

theorem Tab.drop_eq_filter {α : Type} (t : Tab α) (k : Nat) : Tab.drop t k = t.filter fun e => decide (e.1 ≠ k) := by
  induction t with
  | nil => rfl
  | cons e t ih => by_cases h : e.1 = k <;> simp [Tab.drop, h, ih]

theorem Tab.insert_perm {α : Type} (t : Tab α) (k : Nat) (v : α) : (Tab.insert t k v).Perm ((k, v) :: t) := by
  induction t with
  | nil => exact .refl _
  | cons e t ih =>
    simp only [Tab.insert]
    split
    · exact (ih.cons e).trans (.swap _ _ _)
    · exact .refl _

/-- A write puts its pair in the place of every entry of its key. -/
theorem Tab.put_perm {α : Type} (t : Tab α) (k : Nat) (v : α) : (Tab.put t k v).Perm ((k, v) :: t.filter fun e => decide (e.1 ≠ k)) := by
  rw [← Tab.drop_eq_filter]
  exact Tab.insert_perm _ _ _

theorem Tab.mem_put {α : Type} {t : Tab α} {k : Nat} {v : α} {e : Nat × α} : e ∈ Tab.put t k v ↔ e = (k, v) ∨ e ∈ t ∧ e.1 ≠ k := by
  rw [(Tab.put_perm t k v).mem_iff]
  simp

theorem Tab.nodup_put {α : Type} {t : Tab α} (hn : (t.map (·.1)).Nodup) (k : Nat) (v : α) : ((Tab.put t k v).map (·.1)).Nodup := by
  rw [((Tab.put_perm t k v).map _).nodup_iff, List.map_cons, List.nodup_cons]
  exact ⟨by simp, hn.sublist (List.filter_sublist.map _)⟩

theorem Tab.drop_put {α : Type} (t : Tab α) (k : Nat) (v : α) : Tab.drop (Tab.put t k v) k = Tab.drop t k := by
  have hi : ∀ t : Tab α, Tab.drop (Tab.insert t k v) k = Tab.drop t k := by
    intro t
    induction t with
    | nil => simp [Tab.insert, Tab.drop]
    | cons e t ih =>
      by_cases h : e.1 < k
      · have hk : e.1 ≠ k := by omega
        simp [Tab.insert, Tab.drop, h, hk, ih]
      · simp [Tab.insert, Tab.drop, h]
  have hd : Tab.drop (Tab.drop t k) k = Tab.drop t k := by simp [Tab.drop_eq_filter, List.filter_filter]
  rw [Tab.put, hi, hd]

/-- The second of two writes of a key replaces the first. -/
theorem Tab.put_put {α : Type} (t : Tab α) (k : Nat) (v w : α) : Tab.put (Tab.put t k v) k w = Tab.put t k w := by
  rw [Tab.put, Tab.drop_put, Tab.put]

namespace Machine

/-! ### One thread replaced -/

variable {s t u : State} {sh ln : Nat} {sf : Sheaf} {th new : Thread}

theorem thread?_of_sheaf? (hs : sheaf? s sh = some sf) : thread? s sh ln = Tab.at? sf.lanes ln := by
  unfold thread?
  rw [hs]

theorem thread?_congr (h : s.sheaves = t.sheaves) (sh ln : Nat) : thread? s sh ln = thread? t sh ln := by
  unfold thread? sheaf?
  rw [h]

/-- The update of a thread as a write of its sheaf. -/
theorem updThread_eq_setSheaf (hs : sheaf? s sh = some sf) (hl : Tab.at? sf.lanes ln = some th) (f : Thread → Thread) :
    updThread s sh ln f = setSheaf s sh { sf with lanes := Tab.put sf.lanes ln (f th) } := by
  simp only [updThread, updSheaf, hs, hl]

theorem updSheaf_eq_setSheaf (hs : sheaf? s sh = some sf) (f : Sheaf → Sheaf) : updSheaf s sh f = setSheaf s sh (f sf) := by
  simp only [updSheaf, hs]

theorem setSheaf_setSheaf (s : State) (sh : Nat) (x y : Sheaf) : setSheaf (setSheaf s sh x) sh y = setSheaf s sh y := by
  simp only [setSheaf, Tab.put_put]

theorem updThread_updThread (s : State) (sh ln : Nat) (f g : Thread → Thread) :
    updThread (updThread s sh ln f) sh ln g = updThread s sh ln fun th => g (f th) := by
  cases hs : sheaf? s sh with
  | none => simp [updThread, updSheaf, hs]
  | some sf =>
    cases hl : Tab.at? sf.lanes ln with
    | none => simp [updThread_eq, updSheaf_eq_setSheaf, hs, laneChange, hl, setSheaf_setSheaf]
    | some th =>
      rw [updThread_eq_setSheaf hs hl, updThread_eq_setSheaf hs hl, updThread_eq_setSheaf (sheaf?_setSheaf_same _ _ _) (Tab.at?_put_same _ _ _),
        setSheaf_setSheaf, Tab.put_put]

/-- An update of a thread that stands in a lane is a write of its value. -/
theorem updThread_at (h : thread? s sh ln = some th) {f : Thread → Thread} (hf : f th = new) : updThread s sh ln f = updThread s sh ln fun _ => new := by
  unfold thread? at h
  cases hs : sheaf? s sh with
  | none => rw [hs] at h; cases h
  | some sf =>
    rw [hs] at h
    rw [updThread_eq_setSheaf hs h, updThread_eq_setSheaf hs h, hf]

theorem updThread_frame (s : State) (sh ln : Nat) (f : Thread → Thread) : updThread s sh ln f = { s with sheaves := (updThread s sh ln f).sheaves } := by
  unfold updThread updSheaf
  split <;> rfl

theorem sheaf?_updThread_skel (s : State) (sh ln : Nat) (f : Thread → Thread) (j : Nat) :
    (sheaf? (updThread s sh ln f) j).map (fun sf => { sf with lanes := [] }) = (sheaf? s j).map fun sf => { sf with lanes := [] } := by
  rw [updThread_eq, sheaf?_updSheaf]
  split
  · simp [Option.map_map, Function.comp_def, laneChange_skel]
  · rfl

/-- Two sheaves that agree beside their lanes agree beside lanes and scalars, and in the scalars. -/
theorem skel_scalars {a b : Option Sheaf} (h : a.map (fun sf => { sf with lanes := [] }) = b.map fun sf => { sf with lanes := [] }) :
    a.map (fun sf => { sf with lanes := [], s := [] }) = b.map (fun sf => { sf with lanes := [], s := [] }) ∧
      a.map (fun sf => sf.s) = b.map fun sf => sf.s := by
  have h1 := congrArg (fun o : Option Sheaf => o.map fun sf => { sf with s := [] }) h
  have h2 := congrArg (fun o : Option Sheaf => o.map fun sf => sf.s) h
  simp only [Option.map_map, Function.comp_def] at h1 h2
  exact ⟨h1, h2⟩

theorem becomes_of_skel (ht : thread? t sh ln = some new) (hk : lanesKept s t sh ln)
    (hj : ∀ j, (sheaf? t j).map (fun sf => { sf with lanes := [] }) = (sheaf? s j).map fun sf => { sf with lanes := [] }) : becomes s t sh ln new :=
  ⟨ht, hk, fun j => (skel_scalars (hj j)).1, fun _ j => (skel_scalars (hj j)).2⟩

/-- A thread replaced: its lane became the new thread, and no other lane and nothing its sheaf shares changed. -/
theorem becomes_updThread (h : thread? s sh ln = some th) (new : Thread) : becomes s (updThread s sh ln fun _ => new) sh ln new :=
  becomes_of_skel (by rw [thread?_updThread_same, h]; rfl) (fun _ hy => thread?_updThread_other _ _ (Ne.symm hy)) fun j => sheaf?_updThread_skel _ _ _ _ j

/-- What became of a lane is a fact about the sheaves. -/
theorem becomes.congr {s' t' : State} (h : becomes s t sh ln new) (hs : s'.sheaves = s.sheaves) (ht : t'.sheaves = t.sheaves) : becomes s' t' sh ln new := by
  unfold becomes lanesKept sheavesKept scalarsKept thread? sheaf? at h ⊢
  rw [hs, ht]
  exact h

theorem becomes.trans {mid : Thread} (h : becomes s t sh ln mid) (h' : becomes t u sh ln new) : becomes s u sh ln new := by
  obtain ⟨-, h2, h3, h4⟩ := h
  obtain ⟨h1', h2', h3', h4'⟩ := h'
  exact ⟨h1', fun y hy => (h2' y hy).trans (h2 y hy), fun j => (h3' j).trans (h3 j), fun hw j => (h4' hw j).trans (h4 hw j)⟩

theorem becomes.goesPast {e : Env} {w : Wr} (h : becomes e.s t e.sh e.ln (retired e.th w)) : goesPast e t w := by
  obtain ⟨h1, h2, h3, h4⟩ := h
  exact ⟨h1, h2, h3, fun _ => h4 (by simp [wrNone])⟩

theorem becomes.goesOn {w : Wr} (h : becomes s t sh ln (retired { th with hold := none, word := none } w)) : goesOn s t sh ln th w := by
  obtain ⟨h1, h2, h3, h4⟩ := h
  exact ⟨h1, h2, h3, fun _ => h4 (by simp [wrNone])⟩

/-! ### One lane's result -/

@[simp] theorem soloEnv_s (s : State) (sh ln : Nat) (sf : Sheaf) (th : Thread) : (soloEnv s sh ln sf th).s = s := rfl
@[simp] theorem soloEnv_sh (s : State) (sh ln : Nat) (sf : Sheaf) (th : Thread) : (soloEnv s sh ln sf th).sh = sh := rfl
@[simp] theorem soloEnv_ln (s : State) (sh ln : Nat) (sf : Sheaf) (th : Thread) : (soloEnv s sh ln sf th).ln = ln := rfl
@[simp] theorem soloEnv_sf (s : State) (sh ln : Nat) (sf : Sheaf) (th : Thread) : (soloEnv s sh ln sf th).sf = sf := rfl
@[simp] theorem soloEnv_th (s : State) (sh ln : Nat) (sf : Sheaf) (th : Thread) : (soloEnv s sh ln sf th).th = th := rfl

/-- Outside runner launches every aligned word is in place (R16, R211). -/
theorem inPlace_next (hr : runnerOf s sf = none) (hp : th.pc.toNat % 8 = 0) : inPlace s sf th (th.pc + 8) = true := by
  simp [inPlace, hr, hp]

theorem settle_past {w : Wr} (hn : th.run = none) (hr : runnerOf s sf = none) (hp : th.pc.toNat % 8 = 0) : settle s sf th (.ok w) = .ok (retired th w) :=
  settle_ok (runForbids_noRun hn w) (inPlace_next hr hp)

/-- A result that faults nowhere and writes no register replaces its lane's thread and does nothing else. -/
theorem finishWord_eq {r : LaneRes} (hs : sheaf? s sh = some sf) (hl : Tab.at? sf.lanes ln = some th) (hq : r.quietly = true) (hr : (LaneWr r).regs = [])
    (hset : settle s sf th r = .ok new) : finishWord s [((sh, ln), r)] = updThread s sh ln fun _ => new := by
  have hstep : settleStep (s, []) ((sh, ln), r) = (updThread s sh ln fun _ => new, []) := by
    simp only [settleStep, hs, thread?_of_sheaf? hs, hl, hset]
    cases r with
    | exit => cases hq
    | repair => cases hq
    | fault f => cases hq
    | _ => rfl
  simp [finishWord, hstep, hr, parkAll]

theorem finishWord_fault {f : FaultInfo} (hs : sheaf? s sh = some sf) (hl : Tab.at? sf.lanes ln = some th) :
    finishWord s [((sh, ln), .fault f)] = parkLanes s sh [(ln, f)] := by
  have hstep : settleStep (s, []) ((sh, ln), .fault f) = (s, [(sh, ln, f)]) := by simp only [settleStep, hs, thread?_of_sheaf? hs, hl, settle, List.nil_append]
  simp [finishWord, hstep, parkAll, LaneWr, wrNone, List.eraseDups_cons]

section
variable {k : WordCfg} {f : Env → State → State × LaneRes} {r : LaneRes}

/-- A word in one lane whose group does not wait ends with the lane's result. -/
theorem runWord_solo (h : oneLane s k.guard sh ln sf th) (hk : k.handler = false) (he : entriesWait s k [(sh, ln)] = false)
    (hf : f (soloEnv s sh ln sf th) s = (t, r)) (hfo : t.focus = s.focus) (hw : resWaits r = false) :
    runWord k f s = { finishWord t [((sh, ln), r)] with focus := none } := by
  have hfresh : fresh t := fun g hg => fresh_one h g (hfo ▸ hg)
  rw [runWord_one k h hk he f (by rw [hf]; exact resStops_of_waits hw), hf]
  rw [endWord_fresh hfresh (by simpa using hw), List.append_nil]

/-- A word of one lane that only changes state outside the sheaves and lets the lane settle. -/
theorem runWord_solo_eq (h : oneLane s k.guard sh ln sf th) (hk : k.handler = false) (he : entriesWait s k [(sh, ln)] = false)
    (hf : f (soloEnv s sh ln sf th) s = (t, r)) (hfo : t.focus = s.focus) (hsh : t.sheaves = s.sheaves) (hq : r.quietly = true) (hw : resWaits r = false)
    (hr : (LaneWr r).regs = []) (hset : settle t sf th r = .ok new) : runWord k f s = { updThread t sh ln (fun _ => new) with focus := none } := by
  obtain ⟨-, -, hs, hl, -⟩ := id h
  rw [runWord_solo h hk he hf hfo hw, finishWord_eq (by unfold sheaf?; rw [hsh]; exact hs) hl hq hr hset]

end

end Machine

end Sys2Proof
end

section
/-! A lane that parks alone: its watch entries, its signal loads, its thread and its sub-sheaf (R241, R275, R377 to R381). -/

namespace Sys2Proof.Machine

variable {s t u : State} {sh ln : Nat} {sf : Sheaf} {th new : Thread}

/-! ### Signal loads given up (R241) -/

/-- A load of a signal that a lane has out (R241). -/
def ownSignal (sh ln : Nat) (r : Req) : Bool := decide (r.sh = sh) && decide (r.ln = ln) && signalWant r.want

theorem ownSignal_eq_true {r : Req} : ownSignal sh ln r = true ↔ r.sh = sh ∧ r.ln = ln ∧ signalWant r.want = true := by
  simp [ownSignal, and_assoc]

/-- What tells a peer that a lane waits no longer. -/
def signalEnd (r : Req) : Out := .peerEnd r.port (devOf r.addr) r.addr

theorem foldl_send (l : List Req) (o : Req → Out) (s : State) :
    l.foldl (fun s r => send s (o r)) s = { s with net := { s.net with out := s.net.out ++ l.map o } } := by
  induction l generalizing s with
  | nil => simp
  | cons r l ih => rw [List.foldl_cons, ih]; simp [send, updNet]

/-- The network without the signal loads of a lane. -/
def netWithoutSignals (n : Net) (sh ln : Nat) : Net :=
  { n with peerReqs := n.peerReqs.filter fun r => !ownSignal sh ln r, pcieReqs := n.pcieReqs.filter fun r => !ownSignal sh ln r,
           out := n.out ++ (n.peerReqs.filter (ownSignal sh ln)).map signalEnd }

theorem dropSig_eq (s : State) (sh ln : Nat) : dropSig s sh ln = { s with net := netWithoutSignals s.net sh ln } := by
  have hd : dropSig s sh ln = if s.net.peerReqs.any (ownSignal sh ln) || s.net.pcieReqs.any (ownSignal sh ln) then
        updNet ((s.net.peerReqs.filter (ownSignal sh ln)).foldl (fun s r => send s (signalEnd r)) s) fun n =>
          { n with peerReqs := n.peerReqs.filter fun r => !ownSignal sh ln r, pcieReqs := n.pcieReqs.filter fun r => !ownSignal sh ln r }
      else (s.net.peerReqs.filter (ownSignal sh ln)).foldl (fun s r => send s (signalEnd r)) s := rfl
  rw [hd, foldl_send]
  split
  · rfl
  · next h =>
    simp only [Bool.or_eq_true, not_or, Bool.not_eq_true, List.any_eq_false] at h
    have hp : s.net.peerReqs.filter (fun r => !ownSignal sh ln r) = s.net.peerReqs := List.filter_eq_self.2 fun r hr => by simpa using h.1 r hr
    have hq : s.net.pcieReqs.filter (fun r => !ownSignal sh ln r) = s.net.pcieReqs := List.filter_eq_self.2 fun r hr => by simpa using h.2 r hr
    rw [netWithoutSignals, hp, hq]

theorem signalsGivenUp_of_net (h : t.net = netWithoutSignals s.net sh ln) : signalsGivenUp s t sh ln := by
  have hmem : ∀ (l : List Req) (r : Req),
      r ∈ l.filter (fun r => !ownSignal sh ln r) ↔ r ∈ l ∧ ¬(r.sh = sh ∧ r.ln = ln ∧ signalWant r.want = true) := by
    intro l r
    rw [← ownSignal_eq_true, List.mem_filter, Bool.not_eq_true', Bool.not_eq_true]
  refine ⟨by rw [h]; rfl, by rw [h]; exact hmem _, by rw [h]; exact hmem _, fun hn => ?_⟩
  have : s.net.peerReqs.filter (ownSignal sh ln) = [] := List.filter_eq_nil_iff.2 fun r hr hm => hn r hr (ownSignal_eq_true.1 hm)
  rw [h, netWithoutSignals, this]
  simp

/-! ### A lane that parks alone (R377 to R381) -/

theorem coreAt_watchFreeRun (s : State) (sh ln k : Nat) : coreAt (watchFreeRun s sh ln) k =
    { coreAt s k with watch := (coreAt s k).watch.filter fun w => !decide (k = coreOf sh ∧ w.sh = sh ∧ w.ln = ln ∧ w.inRun = true) } := by
  unfold watchFreeRun
  by_cases hk : k = coreOf sh
  · subst hk
    simp
  · rw [coreAt_updCore_other _ _ (Ne.symm hk)]
    simp [hk]

/-- The state as a parking lane leaves it beside its thread and its sheaf: no watch entry of its run, no signal load of its own. -/
def parkCleared (s : State) (sh ln : Nat) : State := { watchFreeRun s sh ln with net := netWithoutSignals s.net sh ln }

/-- The sub-sheaf that a lane parks in alone. -/
def loneSub (ln : Nat) (th : Thread) : Sub := { mask := BitVec.ofNat 32 (2 ^ ln), savedCode := th.code, inHandler := false }

/-- A fault outside handler mode and runs: the lane's watch entries and signal loads go, its thread is as the fault leaves it, and its sheaf has one sub-sheaf
more. -/
theorem parkLanes_one {f : FaultInfo} (hs : sheaf? s sh = some sf) (hl : Tab.at? sf.lanes ln = some th) (hr : th.run = none) (hp : th.park = none) :
    parkLanes s sh [(ln, f)] = setSheaf (parkCleared s sh ln) sh
      { sf with lanes := Tab.put sf.lanes ln { faultedThread th f with park := some { sub := freeSub sf, inHandler := false } },
                subs := Tab.put sf.subs (freeSub sf) (loneSub ln th) } := by
  have hf : lateFirst th f = f := by simp [lateFirst, hr]
  have hd : dropSig (watchFreeRun s sh ln) sh ln = parkCleared s sh ln := dropSig_eq _ _ _
  have hs' : sheaf? (parkCleared s sh ln) sh = some sf := hs
  simp [parkLanes, hs, thread?_of_sheaf? hs, hl, hf, hp, maskOf, loneSub, hd, updThread_eq_setSheaf hs' hl, updSheaf_eq_setSheaf, setSheaf_setSheaf]

/-- What a fault of the device reports outside runs is its cause, its reason and its address (R377 to R380). -/
theorem faultedThread_mkFault (hr : th.run = none) (sub : Nat) (cause reason : Byte) (addr : Nat) :
    { faultedThread th (mkFault cause reason addr) with park := some { sub := sub, inHandler := false } } =
      parkedWith th sub cause.toNat reason.toNat addr th.pc := by
  have hinfo : finfoOf (mkFault cause reason addr) 0 = BitVec.ofNat 32 reason.toNat := by
    apply BitVec.eq_of_toNat_eq
    have := reason.isLt
    simp only [finfoOf, mkFault, BitVec.toNat_append, BitVec.toNat_ofNat]
    simp
    omega
  have hd : discardRun th = { th with t := [] } := by simp [discardRun, hr]
  have hw : widx th = 0 := by simp [widx, hr]
  have hc : cause.setWidth 32 = BitVec.ofNat 32 cause.toNat := BitVec.eq_of_toNat_eq (by simp)
  have hpos : (mkFault cause reason addr).pos = none := rfl
  simp only [faultedThread, hr, hd, hw, hpos, Option.getD_none, hinfo, parkedWith]
  simp only [mkFault, hc, Bool.false_eq_true, if_false]

/-- A lane that faults alone outside handler mode and runs parks (R381), and nothing but its sheaf, its core's watch table and its signal loads changes. -/
theorem parks_parkLanes (cause reason : Byte) (addr : Nat) (hs : sheaf? s sh = some sf) (hl : Tab.at? sf.lanes ln = some th) (hr : th.run = none)
    (hp : th.park = none) : parks s (parkLanes s sh [(ln, mkFault cause reason addr)]) sh ln sf th cause.toNat reason.toNat addr th.pc := by
  rw [parkLanes_one hs hl hr hp, faultedThread_mkFault hr]
  refine ⟨?_, fun y hy => ?_, ?_, coreAt_watchFreeRun s sh ln, signalsGivenUp_of_net rfl⟩
  · rw [thread?_of_sheaf? (sheaf?_setSheaf_same _ _ _), Tab.at?_put_same]
    rfl
  · unfold thread?
    by_cases hj : sh = y.1
    · subst hj
      rw [sheaf?_setSheaf_same, hs]
      exact Tab.at?_put_other _ _ fun hk => hy (Prod.ext rfl hk.symm)
    · rw [sheaf?_setSheaf_other _ _ hj]
      rfl
  · rw [sheaf?_setSheaf_same]
    rfl

end Sys2Proof.Machine
end

section
/-! Lanes that waited and go on past their words, one (`becomes_resume`) or several together (`foldl_resume`) (R16, R179, R180). -/

namespace Sys2Proof.Machine

variable {s t u : State} {sh ln : Nat} {sf : Sheaf} {th new : Thread}

/-! ### A lane that waited goes on (R179, R180) -/

/-- A state that differs from another in the lanes of some sheaves alone, and lists no number twice where that lists none. -/
def lanesOnly (p : Nat → Prop) (s t : State) : Prop :=
  t = { s with sheaves := t.sheaves } ∧ (∀ j, (sheaf? t j).map (fun sf => { sf with lanes := [] }) = (sheaf? s j).map fun sf => { sf with lanes := [] }) ∧
    (∀ j, ¬p j → sheaf? t j = sheaf? s j) ∧ (tidy s → tidy t)

variable {p q : Nat → Prop}

theorem lanesOnly_refl (p : Nat → Prop) (s : State) : lanesOnly p s s := ⟨rfl, fun _ => rfl, fun _ _ => rfl, id⟩

theorem lanesOnly.trans (h : lanesOnly p s t) (h' : lanesOnly p t u) : lanesOnly p s u := by
  obtain ⟨h1, h2, h3, h4⟩ := h
  obtain ⟨h1', h2', h3', h4'⟩ := h'
  exact ⟨by rw [h1', h1], fun j => (h2' j).trans (h2 j), fun j hj => (h3' j hj).trans (h3 j hj), h4' ∘ h4⟩

theorem lanesOnly.mono (h : lanesOnly p s t) (hpq : ∀ j, p j → q j) : lanesOnly q s t := by
  obtain ⟨h1, h2, h3, h4⟩ := h
  exact ⟨h1, h2, fun j hj => h3 j (hj ∘ hpq j), h4⟩

theorem tidy_setSheaf {x : Sheaf} (h : tidy s) (hx : (x.lanes.map (·.1)).Nodup) : tidy (setSheaf s sh x) := by
  refine ⟨Tab.nodup_put h.1 _ _, fun e he => ?_⟩
  rcases Tab.mem_put.1 he with rfl | ⟨he, -⟩
  · exact hx
  · exact h.2 e he

theorem lanesOnly_updThread (s : State) (sh ln : Nat) (f : Thread → Thread) : lanesOnly (· = sh) s (updThread s sh ln f) := by
  refine ⟨updThread_frame s sh ln f, sheaf?_updThread_skel s sh ln f, fun j hj => ?_, fun h => ?_⟩
  · rw [updThread_eq, sheaf?_updSheaf, if_neg (Ne.symm hj)]
  · cases hs : sheaf? s sh with
    | none => simpa [updThread, updSheaf, hs] using h
    | some sf =>
      rw [updThread_eq, updSheaf_eq_setSheaf hs]
      refine tidy_setSheaf h ?_
      have hsf := h.2 _ (Tab.mem_of_at? hs)
      unfold laneChange
      split
      · exact Tab.nodup_put hsf _ _
      · exact hsf

theorem lanesOnly.becomes (h : lanesOnly p s t) (ht : thread? t sh ln = some new) (hk : lanesKept s t sh ln) : becomes s t sh ln new := becomes_of_skel ht hk h.2.1

theorem lanesOnly.sheaf? (h : lanesOnly p s t) (hs : sheaf? s sh = some sf) : ∃ l, Machine.sheaf? t sh = some { sf with lanes := l } := by
  have hj := h.2.1 sh
  rw [hs] at hj
  cases hx : Machine.sheaf? t sh with
  | none => rw [hx] at hj; cases hj
  | some x =>
    rw [hx] at hj
    have hj := Option.some.inj hj
    exact ⟨x.lanes, by
      have := congrArg (fun y : Sheaf => { y with lanes := x.lanes }) hj
      exact congrArg some this⟩

theorem lanesOnly.runnerOf (h : lanesOnly p s t) (l : Tab Thread) : Machine.runnerOf t { sf with lanes := l } = Machine.runnerOf s sf := by
  rw [h.1]
  rfl

theorem applyWr_none (th : Thread) : applyWr th wrNone = th := by simp [applyWr, wrNone]

/-- A lane of a word that ends: its wait for the others is over. -/
def wordEnds (th : Thread) : Thread := { th with word := none, hold := if (partResult th.hold).isSome then none else th.hold }

theorem wordEnds_wordEnds (th : Thread) : wordEnds (wordEnds th) = wordEnds th := by
  have h0 : (partResult none).isSome = false := rfl
  unfold wordEnds
  by_cases h : (partResult th.hold).isSome = true <;> simp only [h, h0, if_true, if_false, Bool.false_eq_true]

theorem foldl_wordEnds (l : Tab Thread) (s : State) :
    lanesOnly (· = sh) s (l.foldl (fun s x => updThread s sh x.1 wordEnds) s) ∧
      ∀ j k, thread? (l.foldl (fun s x => updThread s sh x.1 wordEnds) s) j k =
        if j = sh ∧ k ∈ l.map (·.1) then (thread? s j k).map wordEnds else thread? s j k := by
  induction l generalizing s with
  | nil => exact ⟨lanesOnly_refl _ s, fun _ _ => by simp⟩
  | cons x l ih =>
    obtain ⟨ih1, ih2⟩ := ih (updThread s sh x.1 wordEnds)
    refine ⟨(lanesOnly_updThread s sh x.1 wordEnds).trans ih1, fun j k => ?_⟩
    rw [List.foldl_cons, ih2, thread?_updThread, List.map_cons]
    by_cases hj : j = sh
    · subst hj
      by_cases hk : k = x.1
      · subst hk
        cases thread? s j x.1 <;> simp [wordEnds_wordEnds]
      · simp only [hk, Ne.symm hk, and_false, if_false, List.mem_cons, false_or]
    · simp only [hj, Ne.symm hj, false_and, if_false]

/-- A thread gone on past its word (R16, R180). -/
def goneOn (th : Thread) : Thread := retired { th with hold := none, word := none } wrNone

theorem goneOn_noWord (hw : th.word = none) : goneOn th = retired { th with hold := none } wrNone := by
  unfold goneOn
  rw [← hw]

theorem goneOn_word (th : Thread) : (goneOn th).word = none := by
  unfold goneOn retired dropTemps
  split <;> rfl

/-- A hold with which a lane neither keeps its group's word open nor has a result of its own in it. -/
def waitsAlone (h : Option Hold) : Bool := !partOpen h && (partResult h).isNone

/-- The other lanes of the word that a lane stands at wait on their own, each under its number. -/
def matesWait (sf : Sheaf) (ln : Nat) (th : Thread) : Prop :=
  wordmates sf th fun k u => k ≠ ln → Tab.at? sf.lanes k = some u ∧ waitsAlone u.hold = true

theorem finishWord_past (hs : sheaf? s sh = some sf) (hl : Tab.at? sf.lanes ln = some th) (hn : th.run = none) (hr : runnerOf s sf = none)
    (hp : th.pc.toNat % 8 = 0) : finishWord s [((sh, ln), .ok wrNone)] = updThread s sh ln fun _ => retired th wrNone :=
  finishWord_eq hs hl rfl rfl (settle_past hn hr hp)

/-- The lane at which a word ends: it has done its part and writes no s-register. -/
def partDoneThread (id : Nat) (th : Thread) : Thread := { th with word := some id, hold := some (.done []) }

/-- The lanes of a word beside one lane whose part is done. -/
def wordMates (l : Tab Thread) (ln id : Nat) : Tab Thread := (l.filter fun e => decide (e.1 ≠ ln)).filter fun e => decide (e.2.word = some id)

theorem mem_wordMates {l : Tab Thread} {id : Nat} {e : Nat × Thread} : e ∈ wordMates l ln id ↔ e ∈ l ∧ e.1 ≠ ln ∧ e.2.word = some id := by
  simp only [wordMates, List.mem_filter, decide_eq_true_eq, and_assoc]

section
variable {id : Nat} {l : Tab Thread} (hs : sheaf? s sh = some sf) (hl : sf.lanes = Tab.put l ln (partDoneThread id th))
  (hm : ∀ e ∈ l, e.2.word = some id → e.1 ≠ ln → Tab.at? l e.1 = some e.2 ∧ waitsAlone e.2.hold = true)

include hl in
theorem wordLanes_perm : (wordLanes sf id).Perm ((ln, partDoneThread id th) :: wordMates l ln id) := by
  unfold wordLanes
  rw [hl]
  refine ((Tab.put_perm l ln (partDoneThread id th)).filter _).trans ?_
  rw [List.filter_cons_of_pos (by simp [partDoneThread])]
  exact .refl _

include hs hl hm

/-- A word whose last lane has done its part, while its other lanes wait on their own, ends with that lane's result. -/
theorem closeWord_eq :
    closeWord s sh id = finishWord ((wordLanes sf id).foldl (fun s x => updThread s sh x.1 wordEnds) s) [((sh, ln), .ok wrNone)] := by
  have hL := wordLanes_perm hl
  have hmates : ∀ e ∈ wordMates l ln id, partOpen e.2.hold = false ∧ partResult e.2.hold = none := by
    intro e he
    obtain ⟨he, hk, hw⟩ := mem_wordMates.1 he
    simpa [waitsAlone] using (hm e he hw hk).2
  have hopen : (wordLanes sf id).any (fun x => partOpen x.2.hold) = false := by
    rw [hL.any_eq, List.any_cons, Bool.or_eq_false_iff, List.any_eq_false]
    exact ⟨rfl, fun e he => by simp [(hmates e he).1]⟩
  have hres : (wordLanes sf id).filterMap (fun x => (partResult x.2.hold).map fun r => ((sh, x.1), r)) = [((sh, ln), .ok wrNone)] := by
    refine List.perm_singleton.1 ((hL.filterMap _).trans ?_)
    have hnil : (wordMates l ln id).filterMap (fun x => (partResult x.2.hold).map fun r => ((sh, x.1), r)) = [] :=
      List.filterMap_eq_nil_iff.2 fun e he => by rw [(hmates e he).2]; rfl
    simp only [List.filterMap_cons, hnil]
    exact .refl _
  unfold closeWord
  simp only [hs, hopen, Bool.false_eq_true, if_false]
  unfold finishParts
  rw [hres]
  rfl

theorem closeWord_last (hn : th.run = none) (hr : runnerOf s sf = none) (hp : th.pc.toNat % 8 = 0) :
    lanesOnly (· = sh) s (closeWord s sh id) ∧ thread? (closeWord s sh id) sh ln = some (goneOn th) ∧
      ∀ y, y ≠ (sh, ln) → thread? (closeWord s sh id) y.1 y.2 =
        (thread? s y.1 y.2).map fun u => if y.1 = sh ∧ u.word = some id then { u with word := none } else u := by
  rw [closeWord_eq hs hl hm]
  have hL := wordLanes_perm hl
  generalize wordLanes sf id = L at hL
  obtain ⟨hlo, hat⟩ := foldl_wordEnds (sh := sh) L s
  obtain ⟨l', hs'⟩ := hlo.sheaf? hs
  have hln : thread? (L.foldl (fun s x => updThread s sh x.1 wordEnds) s) sh ln = some { th with hold := none, word := none } := by
    rw [hat, if_pos ⟨rfl, (hL.map _).mem_iff.2 (List.mem_map_of_mem List.mem_cons_self)⟩, thread?_of_sheaf? hs, hl, Tab.at?_put_same]
    rfl
  rw [finishWord_past (th := { th with hold := none, word := none }) hs' (by rw [← thread?_of_sheaf? hs', hln]) hn (by rw [hlo.runnerOf]; exact hr) hp]
  refine ⟨hlo.trans (lanesOnly_updThread _ _ _ _), by rw [thread?_updThread_same, hln]; rfl, fun y hy => ?_⟩
  rw [thread?_updThread_other _ _ (Ne.symm hy), hat]
  by_cases hj : y.1 = sh
  · have hk : y.2 ≠ ln := fun hk => hy (Prod.ext hj hk)
    have hy : thread? s y.1 y.2 = Tab.at? l y.2 := by rw [hj, thread?_of_sheaf? hs, hl, Tab.at?_put_other _ _ (Ne.symm hk)]
    have hmem : y.2 ∈ L.map (·.1) ↔ ∃ e ∈ wordMates l ln id, e.1 = y.2 := by
      rw [(hL.map _).mem_iff, List.map_cons, List.mem_cons, List.mem_map]
      exact or_iff_right hk
    rw [hy]
    by_cases hmate : y.2 ∈ L.map (·.1)
    · obtain ⟨e, he, hey⟩ := hmem.1 hmate
      obtain ⟨he, hne, hw⟩ := mem_wordMates.1 he
      obtain ⟨hat, hwait⟩ := hm e he hw hne
      have hres : partResult e.2.hold = none := by simpa using (Bool.and_eq_true_iff.1 hwait).2
      rw [if_pos ⟨hj, hmate⟩, ← hey, hat]
      simp [wordEnds, hj, hw, hres]
    · rw [if_neg fun h => hmate h.2]
      cases hx : Tab.at? l y.2 with
      | none => rfl
      | some x =>
        have hw : x.word ≠ some id := fun hw => hmate (hmem.2 ⟨_, mem_wordMates.2 ⟨Tab.mem_of_at? hx, hk, hw⟩, rfl⟩)
        simp [hw]
  · simp [hj]

end

/-- A lane outside a word that its group waits for settles alone. -/
theorem resume_noWord (hth : thread? s sh ln = some th) (hw : th.word = none) :
    resume s sh ln wrNone = finishWord (updThread s sh ln fun _ => { th with hold := none }) [((sh, ln), .ok wrNone)] := by
  have hupd : (updThread s sh ln fun th => { th with hold := none }) = updThread s sh ln fun _ => { th with hold := none } := updThread_at hth rfl
  unfold resume resumeRes
  simp only [hth, hw, hupd]

/-- A lane of a word that its group waits for does its part, and the word ends if it was the last. -/
theorem resume_word {id : Nat} (hth : thread? s sh ln = some th) (hw : th.word = some id) (hn : th.run = none) :
    resume s sh ln wrNone = closeWord (updThread s sh ln fun _ => partDoneThread id th) sh id := by
  have hth1 : thread? (updThread s sh ln fun th => { th with hold := none }) sh ln = some { th with hold := none } := by rw [thread?_updThread_same, hth]; rfl
  have hpart : partDone id (updThread s sh ln fun th => { th with hold := none }) ((sh, ln), .ok wrNone) = updThread s sh ln fun _ => partDoneThread id th := by
    simp only [partDone, hth1, runForbids_noRun (th := { th with hold := none }) hn, Bool.false_eq_true, if_false, applyWr_none, updThread_updThread]
    rfl
  unfold resume resumeRes
  simp only [hth, hw, hpart]

/-- A lane that waited goes past its word; the lanes of a word that has begun are let go of it. -/
theorem resume_standing (h : standsAt s sh ln sf th) (hm : matesWait sf ln th) :
    lanesOnly (· = sh) s (resume s sh ln wrNone) ∧ thread? (resume s sh ln wrNone) sh ln = some (goneOn th) ∧
      ∀ y, y ≠ (sh, ln) → thread? (resume s sh ln wrNone) y.1 y.2 =
        (thread? s y.1 y.2).map fun u => if y.1 = sh ∧ th.word.isSome ∧ u.word = th.word then { u with word := none } else u := by
  obtain ⟨hs, hl, hn, hr, hp⟩ := h
  have hth : thread? s sh ln = some th := by rw [thread?_of_sheaf? hs, hl]
  cases hw : th.word with
  | none =>
    let x : Thread := { th with hold := none }
    have hlo := lanesOnly_updThread s sh ln fun _ => x
    obtain ⟨l, hs1⟩ := hlo.sheaf? hs
    have hth1 : thread? (updThread s sh ln fun _ => x) sh ln = some x := by rw [thread?_updThread_same, hth]; rfl
    rw [resume_noWord hth hw, finishWord_past (th := x) hs1 (by rw [← thread?_of_sheaf? hs1, hth1]) hn (by rw [hlo.runnerOf]; exact hr) hp, updThread_updThread]
    refine ⟨lanesOnly_updThread _ _ _ _, ?_, fun y hy => ?_⟩
    · rw [thread?_updThread_same, hth, goneOn_noWord hw]
      rfl
    · rw [thread?_updThread_other _ _ (Ne.symm hy)]
      simp
  | some id =>
    have hlo := lanesOnly_updThread s sh ln fun _ => partDoneThread id th
    have hs1 : sheaf? (updThread s sh ln fun _ => partDoneThread id th) sh = some { sf with lanes := Tab.put sf.lanes ln (partDoneThread id th) } := by
      rw [updThread_eq_setSheaf hs hl, sheaf?_setSheaf_same]
    rw [resume_word hth hw hn]
    obtain ⟨h1, h2, h3⟩ := closeWord_last hs1 rfl (fun e he hwe hne => hm id hw e he hwe hne) hn (by rw [hlo.runnerOf]; exact hr) hp
    refine ⟨hlo.trans h1, h2, fun y hy => ?_⟩
    rw [h3 y hy, thread?_updThread_other _ _ (Ne.symm hy)]
    simp

/-- A lane that stands alone at its word goes past it, and nothing else changes. -/
theorem becomes_resume (h : standing s sh ln sf th) :
    becomes s (resume s sh ln wrNone) sh ln (goneOn th) ∧ resume s sh ln wrNone = { s with sheaves := (resume s sh ln wrNone).sheaves } := by
  obtain ⟨hst, hm⟩ := h
  obtain ⟨hlo, hat, hother⟩ := resume_standing hst fun id hid e he hw hk => absurd (hm id hid e he hw) hk
  refine ⟨hlo.becomes hat fun y hy => ?_, hlo.1⟩
  rw [hother y hy]
  cases hyt : thread? s y.1 y.2 with
  | none => rfl
  | some u =>
    rw [Option.map_some, if_neg]
    rintro ⟨hj, hw, hu⟩
    obtain ⟨id, hid⟩ := Option.isSome_iff_exists.1 hw
    rw [hj, thread?_of_sheaf? hst.1] at hyt
    exact hy (Prod.ext hj (hm id hid (y.2, u) (Tab.mem_of_at? hyt) (hu.trans hid)))

/-! ### Lanes that go on together -/

/-- Each lane of a list stands at its word, and the lanes of a word that its group waits for are all in the list and wait on their own. -/
def allStand (s : State) (l : List (Nat × Nat)) : Prop :=
  ∀ x ∈ l, ∃ sf th, standsAt s x.1 x.2 sf th ∧ (th.word.isSome = true → tidy s) ∧ wordmates sf th fun k u => (x.1, k) ∈ l ∧ waitsAlone u.hold = true

theorem matesWait_of_allStand {l : List (Nat × Nat)} (hs : sheaf? s sh = some sf) (ht : th.word.isSome = true → tidy s)
    (hm : wordmates sf th fun k u => (sh, k) ∈ l ∧ waitsAlone u.hold = true) : matesWait sf ln th := by
  intro id hid e he hw _
  have htidy := ht (Option.isSome_of_mem hid)
  exact ⟨Tab.at?_of_mem (htidy.2 _ (Tab.mem_of_at? hs)) he, (hm id hid e he hw).2⟩

/-- Once the first of some lanes has gone on, the others stand as before. -/
theorem allStand_resume {x : Nat × Nat} {l : List (Nat × Nat)} (h : allStand s (x :: l)) (hx : x ∉ l) : allStand (resume s x.1 x.2 wrNone) l := by
  obtain ⟨sf, th, hst, ht, hm⟩ := h x List.mem_cons_self
  obtain ⟨hlo, hat, hother⟩ := resume_standing hst (matesWait_of_allStand hst.1 ht hm)
  intro y hy
  have hyx : y ≠ x := ne_of_mem_of_not_mem hy hx
  obtain ⟨sfy, thy, ⟨hs, hl, hn, hr, hp⟩, hty, hmy⟩ := h y (List.mem_cons_of_mem _ hy)
  obtain ⟨ly, hs'⟩ := hlo.sheaf? hs
  have hty' := hother y hyx
  rw [thread?_of_sheaf? hs', thread?_of_sheaf? hs, hl, Option.map_some] at hty'
  refine ⟨_, _, ⟨hs', hty', ?_, (hlo.runnerOf _).trans hr, ?_⟩, fun hw => ?_, fun id hid e he hw => ?_⟩
  · split <;> exact hn
  · split <;> exact hp
  · split at hw
    · cases hw
    · exact hlo.2.2.2 (hty hw)
  · split at hid
    · cases hid
    · have htidy := hlo.2.2.2 (hty (Option.isSome_of_mem hid))
      have hte : thread? (resume s x.1 x.2 wrNone) y.1 e.1 = some e.2 := by
        rw [thread?_of_sheaf? hs']
        exact Tab.at?_of_mem (htidy.2 _ (Tab.mem_of_at? hs')) he
      by_cases hex : (y.1, e.1) = x
      · rw [← hex] at hat hte
        rw [hat] at hte
        rw [← Option.some.inj hte, goneOn_word] at hw
        cases hw
      · rw [hother _ hex] at hte
        obtain ⟨u, hu, heu⟩ := Option.map_eq_some_iff.1 hte
        split at heu
        · rw [← heu] at hw
          cases hw
        · subst heu
          obtain ⟨hin, hwait⟩ := hmy id hid (e.1, e.2) (Tab.mem_of_at? (by rw [← thread?_of_sheaf? hs]; exact hu)) hw
          exact ⟨(List.mem_cons.1 hin).resolve_left hex, hwait⟩

/-- Lanes that go on together: each is past its word, and no other lane has changed. -/
theorem foldl_resume {l : List (Nat × Nat)} (hl : l.Nodup) (h : allStand s l) :
    lanesOnly (fun j => ∃ x ∈ l, x.1 = j) s (l.foldl (fun s x => resume s x.1 x.2 wrNone) s) ∧
      (∀ x ∈ l, thread? (l.foldl (fun s x => resume s x.1 x.2 wrNone) s) x.1 x.2 = (thread? s x.1 x.2).map goneOn) ∧
      ∀ y, y ∉ l → thread? (l.foldl (fun s x => resume s x.1 x.2 wrNone) s) y.1 y.2 = thread? s y.1 y.2 := by
  induction l generalizing s with
  | nil => exact ⟨lanesOnly_refl _ _, by simp, fun _ _ => rfl⟩
  | cons x l ih =>
    obtain ⟨hx, hl⟩ := List.nodup_cons.1 hl
    obtain ⟨sf, th, hst, ht, hm⟩ := h x List.mem_cons_self
    obtain ⟨hlo, hat, hother⟩ := resume_standing hst (matesWait_of_allStand hst.1 ht hm)
    obtain ⟨ih1, ih2, ih3⟩ := ih hl (allStand_resume h hx)
    rw [List.foldl_cons]
    refine ⟨(hlo.mono fun j hj => ⟨x, by simp, hj.symm⟩).trans (ih1.mono fun j ⟨y, hy, hj⟩ => ⟨y, by simp [hy], hj⟩), fun y hy => ?_, fun y hy => ?_⟩
    · rcases List.mem_cons.1 hy with rfl | hy
      · rw [ih3 _ hx, hat, thread?_of_sheaf? hst.1, hst.2.1]
        rfl
      · rw [ih2 y hy, hother y (ne_of_mem_of_not_mem hy hx), Option.map_map]
        congr 1
        funext u
        simp only [Function.comp_apply]
        split <;> rfl
    · simp only [List.mem_cons, not_or] at hy
      rw [ih3 y hy.2, hother y hy.1]
      cases hyt : thread? s y.1 y.2 with
      | none => rfl
      | some u =>
        rw [Option.map_some, if_neg]
        rintro ⟨hj, hw, hu⟩
        obtain ⟨id, hid⟩ := Option.isSome_iff_exists.1 hw
        rw [hj, thread?_of_sheaf? hst.1] at hyt
        have hin := (hm id hid (y.2, u) (Tab.mem_of_at? hyt) (hu.trans hid)).1
        rw [← hj] at hin
        exact (List.mem_cons.1 hin).elim hy.1 hy.2

end Sys2Proof.Machine
end

section
/-! The rejoin words (R188, R189). -/

namespace Sys2Proof.Machine

variable {s t u : State} {sh ln : Nat} {sf : Sheaf} {th new : Thread}

theorem getLsbD_ofNat_two_pow (j k : Nat) : (BitVec.ofNat 32 (2 ^ j)).getLsbD k = (decide (k < 32) && decide (j = k)) := by
  rw [BitVec.getLsbD_ofNat, Nat.testBit_two_pow]

theorem getLsbD_maskOf (l : List Nat) (k : Nat) : (maskOf l).getLsbD k = (decide (k < 32) && decide (k ∈ l)) := by
  have hfold : ∀ (l : List Nat) (m : Word),
      (l.foldl (fun m k => m ||| BitVec.ofNat 32 (2 ^ k)) m).getLsbD k = (m.getLsbD k || (decide (k < 32) && decide (k ∈ l))) := by
    intro l
    induction l with
    | nil => simp
    | cons j l ih =>
      intro m
      rw [List.foldl_cons, ih, BitVec.getLsbD_or, getLsbD_ofNat_two_pow, Bool.or_assoc, ← Bool.and_or_distrib_left]
      simp only [List.mem_cons, Bool.decide_or, eq_comm]
  rw [maskOf, hfold]
  simp

/-- The lanes of a gang are those with its first lane (R176). -/
theorem mem_gang {w ln k : Nat} (hw : 0 < w) (hk : k < 32) :
    (∃ i < if 32 ≤ w then 32 else w, gangBase w ln + i = k) ↔ gangBase w k = gangBase w ln := by
  unfold gangBase
  by_cases h : 32 ≤ w
  · simp [h, hk]
  · simp only [h, if_false]
    constructor
    · rintro ⟨i, hi, rfl⟩
      have : (ln / w * w + i) / w = ln / w := by rw [Nat.mul_comm, Nat.mul_add_div hw, Nat.div_eq_of_lt hi, Nat.add_zero]
      rw [this]
    · intro hb
      refine ⟨k % w, Nat.mod_lt _ hw, ?_⟩
      rw [← hb, Nat.div_add_mod']

theorem thread?_updSheaf_lanes (s : State) (sh : Nat) (f : Sheaf → Sheaf) (hf : ∀ x, (f x).lanes = x.lanes) (j k : Nat) :
    thread? (updSheaf s sh f) j k = thread? s j k := by
  unfold thread?
  rw [sheaf?_updSheaf]
  by_cases h : sh = j
  · rw [if_pos h]
    cases sheaf? s j with
    | none => rfl
    | some x => exact congrArg (Tab.at? · k) (hf x)
  · rw [if_neg h]

/-- JMARK in one lane replaces the bits of the lane's gang by the lane's (R188). -/
theorem getLsbD_markMask {w k : Nat} (hw : 0 < w) (hk : k < 32) (old : Word) :
    (markMask w old [ln]).getLsbD k = if gangBase w k = gangBase w ln then decide (k = ln) else old.getLsbD k := by
  have hgang := mem_gang (ln := ln) hw hk
  simp only [markMask, BitVec.getLsbD_or, BitVec.getLsbD_and, BitVec.getLsbD_not, getLsbD_maskOf, hk, decide_true, Bool.true_and, List.map_cons, List.map_nil,
    List.flatten_cons, List.flatten_nil, List.append_nil, List.mem_map, List.mem_range, List.mem_singleton]
  by_cases h : gangBase w k = gangBase w ln
  · simp [h, hgang.2 h]
  · have hne : k ≠ ln := fun hkl => h (by rw [hkl])
    simp [h, hne, mt hgang.1 h]

theorem jmark_marks (h : Guard) (o : BF) : aloneDoes (.jmark h o) h (fun e => 0 < e.sf.width) (fun e t =>
      thread? t e.sh e.ln = some (retired e.th wrNone) ∧ lanesKept e.s t e.sh e.ln ∧ t = { e.s with sheaves := t.sheaves, focus := none } ∧
      ∃ m : Word, (sheaf? t e.sh).map (fun sf => { sf with lanes := [] }) = some { e.sf with lanes := [], j := Tab.set 0 e.sf.j o.aux.toNat m } ∧
        ∀ k, k < 32 → m.getLsbD k = if gangBase e.sf.width k = gangBase e.sf.width e.ln then decide (k = e.ln)
          else (Tab.get 0 e.sf.j o.aux.toNat).getLsbD k) := by
  intro s sh ln sf th hone hw
  obtain ⟨-, -, hs, hl, -, hn, -, hr, hp⟩ := id hone
  let m := markMask sf.width (Tab.get 0 sf.j o.aux.toNat) [ln]
  let s1 := setSheaf s sh { sf with j := Tab.set 0 sf.j o.aux.toNat m }
  have hs1 : sheaf? s1 sh = some { sf with j := Tab.set 0 sf.j o.aux.toNat m } := sheaf?_setSheaf_same _ _ _
  have hth1 : thread? s1 sh ln = some th := by rw [thread?_of_sheaf? hs1]; exact hl
  have hexec : exec (.jmark h o) s = .next { updThread s1 sh ln (fun _ => retired th wrNone) with focus := none } := by
    rw [← finishWord_past hs1 hl hn hr hp]
    refine congrArg Host.Outcome.next (runWord_solo (s := s) (k := cfgNR h) hone rfl rfl ?_ rfl rfl)
    simp [soloEnv, updSheaf_eq_setSheaf hs, s1, m]
  refine ⟨_, hexec, ?_, fun y hy => ?_, ?_, m, ?_, fun k hk => getLsbD_markMask hw hk _⟩
  · show thread? (updThread s1 sh ln fun _ => retired th wrNone) sh ln = _
    rw [thread?_updThread_same, hth1]
    rfl
  · show thread? (updThread s1 sh ln fun _ => retired th wrNone) y.1 y.2 = thread? s y.1 y.2
    simp only [soloEnv_sh, soloEnv_ln] at hy
    rw [thread?_updThread_other _ _ (Ne.symm hy), ← thread?_updSheaf_lanes s sh (fun x => { x with j := Tab.set 0 sf.j o.aux.toNat m }) fun _ => rfl,
      updSheaf_eq_setSheaf hs]
  · rw [updThread_frame]
    rfl
  · show (sheaf? (updThread s1 sh ln fun _ => retired th wrNone) sh).map _ = _
    rw [sheaf?_updThread_skel, hs1]
    rfl

/-! ### JOIN and JOIN_RELEASE (R189) -/

/-- The sheaves a rejoin mask reaches: the lane's own, then the other of a pair if it is resident. -/
theorem joinSheaves_eq (hs : sheaf? s sh = some sf) :
    joinSheaves s sh = (sh, sf) :: (sf.pair.bind fun p => (sheaf? s p).map fun sp => (p, sp)).toList := by
  unfold joinSheaves
  simp only [hs]
  cases sf.pair with
  | none => rfl
  | some p => cases hp : sheaf? s p <;> simp [hp]

theorem mem_joinSheaves {x : Nat × Sheaf} (hs : sheaf? s sh = some sf) :
    x ∈ joinSheaves s sh ↔ x = (sh, sf) ∨ sf.pair = some x.1 ∧ sheaf? s x.1 = some x.2 := by
  rw [joinSheaves_eq hs, List.mem_cons, Option.mem_toList]
  simp only [Option.bind_eq_some_iff, Option.map_eq_some_iff, Prod.ext_iff]
  constructor
  · rintro (h | ⟨p, hp, sp, hsp, rfl, rfl⟩)
    · exact .inl h
    · exact .inr ⟨hp, hsp⟩
  · rintro (h | ⟨hp, hsp⟩)
    · exact .inl h
    · exact .inr ⟨_, hp, _, hsp, rfl, rfl⟩

theorem sheaf?_of_mem_joinSheaves {x : Nat × Sheaf} (hx : x ∈ joinSheaves s sh) : sheaf? s x.1 = some x.2 := by
  cases hs : sheaf? s sh with
  | none => simp [joinSheaves, hs] at hx
  | some sf =>
    rcases (mem_joinSheaves hs).1 hx with rfl | h
    · exact hs
    · exact h.2

/-- The lanes that wait at a JOIN word in the sheaves that its mask reaches. -/
def joinWaiters (s : State) (sh : Nat) (code : Cap) (pc : Word) : List (Nat × Nat) :=
  (joinSheaves s sh).flatMap fun x => (x.2.lanes.filter fun l => waitsAt code pc l.2).map fun l => (x.1, l.1)

theorem tryJoin_release {n : Nat} (ht : thread? s sh ln = some th) (hh : th.hold = some (.join n)) (hm : joinMet s sh n th.code th.pc = true) :
    tryJoin s sh ln = (joinWaiters s sh th.code th.pc).foldl (fun s x => resume s x.1 x.2 wrNone) s := by
  simp only [tryJoin, ht, hh, hm, if_true, joinWaiters, List.foldl_flatMap, List.foldl_map, List.foldl_filter]

theorem tryJoin_waits {n : Nat} (ht : thread? s sh ln = some th) (hh : th.hold = some (.join n)) (hm : joinMet s sh n th.code th.pc = false) :
    tryJoin s sh ln = s := by
  simp only [tryJoin, ht, hh, hm, Bool.false_eq_true, if_false]

theorem mem_joinWaiters {code : Cap} {pc : Word} {y : Nat × Nat} :
    y ∈ joinWaiters s sh code pc ↔ ∃ x ∈ joinSheaves s sh, ∃ l ∈ x.2.lanes, waitsAt code pc l.2 = true ∧ (x.1, l.1) = y := by
  simp only [joinWaiters, List.mem_flatMap, List.mem_map, List.mem_filter, and_assoc]

theorem joinMet_iff {n : Nat} {code : Cap} {pc : Word} : joinMet s sh n code pc = true ↔ ∀ x ∈ joinSheaves s sh, ∀ l ∈ x.2.lanes,
    (Tab.get 0 x.2.j n).getLsbD l.1 = true → l.2.status = .live → waitsAt code pc l.2 = true := by
  simp only [joinMet, List.all_eq_true, Bool.or_eq_true, Bool.not_eq_true', decide_eq_true_eq]
  refine forall₂_congr fun x _ => forall₂_congr fun l _ => ?_
  cases (Tab.get 0 x.2.j n).getLsbD l.1 <;> by_cases hl : l.2.status = .live <;> simp [hl]

/-- What a lane that waits at a JOIN word is. -/
theorem waitsAt_iff {code : Cap} {pc : Word} :
    waitsAt code pc th = true ↔ th.status = .live ∧ th.code = code ∧ th.pc = pc ∧ ∃ n, th.hold = some (.join n) := by
  have hhold : (match th.hold with
      | some (.join _) => true
      | _ => false) = true ↔ ∃ n, th.hold = some (.join n) := by
    split
    · next n h => simp [h]
    · next h => simpa using h
  unfold waitsAt
  simp only [Bool.and_eq_true, decide_eq_true_eq, and_assoc]
  exact and_congr_right fun _ => and_congr_right fun _ => and_congr_right fun _ => hhold

theorem joinWaiters_nodup {code : Cap} {pc : Word} (hn : ((joinSheaves s sh).map (·.1)).Nodup)
    (hl : ∀ x ∈ joinSheaves s sh, (x.2.lanes.map (·.1)).Nodup) : (joinWaiters s sh code pc).Nodup := by
  refine List.nodup_flatMap.2 ⟨fun x hx => ?_, (List.pairwise_map.1 hn).imp fun {x y} hxy => ?_⟩
  · have hk := (hl x hx).sublist (List.filter_sublist (p := fun l => waitsAt code pc l.2) |>.map _)
    exact List.Nodup.of_map Prod.snd (by rw [List.map_map]; exact hk)
  · intro z hzx hzy
    obtain ⟨_, -, rfl⟩ := List.mem_map.1 hzx
    obtain ⟨_, -, hz⟩ := List.mem_map.1 hzy
    exact hxy (congrArg Prod.fst hz).symm

theorem joinRelease_releases (s : State) (sh ln n : Nat) (th : Thread) (ht : thread? s sh ln = some th) (hh : th.hold = some (.join n)) (hp : th.pc.toNat % 8 = 0)
    (hm : joinMet s sh n th.code th.pc = true) (hn : ((joinSheaves s sh).map (·.1)).Nodup)
    (hw : ∀ x ∈ joinSheaves s sh, (x.2.lanes.map (·.1)).Nodup ∧ runnerOf s x.2 = none ∧
      ∀ l ∈ x.2.lanes, waitsAt th.code th.pc l.2 = true → l.2.run = none ∧ l.2.word = none) :
    leadsTo (.joinRelease sh ln) s fun t => t = { s with sheaves := t.sheaves } ∧ (∀ j, j ∉ (joinSheaves s sh).map (·.1) → sheaf? t j = sheaf? s j) ∧
        ∀ x ∈ joinSheaves s sh, ∀ l ∈ x.2.lanes,
          thread? t x.1 l.1 = some (if waitsAt th.code th.pc l.2 then retired { l.2 with hold := none } wrNone else l.2) := by
  have hat : ∀ x ∈ joinSheaves s sh, ∀ l ∈ x.2.lanes, Tab.at? x.2.lanes l.1 = some l.2 := fun x hx l hl => Tab.at?_of_mem (hw x hx).1 hl
  have hstand : allStand s (joinWaiters s sh th.code th.pc) := by
    intro y hy
    obtain ⟨x, hx, l, hl, hwait, rfl⟩ := mem_joinWaiters.1 hy
    obtain ⟨hnd, hr, hl'⟩ := hw x hx
    obtain ⟨hrun, hword⟩ := hl' l hl hwait
    refine ⟨x.2, l.2, ⟨sheaf?_of_mem_joinSheaves hx, hat x hx l hl, hrun, hr, ?_⟩, by simp [hword], fun id hid => by rw [hword] at hid; cases hid⟩
    rw [(waitsAt_iff.1 hwait).2.2.1]
    exact hp
  have hnodup : (joinWaiters s sh th.code th.pc).Nodup := joinWaiters_nodup hn fun x hx => (hw x hx).1
  obtain ⟨hlo, hin, hout⟩ := foldl_resume hnodup hstand
  refine ⟨tryJoin s sh ln, rfl, ?_⟩
  rw [tryJoin_release ht hh hm]
  refine ⟨hlo.1, fun j hj => hlo.2.2.1 j ?_, fun x hx l hl => ?_⟩
  · rintro ⟨y, hy, rfl⟩
    obtain ⟨x, hx, l, -, -, rfl⟩ := mem_joinWaiters.1 hy
    exact hj (List.mem_map_of_mem hx)
  · have hthread : thread? s x.1 l.1 = some l.2 := by rw [thread?_of_sheaf? (sheaf?_of_mem_joinSheaves hx), hat x hx l hl]
    by_cases hwait : waitsAt th.code th.pc l.2 = true
    · rw [if_pos hwait, hin (x.1, l.1) (mem_joinWaiters.2 ⟨x, hx, l, hl, hwait, rfl⟩), hthread, Option.map_some, goneOn_noWord ((hw x hx).2.2 l hl hwait).2]
    · rw [if_neg hwait, hout (x.1, l.1), hthread]
      rintro hy
      obtain ⟨x', hx', l', hl', hwait', he⟩ := mem_joinWaiters.1 hy
      obtain ⟨hxe, hle⟩ := Prod.mk.inj he
      have h1 := sheaf?_of_mem_joinSheaves hx'
      have h2 := hat x' hx' l' hl'
      rw [hxe, sheaf?_of_mem_joinSheaves hx] at h1
      rw [hle, ← Option.some.inj h1, hat x hx l hl] at h2
      rw [Option.some.inj h2] at hwait
      exact hwait hwait'

/-- The lane that has arrived at a JOIN word. -/
def atJoin (th : Thread) (n : Nat) : Thread := { th with hold := some (.join n) }

/-- The state in which a lane alone has arrived at a JOIN word. -/
def joined (s : State) (sh ln : Nat) (th : Thread) (n : Nat) : State := { updThread s sh ln (fun _ => atJoin th n) with focus := none }

theorem joined_frame (s : State) (sh ln : Nat) (th : Thread) (n : Nat) :
    joined s sh ln th n = { s with sheaves := (joined s sh ln th n).sheaves, focus := none } := by
  unfold joined
  rw [updThread_frame]

/-- JOIN in one lane: the lane waits at the word, and the condition is tried. -/
theorem exec_join_one {h : Guard} (o : BF) (hone : oneLane s h sh ln sf th) : exec (.join h o) s =
    .next (tryJoin (joined s sh ln th (o.aux.toNat % 8)) sh ln) := by
  have hrun := runWord_solo_eq (s := s) (k := cfgNR h) (f := fun _ s => (s, .hold (.join (o.aux.toNat % 8)))) (new := atJoin th (o.aux.toNat % 8))
    hone rfl rfl rfl rfl rfl rfl rfl rfl rfl
  show Host.Outcome.next ((activeLanes s).foldl (fun s x => tryJoin s x.1 x.2) (runWord (cfgNR h) (fun _ s => (s, .hold (.join (o.aux.toNat % 8)))) s)) = _
  rw [hrun, activeLanes_one hone]
  rfl

section
variable {h : Guard} {n : Nat} (hone : oneLane s h sh ln sf th)
include hone

theorem sheaf?_atJoin : sheaf? (joined s sh ln th n) sh =
    some { sf with lanes := Tab.put sf.lanes ln (atJoin th n) } := by
  obtain ⟨-, -, hs, hl, -⟩ := hone
  rw [joined, updThread_eq_setSheaf hs hl]
  exact sheaf?_setSheaf_same _ _ _

theorem becomes_atJoin : becomes s (joined s sh ln th n) sh ln (atJoin th n) :=
  (becomes_updThread (thread_one hone) _).congr rfl rfl

/-- A live member of the mask that stands elsewhere keeps the lane at its JOIN. -/
theorem joinMet_atJoin_false (hx : ∃ x ∈ joinSheaves s sh, ∃ l ∈ x.2.lanes, (x.1, l.1) ≠ (sh, ln) ∧ l.2.status = .live ∧
    (Tab.get 0 x.2.j n).getLsbD l.1 = true ∧ waitsAt th.code th.pc l.2 = false) :
    joinMet (joined s sh ln th n) sh n th.code th.pc = false := by
  obtain ⟨x, hx, l, hl, hne, hlive, hbit, hwait⟩ := hx
  have hs1 := sheaf?_atJoin (n := n) hone
  obtain ⟨-, -, hs, -⟩ := hone
  refine Bool.eq_false_iff.2 fun hm => ?_
  have hmet := joinMet_iff.1 hm
  refine Bool.false_ne_true (hwait.symm.trans ?_)
  by_cases hj : x.1 = sh
  · have hsf : x.2 = sf := by
      have := sheaf?_of_mem_joinSheaves hx
      rw [hj, hs] at this
      exact (Option.some.inj this).symm
    rw [hsf] at hl hbit
    exact hmet _ ((mem_joinSheaves hs1).2 (.inl rfl)) l (Tab.mem_put.2 (.inr ⟨hl, fun hk => hne (Prod.ext hj hk)⟩)) hbit hlive
  · have hpair := ((mem_joinSheaves hs).1 hx).resolve_left fun he => hj (congrArg Prod.fst he)
    refine hmet x ((mem_joinSheaves hs1).2 (.inr ⟨hpair.1, ?_⟩)) l hl hbit hlive
    rw [← hpair.2]
    show sheaf? (updThread s sh ln _) x.1 = _
    rw [updThread_eq, sheaf?_updSheaf, if_neg (Ne.symm hj)]

section
variable (hlive : th.status = .live) (hpair : sf.pair ≠ some sh)
  (hothers : ∀ x ∈ joinSheaves s sh, ∀ l ∈ x.2.lanes, (x.1, l.1) ≠ (sh, ln) → l.2.status ≠ .live)
include hpair hothers

/-- Where no other lane is live, none is once the lane has arrived. -/
theorem othersDead_atJoin {x : Nat × Sheaf} (hx : x ∈ joinSheaves (joined s sh ln th n) sh) {l : Nat × Thread}
    (hl : l ∈ x.2.lanes) : x.1 = sh ∧ l = (ln, atJoin th n) ∨ (x.1, l.1) ≠ (sh, ln) ∧ l.2.status ≠ .live := by
  have hs1 := sheaf?_atJoin (n := n) hone
  obtain ⟨-, -, hs, -⟩ := hone
  rcases (mem_joinSheaves hs1).1 hx with rfl | ⟨hp, hxs⟩
  · rcases Tab.mem_put.1 hl with rfl | ⟨hl, hk⟩
    · exact .inl ⟨rfl, rfl⟩
    · have hne : (sh, l.1) ≠ (sh, ln) := fun hc => hk (Prod.mk.inj hc).2
      exact .inr ⟨hne, hothers (sh, sf) ((mem_joinSheaves hs).2 (.inl rfl)) l hl hne⟩
  · have hne : sh ≠ x.1 := fun he => hpair (hp.trans (congrArg some he.symm))
    have hxs : sheaf? s x.1 = some x.2 := by
      rw [← hxs]
      show _ = sheaf? (updThread s sh ln _) x.1
      rw [updThread_eq, sheaf?_updSheaf, if_neg hne]
    have hne' : (x.1, l.1) ≠ (sh, ln) := fun hc => hne (Prod.mk.inj hc).1.symm
    exact .inr ⟨hne', hothers x ((mem_joinSheaves hs).2 (.inr ⟨hp, hxs⟩)) l hl hne'⟩

include hlive

theorem joinMet_atJoin : joinMet (joined s sh ln th n) sh n th.code th.pc = true := by
  refine joinMet_iff.2 fun x hx l hl _ hlive' => ?_
  obtain ⟨-, rfl⟩ := (othersDead_atJoin hone hpair hothers hx hl).resolve_right fun hd => hd.2 hlive'
  exact waitsAt_iff.2 ⟨hlive, rfl, rfl, n, rfl⟩

/-- Where no other lane is live, the lane at its JOIN is the only one that waits there. -/
theorem joinWaiters_atJoin : joinWaiters (joined s sh ln th n) sh th.code th.pc = [(sh, ln)] := by
  have hs1 := sheaf?_atJoin (n := n) hone
  have hdead : ∀ x ∈ joinSheaves (joined s sh ln th n) sh, ∀ l ∈ x.2.lanes, (x.1, l.1) ≠ (sh, ln) →
      ¬waitsAt th.code th.pc l.2 = true := by
    intro x hx l hl hne hw
    obtain ⟨hj, rfl⟩ := (othersDead_atJoin hone hpair hothers hx hl).resolve_right fun hd => hd.2 (waitsAt_iff.1 hw).1
    exact hne (Prod.ext hj rfl)
  have hself : waitsAt th.code th.pc (ln, atJoin th n).2 = true := waitsAt_iff.2 ⟨hlive, rfl, rfl, n, rfl⟩
  have hown : (Tab.put sf.lanes ln (atJoin th n)).filter (fun l => waitsAt th.code th.pc l.2) = [(ln, atJoin th n)] := by
    refine List.perm_singleton.1 (((Tab.put_perm _ _ _).filter _).trans ?_)
    rw [List.filter_cons_of_pos (p := fun l : Nat × Thread => waitsAt th.code th.pc l.2) hself, List.filter_eq_nil_iff.2]
    intro e he
    obtain ⟨he, hk⟩ := List.mem_filter.1 he
    have hk : e.1 ≠ ln := by simpa using hk
    exact hdead _ ((mem_joinSheaves hs1).2 (.inl rfl)) e (Tab.mem_put.2 (.inr ⟨he, hk⟩)) fun hc => hk (Prod.mk.inj hc).2
  unfold joinWaiters
  have heq := joinSheaves_eq hs1
  rw [heq] at hdead ⊢
  rw [List.flatMap_cons, hown, List.flatMap_eq_nil_iff.2]
  · rfl
  · intro x hx
    rw [List.filter_eq_nil_iff.2 fun l hl => hdead x (List.mem_cons_of_mem _ hx) l hl fun hc => ?_, List.map_nil]
    obtain ⟨p, hp, hx⟩ := Option.bind_eq_some_iff.1 (Option.mem_toList.1 hx)
    obtain ⟨sp, -, rfl⟩ := Option.map_eq_some_iff.1 hx
    exact hpair (hp.trans (congrArg some (Prod.mk.inj hc).1))

end

end

theorem join_passes (h : Guard) (o : BF) : aloneDoes (.join h o) h
    (fun e => e.th.status = .live ∧ e.sf.pair ≠ some e.sh ∧
      ∀ x ∈ joinSheaves e.s e.sh, ∀ l ∈ x.2.lanes, (x.1, l.1) ≠ (e.sh, e.ln) → l.2.status ≠ .live)
    (fun e t => goesOn e.s t e.sh e.ln e.th wrNone ∧ t = { e.s with sheaves := t.sheaves, focus := none }) := by
  rintro s sh ln sf th hone ⟨hlive, hpair, hothers⟩
  let n := o.aux.toNat % 8
  have hb := becomes_atJoin (n := n) hone
  have hs1 := sheaf?_atJoin (n := n) hone
  have hframe1 := joined_frame s sh ln th n
  have hexec : exec (.join h o) s = .next (resume (joined s sh ln th n) sh ln wrNone) := by
    rw [exec_join_one o hone, tryJoin_release hb.1 rfl (joinMet_atJoin (n := n) hone hlive hpair hothers)]
    exact congrArg _ (congrArg (List.foldl _ _) (joinWaiters_atJoin (n := n) hone hlive hpair hothers))
  obtain ⟨-, -, -, -, -, hn, hw, hr, hp⟩ := hone
  have hstand : standing (joined s sh ln th n) sh ln { sf with lanes := Tab.put sf.lanes ln (atJoin th n) } (atJoin th n) :=
    ⟨⟨hs1, Tab.at?_put_same _ _ _, hn, by rw [hframe1]; exact hr, hp⟩, fun id hid => by cases hw.symm.trans hid⟩
  obtain ⟨hgone, hframe⟩ := becomes_resume hstand
  exact ⟨_, hexec, (hb.trans hgone).goesOn,
    hframe.trans (congrArg (fun u : State => { u with sheaves := (resume (joined s sh ln th n) sh ln wrNone).sheaves }) hframe1)⟩

theorem join_waits (h : Guard) (o : BF) : aloneDoes (.join h o) h
    (fun e => ∃ x ∈ joinSheaves e.s e.sh, ∃ l ∈ x.2.lanes, (x.1, l.1) ≠ (e.sh, e.ln) ∧ l.2.status = .live ∧
        (Tab.get 0 x.2.j (o.aux.toNat % 8)).getLsbD l.1 = true ∧ waitsAt e.th.code e.th.pc l.2 = false)
    (fun e t => waitsWith e t (.join (o.aux.toNat % 8)) ∧ t = { e.s with sheaves := t.sheaves, focus := none }) := by
  intro s sh ln sf th hone hx
  have hb := becomes_atJoin (n := o.aux.toNat % 8) hone
  refine ⟨(joined s sh ln th (o.aux.toNat % 8)), ?_, hb, ?_⟩
  · rw [exec_join_one o hone, tryJoin_waits hb.1 rfl (joinMet_atJoin_false hone hx)]
  · exact joined_frame _ _ _ _ _

/-- Settles O14: the mask bit by bit (`getLsbD_markMask`), and the release of the waiting lanes one after another (`foldl_resume`). -/
theorem rejoinWordsComplete : Obligations.RejoinWordsComplete :=
  fun h o => ⟨jmark_marks h o, join_passes h o, join_waits h o, joinRelease_releases⟩

end Sys2Proof.Machine
end

section
/-! Rendezvous points (R191 to R193, R238, R239): a word of one lane, the lanes held at a point, and the lanes its completion frees. -/

namespace Sys2Proof.Machine

variable {s t : State} {sh ln k i : Nat} {sf : Sheaf} {th new : Thread} {team : Team}

/-! ### Quiet states and teams -/

/-- With nothing on its way a release at team scope waits for nothing. -/
theorem releaseStep_quiet {ctx : Nat} (h : quiet s (coreOf sh) ctx) : releaseStep s sh ln false = (s, .clear) := by
  obtain ⟨hnet, hwatch, hclusters, -⟩ := h
  unfold releaseStep
  rw [resolveWatch_quiet _ _ hwatch]
  simp [fenceReady, drainOwn_quiet hnet, awaiting, heldStore, clusterPending, hnet, hclusters, netEmpty]

theorem entriesWait_unwatched (c : WordCfg) (h : (coreAt s (coreOf sh)).watch = []) : entriesWait s c [(sh, ln)] = false := by
  simp [entriesWait, watchPending, h]

theorem teamOf_eq (hk : sf.team = some k) (hT : Tab.at? s.teams k = some team) : teamOf s sf = some (k, team) := by
  simp [teamOf, hk, hT]

theorem updTeam_eq (hT : Tab.at? s.teams k = some team) (f : Team → Team) : updTeam s k f = { s with teams := Tab.put s.teams k (f team) } := by
  simp only [updTeam, hT]

theorem unfocus_updThread (s : State) (sh ln : Nat) (f : Thread → Thread) :
    { updThread s sh ln f with focus := none } = updThread { s with focus := none } sh ln f := by
  cases hs : Tab.at? s.sheaves sh <;> simp [updThread, updSheaf, sheaf?, setSheaf, hs]

theorem retired_hold (th : Thread) (w : Wr) : (retired th w).hold = th.hold := by
  unfold retired dropTemps
  split <;> rfl

theorem retired_word (th : Thread) (w : Wr) : (retired th w).word = th.word := by
  unfold retired dropTemps
  split <;> rfl

/-! ### Lanes held at a point -/

/-- What a list keeps of its members, each at its place. -/
theorem filterMap_map_sublist {α β γ : Type} {g : α → Option β} {f : β → γ} {f' : α → γ} (h : ∀ a b, g a = some b → f b = f' a) (l : List α) :
    ((l.filterMap g).map f).Sublist (l.map f') := by
  induction l with
  | nil => exact .slnil
  | cons a l ih =>
    cases hg : g a with
    | none => rw [List.filterMap_cons_none hg]; exact ih.cons _
    | some b => rw [List.filterMap_cons_some hg, List.map_cons, List.map_cons, h a b hg]; exact ih.cons_cons _

theorem mem_rdvWaiters {w : Nat × Nat × Nat} :
    w ∈ rdvWaiters s k i ↔ ∃ e ∈ s.sheaves, e.2.team = some k ∧ ∃ l ∈ e.2.lanes, l.2.hold = some (.rdv i w.2.2) ∧ (e.1, l.1) = (w.1, w.2.1) := by
  obtain ⟨j, n, c⟩ := w
  simp only [rdvWaiters, List.mem_flatMap, Prod.mk.injEq]
  refine exists_congr fun e => and_congr_right fun _ => ?_
  by_cases hk : e.2.team = some k
  · rw [if_pos hk, List.mem_filterMap]
    simp only [hk, true_and]
    refine exists_congr fun l => and_congr_right fun _ => ?_
    split
    · next x m hx =>
      rw [hx]
      by_cases hi : x = i
      · simp only [hi, if_true, Option.some.injEq, Prod.mk.injEq, Hold.rdv.injEq, true_and]
        tauto
      · simp [hi]
    · next hx => simpa using fun hc => absurd hc (hx _ _)
  · simp [hk]

/-- The waiting lanes of a point whose waits began before its completions reached a count. -/
def freedLanes (s : State) (k i turns : Nat) : List (Nat × Nat) :=
  ((rdvWaiters s k i).filter fun w => decide (w.2.2 ≠ turns)).map fun w => (w.1, w.2.1)

theorem wakeRdv_eq (hT : Tab.at? s.teams k = some team) :
    wakeRdv s k i = (freedLanes s k i (rdvAt team i).turns).foldl (fun s x => resume s x.1 x.2 wrNone) s := by
  simp only [wakeRdv, hT, freedLanes, List.foldl_map, List.foldl_filter, decide_eq_true_eq]

/-- Where every wait at a point began after its latest completion, no lane goes on. -/
theorem wakeRdv_calm (hT : Tab.at? s.teams k = some team) (h : ∀ w ∈ rdvWaiters s k i, w.2.2 = (rdvAt team i).turns) : wakeRdv s k i = s := by
  have hnone : (rdvWaiters s k i).filter (fun w => decide (w.2.2 ≠ (rdvAt team i).turns)) = [] := List.filter_eq_nil_iff.2 fun w hw => by simp [h w hw]
  rw [wakeRdv_eq hT, freedLanes, hnone]
  rfl

theorem rdvFreed_isSome {turns : Nat} : (rdvFreed s k i turns sh ln th).isSome = true ↔
    (sheaf? s sh).bind (fun sf => sf.team) = some k ∧ ∃ n, th.hold = some (.rdv i n) ∧ n ≠ turns := by
  unfold rdvFreed
  by_cases hk : (sheaf? s sh).bind (fun sf => sf.team) = some k
  · rw [if_pos hk]
    split
    · next j n hj =>
      rw [hj]
      by_cases hc : j = i ∧ n ≠ turns
      · rw [if_pos hc]
        simp [hk, hc.1, hc.2]
      · rw [if_neg hc]
        simpa [hk] using fun hji => not_and_not_right.1 hc hji
    · next hx => simpa [hk] using fun n hn => absurd hn (hx _ _)
  · simp [hk]

theorem rdvFreed_eq {turns : Nat} {w : Wr} (h : rdvFreed s k i turns sh ln th = some w) : w = wrNone := by
  unfold rdvFreed at h
  split at h
  · split at h
    · split at h
      · exact (Option.some.inj h).symm
      · cases h
    · cases h
  · cases h

/-- In a tidy state the lanes that a completion frees are those whose threads `rdvFreed` lets go on. -/
theorem mem_freedLanes {turns : Nat} {x : Nat × Nat} (ht : tidy s) :
    x ∈ freedLanes s k i turns ↔ ∃ th, thread? s x.1 x.2 = some th ∧ (rdvFreed s k i turns x.1 x.2 th).isSome = true := by
  simp only [freedLanes, List.mem_map, List.mem_filter, decide_eq_true_eq, rdvFreed_isSome]
  constructor
  · rintro ⟨⟨j, n, c⟩, ⟨hw, hc⟩, rfl⟩
    obtain ⟨e, he, hk, l, hl, hh, hjn⟩ := mem_rdvWaiters.1 hw
    obtain ⟨rfl, rfl⟩ := Prod.mk.inj hjn
    have hs : sheaf? s e.1 = some e.2 := Tab.at?_of_mem ht.1 he
    exact ⟨l.2, by rw [thread?_of_sheaf? hs]; exact Tab.at?_of_mem (ht.2 e he) hl, by rw [hs]; exact hk, c, hh, hc⟩
  · rintro ⟨th, hth, hk, c, hh, hc⟩
    obtain ⟨sf, hs, hk⟩ := Option.bind_eq_some_iff.1 hk
    rw [thread?_of_sheaf? hs] at hth
    exact ⟨(x.1, x.2, c), ⟨mem_rdvWaiters.2 ⟨_, Tab.mem_of_at? hs, hk, _, Tab.mem_of_at? hth, hh, rfl⟩, hc⟩, rfl⟩

theorem freedLanes_nodup {turns : Nat} (ht : tidy s) : (freedLanes s k i turns).Nodup := by
  have hall : (s.sheaves.flatMap fun e => e.2.lanes.map fun l => (e.1, l.1)).Nodup := by
    refine List.nodup_flatMap.2 ⟨fun e he => List.Nodup.of_map Prod.snd (by rw [List.map_map]; exact ht.2 e he),
      (List.pairwise_map.1 ht.1).imp fun {x y} hxy => ?_⟩
    intro z hzx hzy
    obtain ⟨_, -, rfl⟩ := List.mem_map.1 hzx
    obtain ⟨_, -, hz⟩ := List.mem_map.1 hzy
    exact hxy (congrArg Prod.fst hz).symm
  have hsub : ((rdvWaiters s k i).map fun w => (w.1, w.2.1)).Sublist (s.sheaves.flatMap fun e => e.2.lanes.map fun l => (e.1, l.1)) := by
    rw [rdvWaiters, List.map_flatMap]
    refine List.Sublist.flatMap_right _ fun e _ => ?_
    split
    · refine filterMap_map_sublist (fun l y hy => ?_) _
      split at hy
      · split at hy
        · cases hy; rfl
        · cases hy
      · cases hy
    · exact List.nil_sublist _
  exact hall.sublist ((List.filter_sublist.map _).trans hsub)

end Sys2Proof.Machine
end

section
/-! A rendezvous word of one lane as an equation of states, and what it does to the lanes held at its point (R192, R193). -/

namespace Sys2Proof.Machine

variable {s t : State} {sh ln k i : Nat} {sf : Sheaf} {th new : Thread} {team : Team}

/-! ### A rendezvous word of one lane -/

/-- The state with one of a team's points changed. -/
def withPoint (s : State) (k : Nat) (team : Team) (i : Nat) (r : Rdv) : State := { s with teams := Tab.put s.teams k { team with rps := Tab.put team.rps i r } }

theorem updTeam_point (hT : Tab.at? s.teams k = some team) (r : Rdv) :
    updTeam s k (fun t => { t with rps := Tab.put t.rps i r }) = withPoint s k team i r := updTeam_eq hT _

theorem team_withPoint (s : State) (k : Nat) (team : Team) (i : Nat) (r : Rdv) :
    Tab.at? (withPoint s k team i r).teams k = some { team with rps := Tab.put team.rps i r } := Tab.at?_put_same _ _ _

theorem rdvAt_put (team : Team) (i : Nat) (r : Rdv) : rdvAt { team with rps := Tab.put team.rps i r } i = r := by
  simp [rdvAt, Tab.get, Tab.at?_put_same]

/-- With nothing on its way an arrival counts at once. -/
theorem arriveLane_quiet {ctx : Nat} {e : Env} (he : e.sh = sh ∧ e.ln = ln) (hq : quiet s (coreOf sh) ctx) (hT : Tab.at? s.teams k = some team)
    (fin : State → Rdv → Rdv → State × LaneRes) :
    arriveLane s e i k fin = fin (withPoint s k team i (arrive (rdvAt team i)).2) (rdvAt team i) (arrive (rdvAt team i)).2 := by
  obtain ⟨rfl, rfl⟩ := he
  simp only [arriveLane, resolveThen, if_true, releaseStep_quiet hq, hT, updTeam_point hT]

theorem arrive_last {p : Rdv} (h : p.arrived + 1 = p.expect) : (arrive p).2 = { p with arrived := 0, turns := p.turns + 1 } := by simp [arrive, h]

theorem arrive_notLast {p : Rdv} (h : ¬p.arrived + 1 = p.expect) : (arrive p).2 = { p with arrived := p.arrived + 1 } := by simp [arrive, h]

/-- What one lane does at a rendezvous word: without a team it misuses the point. -/
def rdvLane (f : Env → State → Nat → Nat → Team → State × LaneRes) (i : Nat) (e : Env) (s : State) : State × LaneRes :=
  match teamOf s e.sf with
  | some (k, t) => f e s i k t
  | none => (s, .fault rdvMisuse)

/-- The word of a rendezvous instruction. -/
def rdvCfg (h : Guard) (res : Bool) : WordCfg := { cfgNRR h with resolve := res }

/-- The release after a rendezvous word of a sheaf, if the sheaf is still there. -/
def wakeTeamOf (i : Nat) (sheaf : Option Nat) (s : State) : State :=
  match sheaf with
  | some sh => match sheaf? s sh with
    | some sf => match sf.team with
      | some k => wakeRdv s k i
      | none => s
    | none => s
  | none => s

theorem rdvWord_eq (h : Guard) (o : Tri) (res : Bool) (f : Env → State → Nat → Nat → Team → State × LaneRes) (s : State) :
    rdvWord h o res f s = .next (wakeTeamOf (o.c.num % 32) (s.focus.map fun g => g.sh) (runWord (rdvCfg h res) (rdvLane f (o.c.num % 32)) s)) := rfl

theorem wakeTeamOf_eq (hs : sheaf? s sh = some sf) (hk : sf.team = some k) : wakeTeamOf i (some sh) s = wakeRdv s k i := by
  simp only [wakeTeamOf, hs, hk]

theorem rdvLane_eq {f : Env → State → Nat → Nat → Team → State × LaneRes} (hk : sf.team = some k) (hT : Tab.at? s.teams k = some team) :
    rdvLane f i (soloEnv s sh ln sf th) s = f (soloEnv s sh ln sf th) s i k team := by
  simp only [rdvLane, soloEnv_sf, teamOf_eq hk hT]

section
variable {h : Guard} (o : Tri) {res : Bool} {f : Env → State → Nat → Nat → Team → State × LaneRes}
  (hone : oneLane s h sh ln sf th) (hk : sf.team = some k) (hT : Tab.at? s.teams k = some team) (he : entriesWait s (rdvCfg h res) [(sh, ln)] = false)
include hone hk hT he

/-- A rendezvous word of a lane that settles, and what its completion releases. -/
theorem rdvWord_solo {r : LaneRes} (hf : f (soloEnv s sh ln sf th) s (o.c.num % 32) k team = (t, r)) (hfo : t.focus = s.focus)
    (hsh : t.sheaves = s.sheaves) (hq : r.quietly = true) (hw : resWaits r = false) (hr : (LaneWr r).regs = []) (hset : settle t sf th r = .ok new) :
    rdvWord h o res f s = .next (wakeRdv (updThread { t with focus := none } sh ln fun _ => new) k (o.c.num % 32)) := by
  have hrun := runWord_solo_eq (s := s) (k := rdvCfg h res) hone rfl he ((rdvLane_eq hk hT).trans hf) hfo hsh hq hw hr hset
  obtain ⟨hfocus, -, hs, hl, -⟩ := hone
  have hst : sheaf? { t with focus := none } sh = some sf := by
    rw [← hs]
    exact congrArg (Tab.at? · sh) hsh
  have hs1 : sheaf? (updThread { t with focus := none } sh ln fun _ => new) sh = some { sf with lanes := Tab.put sf.lanes ln new } := by
    rw [updThread_eq_setSheaf hst hl, sheaf?_setSheaf_same]
  rw [rdvWord_eq, hrun, unfocus_updThread, hfocus, Option.map_some, wakeTeamOf_eq hs1 hk]

/-- A rendezvous word of a lane that misuses its point: the lane parks, and no completion is new. -/
theorem rdvWord_misuse (hf : f (soloEnv s sh ln sf th) s (o.c.num % 32) k team = (s, .fault rdvMisuse)) (hpark : th.park = none) :
    rdvWord h o res f s = .next (wakeRdv { parkLanes s sh [(ln, rdvMisuse)] with focus := none } k (o.c.num % 32)) := by
  have hrun := runWord_solo (s := s) (k := rdvCfg h res) hone rfl he ((rdvLane_eq hk hT).trans hf) rfl rfl
  obtain ⟨hfocus, -, hs, hl, -, hnorun, -⟩ := hone
  rw [finishWord_fault hs hl] at hrun
  have hs1 : sheaf? (parkLanes s sh [(ln, rdvMisuse)]) sh = some
      { sf with lanes := Tab.put sf.lanes ln { faultedThread th rdvMisuse with park := some { sub := freeSub sf, inHandler := false } },
                subs := Tab.put sf.subs (freeSub sf) (loneSub ln th) } := by
    rw [parkLanes_one hs hl hnorun hpark, sheaf?_setSheaf_same]
  rw [rdvWord_eq, hrun, hfocus]
  exact congrArg Host.Outcome.next (wakeTeamOf_eq hs1 hk)

end

/-- After the write of one lane of a team, a lane held at a point was held there before, or is that lane. -/
theorem mem_rdvWaiters_put {x : Sheaf} (hs : t.sheaves = Tab.put s.sheaves sh x) (hx : x.lanes = Tab.put sf.lanes ln new) (hteam : x.team = sf.team)
    (hsf : sheaf? s sh = some sf) {w : Nat × Nat × Nat} (hw : w ∈ rdvWaiters t k i) : w ∈ rdvWaiters s k i ∨ new.hold = some (.rdv i w.2.2) := by
  obtain ⟨e, he, hk, l, hl, hh, hjn⟩ := mem_rdvWaiters.1 hw
  rw [hs] at he
  rcases Tab.mem_put.1 he with rfl | ⟨he, -⟩
  · rw [hx] at hl
    rcases Tab.mem_put.1 hl with rfl | ⟨hl, -⟩
    · exact .inr hh
    · exact .inl (mem_rdvWaiters.2 ⟨(sh, sf), Tab.mem_of_at? hsf, hteam ▸ hk, l, hl, hh, hjn⟩)
  · exact .inl (mem_rdvWaiters.2 ⟨e, he, hk, l, hl, hh, hjn⟩)

/-- A lane that leaves a calm point calm releases nobody. -/
theorem wakeRdv_updThread {r : Rdv} (hsf : sheaf? s sh = some sf) (hl : Tab.at? sf.lanes ln = some th) (hk : sf.team = some k)
    (hsh : t.sheaves = s.sheaves) (hT : Tab.at? t.teams k = some team) (hr : rdvAt team i = r)
    (hcalm : ∀ w ∈ rdvWaiters s k i, w.2.2 = r.turns) (hnew : new.hold = th.hold ∨ new.hold = some (.rdv i r.turns)) :
    wakeRdv (updThread t sh ln fun _ => new) k i = updThread t sh ln fun _ => new := by
  have hst : sheaf? t sh = some sf := by rw [← hsf]; unfold sheaf?; rw [hsh]
  have hupd := updThread_eq_setSheaf hst hl fun _ => new
  refine wakeRdv_calm (team := team) (by rw [updThread_teams]; exact hT) fun w hw => ?_
  rw [hupd] at hw
  rw [hr]
  rcases mem_rdvWaiters_put (s := s) (x := { sf with lanes := Tab.put sf.lanes ln new }) (congrArg (Tab.put · sh _) hsh) rfl rfl hsf hw with hw | hw
  · exact hcalm w hw
  · rcases hnew with hnew | hnew
    · exact hcalm (sh, ln, w.2.2) (mem_rdvWaiters.2 ⟨(sh, sf), Tab.mem_of_at? hsf, hk, (ln, th), Tab.mem_of_at? hl, hnew ▸ hw, rfl⟩)
    · rw [hnew, Option.some.injEq, Hold.rdv.injEq] at hw
      exact hw.2.symm

theorem rdvFreed_congr {turns : Nat} (h : ∀ j, (sheaf? t j).map (fun sf => { sf with lanes := [] }) = (sheaf? s j).map fun sf => { sf with lanes := [] })
    (sh ln : Nat) (th : Thread) : rdvFreed t k i turns sh ln th = rdvFreed s k i turns sh ln th := by
  have hteam : (sheaf? t sh).bind (fun sf => sf.team) = (sheaf? s sh).bind fun sf => sf.team := by
    have := congrArg (fun o : Option Sheaf => o.bind fun sf => sf.team) (h sh)
    simpa [Option.bind_map, Function.comp_def] using this
  unfold rdvFreed
  rw [hteam]

/-- Once a lane without a word has become another that waits at no point, the lanes that its arrival frees stand as before. -/
theorem allStand_freed {turns : Nat} (hw : waitersStand s (rdvFreed s k i turns)) (hth : thread? s sh ln = some th)
    (hnew : new.hold = none) (hword : new.word = none) :
    allStand (updThread s sh ln fun _ => new) (freedLanes (updThread s sh ln fun _ => new) k i turns) := by
  have hlo := lanesOnly_updThread s sh ln fun _ => new
  obtain ⟨htidy, hstand⟩ := hw
  have htidy' := hlo.2.2.2 htidy
  have hown : thread? (updThread s sh ln fun _ => new) sh ln = some new := by rw [thread?_updThread_same, hth]; rfl
  have hother : ∀ y, y ≠ (sh, ln) → thread? (updThread s sh ln fun _ => new) y.1 y.2 = thread? s y.1 y.2 :=
    fun y hy => thread?_updThread_other _ _ (Ne.symm hy)
  intro x hx
  obtain ⟨u, hu, hfreed⟩ := (mem_freedLanes htidy').1 hx
  rw [rdvFreed_congr hlo.2.1] at hfreed
  have hxne : x ≠ (sh, ln) := by
    rintro rfl
    rw [hown] at hu
    obtain ⟨-, n, hn, -⟩ := rdvFreed_isSome.1 hfreed
    rw [← Option.some.inj hu, hnew] at hn
    cases hn
  rw [hother x hxne] at hu
  obtain ⟨sfx, hsx, -⟩ := Option.bind_eq_some_iff.1 (rdvFreed_isSome.1 hfreed).1
  rw [thread?_of_sheaf? hsx] at hu
  obtain ⟨⟨-, -, hrun, hrunner, hpc⟩, hmates⟩ := hstand (x.1, sfx) (Tab.mem_of_at? hsx) (x.2, u) (Tab.mem_of_at? hu) hfreed
  obtain ⟨l, hsx'⟩ := hlo.sheaf? hsx
  have hux : thread? (updThread s sh ln fun _ => new) x.1 x.2 = some u := by rw [hother x hxne, thread?_of_sheaf? hsx, hu]
  refine ⟨_, u, ⟨hsx', by rw [← hux, thread?_of_sheaf? hsx'], hrun, (hlo.runnerOf _).trans hrunner, hpc⟩, fun _ => htidy', fun id hid e he hwe => ?_⟩
  have hte : thread? (updThread s sh ln fun _ => new) x.1 e.1 = some e.2 := by
    rw [thread?_of_sheaf? hsx']
    exact Tab.at?_of_mem (htidy'.2 _ (Tab.mem_of_at? hsx')) he
  have hene : (x.1, e.1) ≠ (sh, ln) := by
    intro hc
    obtain ⟨hc1, hc2⟩ := Prod.mk.inj hc
    rw [hc1, hc2, hown] at hte
    rw [← Option.some.inj hte, hword] at hwe
    cases hwe
  have hse := (hother _ hene).symm.trans hte
  rw [thread?_of_sheaf? hsx] at hse
  have hfe := hmates id hid (e.1, e.2) (Tab.mem_of_at? hse) hwe
  obtain ⟨-, n, hn, -⟩ := rdvFreed_isSome.1 hfe
  exact ⟨(mem_freedLanes htidy').2 ⟨e.2, hte, by rw [rdvFreed_congr hlo.2.1]; exact hfe⟩, by rw [hn]; rfl⟩

/-- The last lane of a phase goes past its word, and every lane that it frees goes on. -/
theorem wakeRdv_last {turns : Nat} (hw : waitersStand s (rdvFreed s k i turns)) (hth : thread? s sh ln = some th)
    (hnew : new.hold = none) (hword : new.word = none)
    (hT : Tab.at? s.teams k = some team) (hturns : (rdvAt team i).turns = turns) :
    let t := wakeRdv (updThread s sh ln fun _ => new) k i
    t = { s with sheaves := t.sheaves } ∧ thread? t sh ln = some new ∧ wakes s t [(sh, ln)] (rdvFreed s k i turns) := by
  have hlo := lanesOnly_updThread s sh ln fun _ => new
  have htidy := hlo.2.2.2 hw.1
  have hown : thread? (updThread s sh ln fun _ => new) sh ln = some new := by rw [thread?_updThread_same, hth]; rfl
  obtain ⟨hlo', hin, hout⟩ := foldl_resume (freedLanes_nodup htidy) (allStand_freed hw hth hnew hword)
  have hT' : Tab.at? (updThread s sh ln fun _ => new).teams k = some team := by rw [updThread_teams]; exact hT
  rw [wakeRdv_eq hT', hturns]
  refine ⟨((hlo.mono fun _ _ => trivial).trans (hlo'.mono fun _ _ => trivial)).1, ?_, fun e he l hl hne => ?_⟩
  · rw [hout (sh, ln), hown]
    intro hc
    obtain ⟨u, hu, hfreed⟩ := (mem_freedLanes htidy).1 hc
    obtain ⟨-, n, hn, -⟩ := rdvFreed_isSome.1 hfreed
    rw [hown] at hu
    rw [← Option.some.inj hu, hnew] at hn
    cases hn
  · have hse : sheaf? s e.1 = some e.2 := Tab.at?_of_mem hw.1.1 he
    have hle : thread? s e.1 l.1 = some l.2 := by rw [thread?_of_sheaf? hse]; exact Tab.at?_of_mem (hw.1.2 e he) hl
    have hle' : thread? (updThread s sh ln fun _ => new) e.1 l.1 = some l.2 := by
      rw [thread?_updThread_other _ _ fun hc => hne (by simp [hc]), hle]
    cases hf : rdvFreed s k i turns e.1 l.1 l.2 with
    | none =>
      rw [hout (e.1, l.1), hle']
      intro hc
      obtain ⟨u, hu, hfreed⟩ := (mem_freedLanes htidy).1 hc
      rw [hle'] at hu
      rw [rdvFreed_congr hlo.2.1, ← Option.some.inj hu, hf] at hfreed
      cases hfreed
    | some w =>
      rw [hin (e.1, l.1) ((mem_freedLanes htidy).2 ⟨l.2, hle', by rw [rdvFreed_congr hlo.2.1, hf]; rfl⟩), hle', rdvFreed_eq hf]
      rfl

end Sys2Proof.Machine
end

section
/-! Rendezvous words of one lane and the settled statement (R191 to R193, R238, R239). -/

namespace Sys2Proof.Machine

variable {s : State} {T : Tab Team} {sh ln k : Nat} {sf : Sheaf} {th new : Thread} {team : Team}

section
variable {h : Guard} {o : Tri} {res : Bool} {f : Env → State → Nat → Nat → Team → State × LaneRes} {after : State → Prop}
  (hone : oneLane s h sh ln sf th) (hk : sf.team = some k) (hT : Tab.at? s.teams k = some team) (he : entriesWait s (rdvCfg h res) [(sh, ln)] = false)
include hone hk hT he

/-- A rendezvous word of a lane that turns no phase: the lane becomes what its result makes of it, and nobody is freed. -/
theorem rdvWord_calm {team' : Team} {r : LaneRes} (hf : f (soloEnv s sh ln sf th) s (o.c.num % 32) k team = ({ s with teams := T }, r))
    (hT' : Tab.at? T k = some team') (hcalm : ∀ w ∈ rdvWaiters s k (o.c.num % 32), w.2.2 = (rdvAt team' (o.c.num % 32)).turns)
    (hres : r = .hold (.rdv (o.c.num % 32) (rdvAt team' (o.c.num % 32)).turns) ∧
        new = { th with hold := some (.rdv (o.c.num % 32) (rdvAt team' (o.c.num % 32)).turns) } ∨
      ∃ w : Wr, w.regs = [] ∧ r = .ok w ∧ new = retired th w)
    (hafter : ∀ t', becomes s t' sh ln new → t' = { s with sheaves := t'.sheaves, focus := none, teams := T } → after t') :
    ∃ t', rdvWord h o res f s = .next t' ∧ after t' := by
  obtain ⟨-, -, hs, hl, -, hnorun, -, hrunner, hpc⟩ := id hone
  let s0 : State := { s with focus := none, teams := T }
  have hth : thread? s0 sh ln = some th := (thread?_congr (t := s) rfl sh ln).trans (thread_one hone)
  refine ⟨updThread s0 sh ln fun _ => new, ?_, hafter _ ((becomes_updThread hth new).congr rfl rfl) (updThread_frame _ _ _ _)⟩
  rcases hres with ⟨rfl, rfl⟩ | ⟨w, hw, rfl, rfl⟩
  · rw [rdvWord_solo o hone hk hT he hf rfl rfl rfl rfl rfl rfl]
    exact congrArg _ (wakeRdv_updThread hs hl hk rfl hT' rfl hcalm (.inr rfl))
  · have hset : settle { s with teams := T } sf th (.ok w) = .ok (retired th w) := settle_past hnorun hrunner hpc
    rw [rdvWord_solo o hone hk hT he hf rfl rfl rfl rfl hw hset]
    exact congrArg _ (wakeRdv_updThread hs hl hk rfl hT' rfl hcalm (.inl (retired_hold _ _)))

/-- A rendezvous word of the last lane of a phase: it goes past its word, and the lanes held at the point go on. -/
theorem rdvWord_last {team' : Team} {w : Wr} {turns : Nat} (hf : f (soloEnv s sh ln sf th) s (o.c.num % 32) k team = ({ s with teams := T }, .ok w))
    (hT' : Tab.at? T k = some team') (hturns : (rdvAt team' (o.c.num % 32)).turns = turns) (hw : w.regs = [])
    (hfrees : waitersStand s (rdvFreed s k (o.c.num % 32) turns)) (hhold : th.hold = none)
    (hafter : ∀ t', t' = { s with sheaves := t'.sheaves, focus := none, teams := T } → thread? t' sh ln = some (retired th w) →
      wakes s t' [(sh, ln)] (rdvFreed s k (o.c.num % 32) turns) → after t') :
    ∃ t', rdvWord h o res f s = .next t' ∧ after t' := by
  obtain ⟨-, -, hs, hl, -, hnorun, hword, hrunner, hpc⟩ := id hone
  have hset : settle { s with teams := T } sf th (.ok w) = .ok (retired th w) := settle_past hnorun hrunner hpc
  let s0 : State := { s with focus := none, teams := T }
  have hth : thread? s0 sh ln = some th := (thread?_congr (t := s) rfl sh ln).trans (thread_one hone)
  obtain ⟨hframe, hown, hwakes⟩ := wakeRdv_last (s := s0) hfrees hth ((retired_hold th w).trans hhold) ((retired_word th w).trans hword) hT' hturns
  exact ⟨_, rdvWord_solo o hone hk hT he hf rfl rfl rfl rfl hw hset, hafter _ hframe hown hwakes⟩

/-- A rendezvous word that misuses its point parks its lane. -/
theorem rdvWord_parks (hf : f (soloEnv s sh ln sf th) s (o.c.num % 32) k team = (s, .fault rdvMisuse)) (hpark : th.park = none)
    (hcalm : ∀ w ∈ rdvWaiters s k (o.c.num % 32), w.2.2 = (rdvAt team (o.c.num % 32)).turns) :
    ∃ t', rdvWord h o res f s = .next t' ∧ parksAlone s t' sh ln sf th 0x04 0 0 th.pc := by
  refine ⟨_, rdvWord_misuse o hone hk hT he hf hpark, ?_⟩
  obtain ⟨-, -, hs, hl, -, hnorun, -⟩ := hone
  have heq := parkLanes_one (s := s) (f := rdvMisuse) hs hl hnorun hpark
  have hcalm' : wakeRdv { parkLanes s sh [(ln, rdvMisuse)] with focus := none } k (o.c.num % 32) = { parkLanes s sh [(ln, rdvMisuse)] with focus := none } := by
    refine wakeRdv_calm (team := team) (by rw [heq]; exact hT) fun w hw => ?_
    rw [heq] at hw
    let new : Thread := { faultedThread th rdvMisuse with park := some { sub := freeSub sf, inHandler := false } }
    let parked : Sheaf := { sf with lanes := Tab.put sf.lanes ln new, subs := Tab.put sf.subs (freeSub sf) (loneSub ln th) }
    refine hcalm w ((mem_rdvWaiters_put (s := s) (ln := ln) (x := parked) (new := new) rfl rfl rfl hs hw).resolve_right ?_)
    exact fun hc => Option.some_ne_none _ (hc.symm.trans rfl)
  rw [hcalm']
  exact ⟨parks_parkLanes _ _ _ hs hl hnorun hpark, by rw [heq]; rfl⟩

end

/-! ### Clauses -/

/-- Beside the sheaves and the focus one point of a team changed. -/
def pointSet (e : Env) (t : State) (k : Nat) (team : Team) (i : Nat) (r : Rdv) : Prop :=
  t = { e.s with sheaves := t.sheaves, focus := none, teams := Tab.put e.s.teams k { team with rps := Tab.put team.rps i r } }

section
variable (h : Guard) (o : Tri) (k : Nat) (team : Team)

/-- The word's lane is of a team. -/
def inTeam (e : Env) : Prop := e.sf.team = some k ∧ Tab.at? e.s.teams k = some team

/-- The word's lane is of a team, nothing is on its way, and the point counts. -/
def mayArrive (e : Env) : Prop := inTeam k team e ∧ quiet e.s (coreOf e.sh) e.sf.ctx ∧ (rdvAt team (o.c.num % 32)).expect ≠ 0

/-- Every wait at the point began after its latest completion. -/
def calmPoint (e : Env) : Prop := ∀ w ∈ rdvWaiters e.s k (o.c.num % 32), w.2.2 = (rdvAt team (o.c.num % 32)).turns

/-- RDVINIT at an idle point. -/
theorem rdvinit_sets : aloneDoes (.rdvinit h o) h
    (fun e => inTeam k team e ∧ (rdvAt team (o.c.num % 32)).arrived = 0 ∧ rdvWaiters e.s k (o.c.num % 32) = [] ∧
      1 ≤ (src e o.a 1).toNat ∧ (src e o.a 1).toNat ≤ 2048)
    (fun e t => goesPast e t wrNone ∧ pointSet e t k team (o.c.num % 32) { rdvAt team (o.c.num % 32) with expect := (src e o.a 1).toNat }) := by
  rintro s sh ln sf th hone ⟨⟨hk, hT⟩, hidle, hnone, hlo, hhi⟩
  have hok : countOk (src (soloEnv s sh ln sf th) o.a 1).toNat = true := by simp [countOk, hlo, hhi]
  have henv : envOf s (soloEnv s sh ln sf th).acts [(sh, ln)] (sh, ln) = some (soloEnv s sh ln sf th) := envOf_one hone
  show ∃ t', execRdvinit h o s = .next t' ∧ _
  unfold execRdvinit
  let r : Rdv := { rdvAt team (o.c.num % 32) with expect := (src (soloEnv s sh ln sf th) o.a 1).toNat }
  refine rdvWord_calm hone hk hT rfl (T := (withPoint s k team (o.c.num % 32) r).teams) ?_ (team_withPoint _ _ _ _ _) (by rw [soloEnv_s] at hnone; simp [hnone]) (.inr ⟨wrNone, rfl, rfl, rfl⟩) fun t' hb hfr => ⟨hb.goesPast, hfr⟩
  rw [soloEnv_s] at hnone hT
  simp [hidle, hnone, hok, soloEnv_parts, henv, updTeam_eq hT, withPoint, r]

/-- What a misused point does: the lane parks with RDV_MISUSE. -/
def misusesPoint (j : Instr) (ok : Env → Prop) : Prop :=
  aloneDoes j h (fun e => inTeam k team e ∧ calmPoint o k team e ∧
    e.th.park = none ∧ (coreAt e.s (coreOf e.sh)).watch = [] ∧ ok e) fun e t => parksAlone e.s t e.sh e.ln e.sf e.th 0x04 0 0 e.th.pc

theorem rdvinit_misuses : misusesPoint h o k team (.rdvinit h o) fun e => (rdvAt team (o.c.num % 32)).arrived ≠ 0 ∨ rdvWaiters e.s k (o.c.num % 32) ≠ [] ∨
    (src e o.a 1).toNat = 0 ∨ 2048 < (src e o.a 1).toNat := by
  rintro s sh ln sf th hone ⟨⟨hk, hT⟩, hcalm, hpark, -, hbad⟩
  show ∃ t', execRdvinit h o s = .next t' ∧ _
  unfold execRdvinit
  refine rdvWord_parks hone hk hT rfl ?_ hpark hcalm
  have hcond : (decide ((rdvAt team (o.c.num % 32)).arrived ≠ 0) || !(rdvWaiters s k (o.c.num % 32)).isEmpty ||
      !countOk (src (soloEnv s sh ln sf th) o.a 1).toNat) = true := by
    rw [soloEnv_s] at hbad
    rcases hbad with hbusy | hbusy | hzero | hmany
    · simp [hbusy]
    · simp [hbusy]
    · simp [countOk, hzero]
    · simp [countOk, Nat.not_le.2 hmany]
  exact if_pos hcond

/-- RDVARR in a lane. -/
def rdvarrLane (e : Env) (s : State) (i k : Nat) (t : Team) : State × LaneRes :=
  if (rdvAt t i).expect = 0 then (s, .fault rdvMisuse)
  else arriveLane s e i k fun s p _ => (s, .ok (wrPred o.d.toNat p.phase))

/-- RDVWAIT in a lane. -/
def rdvwaitLane (e : Env) (s : State) (i _k : Nat) (t : Team) : State × LaneRes :=
  if (rdvAt t i).expect = 0 then (s, .fault rdvMisuse)
  else (s, if (rdvAt t i).phase = pReg e.th o.d.toNat then .hold (.rdv i (rdvAt t i).turns) else .ok wrNone)

/-- RDVAW in a lane. -/
def rdvawLane (e : Env) (s : State) (i k : Nat) (t : Team) : State × LaneRes :=
  if (rdvAt t i).expect = 0 then (s, .fault rdvMisuse)
  else arriveLane s e i k fun s p q => (s, if q.turns = p.turns then .hold (.rdv i p.turns) else .ok wrNone)

theorem exec_rdvarr (s : State) : exec (.rdvarr h o) s = rdvWord h o true (rdvarrLane o) s := rfl
theorem exec_rdvwait (s : State) : exec (.rdvwait h o) s = rdvWord h o false (rdvwaitLane o) s := rfl
theorem exec_rdvaw (s : State) : exec (.rdvaw h o) s = rdvWord h o true rdvawLane s := rfl

theorem rendezvous_misuses : ∀ j ∈ [Instr.rdvarr h o, .rdvwait h o, .rdvaw h o],
    misusesPoint h o k team j fun _ => (rdvAt team (o.c.num % 32)).expect = 0 := by
  have hmisuse : ∀ {res : Bool} {f : Env → State → Nat → Nat → Team → State × LaneRes} {j : Instr}, (∀ s, exec j s = rdvWord h o res f s) →
      (∀ e s, (rdvAt team (o.c.num % 32)).expect = 0 → f e s (o.c.num % 32) k team = (s, .fault rdvMisuse)) →
      misusesPoint h o k team j fun _ => (rdvAt team (o.c.num % 32)).expect = 0 := by
    rintro res f j hj hf s sh ln sf th hone ⟨⟨hk, hT⟩, hcalm, hpark, hwatch, hzero⟩
    rw [hj]
    exact rdvWord_parks hone hk hT (entriesWait_unwatched _ hwatch) (hf _ _ hzero) hpark hcalm
  simp only [List.forall_mem_cons, List.not_mem_nil, false_imp_iff, implies_true, and_true]
  exact ⟨hmisuse (exec_rdvarr h o) fun _ _ hz => if_pos hz, hmisuse (exec_rdvwait h o) fun _ _ hz => if_pos hz,
    hmisuse (exec_rdvaw h o) fun _ _ hz => if_pos hz⟩

end

section
variable {h : Guard} {o : Tri} {k : Nat} {team : Team} {j : Instr} {f : Env → State → Nat → Nat → Team → State × LaneRes}
  {fin : Env → State → Rdv → Rdv → State × LaneRes}
  (hj : ∀ s, exec j s = rdvWord h o true f s)
  (hf : ∀ e s, f e s (o.c.num % 32) k team = if (rdvAt team (o.c.num % 32)).expect = 0 then (s, .fault rdvMisuse) else arriveLane s e (o.c.num % 32) k (fin e))
include hj hf

/-- An arrival that is not the last of its phase counts. -/
theorem arrival_counts {p : Rdv} (hp : p = rdvAt team (o.c.num % 32)) (hlast : ¬p.arrived + 1 = p.expect) {r : LaneRes} {after : Env → State → Prop}
    (hfin : ∀ e s', fin e s' p { p with arrived := p.arrived + 1 } = (s', r))
    (hr : r = .hold (.rdv (o.c.num % 32) p.turns) ∧ (∀ e t, waitsWith e t (.rdv (o.c.num % 32) p.turns) → after e t) ∨
      ∃ w : Wr, w.regs = [] ∧ r = .ok w ∧ ∀ e t, goesPast e t w → after e t) :
    aloneDoes j h (fun e => mayArrive o k team e ∧ calmPoint o k team e)
      fun e t => after e t ∧ pointSet e t k team (o.c.num % 32) { p with arrived := p.arrived + 1 } := by
  subst hp
  rintro s sh ln sf th hone ⟨⟨⟨hk, hT⟩, hq, hexp⟩, hcalm⟩
  rw [hj]
  have hlane := hf (soloEnv s sh ln sf th) s
  rw [if_neg hexp, arriveLane_quiet (s := s) ⟨rfl, rfl⟩ hq hT, arrive_notLast hlast, hfin] at hlane
  have hteam := team_withPoint s k team (o.c.num % 32) { rdvAt team (o.c.num % 32) with arrived := (rdvAt team (o.c.num % 32)).arrived + 1 }
  have he : entriesWait s (rdvCfg h true) [(sh, ln)] = false := entriesWait_unwatched _ hq.2.1
  have hturns := congrArg Rdv.turns (rdvAt_put team (o.c.num % 32) { rdvAt team (o.c.num % 32) with arrived := (rdvAt team (o.c.num % 32)).arrived + 1 })
  rcases hr with ⟨rfl, ha⟩ | ⟨w, hw, rfl, ha⟩
  · exact rdvWord_calm hone hk hT he hlane hteam (by rw [hturns]; exact hcalm) (.inl ⟨by rw [hturns], rfl⟩)
      fun t' hb hfr => ⟨ha _ t' (by rw [hturns] at hb; exact hb), hfr⟩
  · exact rdvWord_calm hone hk hT he hlane hteam (by rw [hturns]; exact hcalm) (.inr ⟨w, hw, rfl, rfl⟩) fun t' hb hfr => ⟨ha _ t' hb.goesPast, hfr⟩

/-- The last arrival of a phase turns it and frees the lanes that wait. -/
theorem arrival_turns {p : Rdv} (hp : p = rdvAt team (o.c.num % 32)) (hlast : p.arrived + 1 = p.expect) {w : Wr} (hw : w.regs = [])
    (hfin : ∀ e s', fin e s' p { p with arrived := 0, turns := p.turns + 1 } = (s', .ok w)) :
    aloneDoes j h (fun e => mayArrive o k team e ∧ waitersStand e.s (rdvFreed e.s k (o.c.num % 32) (p.turns + 1)) ∧ e.th.hold = none)
      fun e t => thread? t e.sh e.ln = some (retired e.th w) ∧ wakes e.s t [(e.sh, e.ln)] (rdvFreed e.s k (o.c.num % 32) (p.turns + 1)) ∧
        pointSet e t k team (o.c.num % 32) { p with arrived := 0, turns := p.turns + 1 } := by
  subst hp
  rintro s sh ln sf th hone ⟨⟨⟨hk, hT⟩, hq, hexp⟩, hfrees, hhold⟩
  rw [hj]
  have hlane := hf (soloEnv s sh ln sf th) s
  rw [if_neg hexp, arriveLane_quiet (s := s) ⟨rfl, rfl⟩ hq hT, arrive_last hlast, hfin] at hlane
  exact rdvWord_last hone hk hT (entriesWait_unwatched _ hq.2.1) hlane (team_withPoint _ _ _ _ _) (congrArg Rdv.turns (rdvAt_put _ _ _)) hw hfrees hhold
    fun t' hfr hown hwakes => ⟨hown, hwakes, hfr⟩

end

section
variable (h : Guard) (o : Tri) (k : Nat) (team : Team)

theorem rdvwait_waits : aloneDoes (.rdvwait h o) h
    (fun e => inTeam k team e ∧ calmPoint o k team e ∧ (rdvAt team (o.c.num % 32)).expect ≠ 0 ∧
      pReg e.th o.d.toNat = (rdvAt team (o.c.num % 32)).phase)
    (fun e t => waitsWith e t (.rdv (o.c.num % 32) (rdvAt team (o.c.num % 32)).turns) ∧ t = { e.s with sheaves := t.sheaves, focus := none }) := by
  rintro s sh ln sf th hone ⟨⟨hk, hT⟩, hcalm, hexp, hpar⟩
  rw [exec_rdvwait]
  refine rdvWord_calm hone hk hT rfl (T := s.teams) ?_ hT hcalm (.inl ⟨rfl, rfl⟩) fun t' hb hfr => ⟨hb, hfr⟩
  rw [rdvwaitLane, if_neg hexp, if_pos (by exact hpar.symm)]

theorem rdvwait_passes : aloneDoes (.rdvwait h o) h
    (fun e => inTeam k team e ∧ calmPoint o k team e ∧ (rdvAt team (o.c.num % 32)).expect ≠ 0 ∧
      pReg e.th o.d.toNat ≠ (rdvAt team (o.c.num % 32)).phase)
    (fun e t => goesPast e t wrNone ∧ t = { e.s with sheaves := t.sheaves, focus := none }) := by
  rintro s sh ln sf th hone ⟨⟨hk, hT⟩, hcalm, hexp, hpar⟩
  rw [exec_rdvwait]
  refine rdvWord_calm hone hk hT rfl (T := s.teams) ?_ hT hcalm (.inr ⟨wrNone, rfl, rfl, rfl⟩) fun t' hb hfr => ⟨hb.goesPast, hfr⟩
  rw [rdvwaitLane, if_neg hexp, if_neg (by exact Ne.symm hpar)]

end

/-- Settles O28: a word that turns no phase releases nobody (`wakeRdv_updThread`), and the last arrival of a phase frees exactly the lanes held since before it
(`wakeRdv_last`). -/
theorem rendezvousComplete : Obligations.RendezvousComplete := by
  intro h o k team
  have hturned : ∀ (p : Rdv) (r : LaneRes), (if p.turns + 1 = p.turns then r else .ok wrNone) = .ok wrNone := fun p _ => if_neg (Nat.succ_ne_self p.turns)
  refine ⟨rdvinit_sets h o k team, rdvinit_misuses h o k team, rendezvous_misuses h o k team, ?_, ?_,
    rdvwait_waits h o k team, rdvwait_passes h o k team, ?_, ?_⟩
  · exact fun s sh ln sf th hone ⟨hmay, hcalm, hlast⟩ => arrival_counts (exec_rdvarr h o) (fun _ _ => rfl) rfl hlast (fun _ _ => rfl)
      (.inr ⟨_, rfl, rfl, fun _ _ => id⟩) s sh ln sf th hone ⟨hmay, hcalm⟩
  · exact fun s sh ln sf th hone ⟨hmay, hfrees, hlast⟩ => arrival_turns (exec_rdvarr h o) (fun _ _ => rfl) rfl hlast rfl (fun _ _ => rfl)
      s sh ln sf th hone ⟨hmay, hfrees⟩
  · exact fun s sh ln sf th hone ⟨hmay, hcalm, hlast⟩ => arrival_counts (exec_rdvaw h o) (fun _ _ => rfl) rfl hlast (fun _ s' => congrArg (s', ·) (if_pos rfl))
      (.inl ⟨rfl, fun _ _ => id⟩) s sh ln sf th hone ⟨hmay, hcalm⟩
  · exact fun s sh ln sf th hone ⟨hmay, hfrees, hlast⟩ => arrival_turns (exec_rdvaw h o) (fun _ _ => rfl) rfl hlast rfl
      (fun _ s' => congrArg (s', ·) (hturned _ _)) s sh ln sf th hone ⟨hmay, hfrees⟩

end Sys2Proof.Machine
end

section
/-! Signals and the phase timer (R194, R195, R240 to R242): what a load of a signal changes, SIGWAIT and its later loads, and the overrun of a team. -/

namespace Sys2Proof.Machine

variable {s t u : State} {sh ln k ctx : Nat} {sf : Sheaf} {th : Thread}

/-! ### What a load at the home changes -/

/-- A state that differs from another in what a load at the home changes: slices, the times and copies of one core, what contexts count, stamps. -/
def servedAt (k : Nat) (s t : State) : Prop :=
  t = { s with slices := t.slices, cores := t.cores, ctxs := t.ctxs, nextId := t.nextId } ∧ accounts s t ∧ copiesOnly s t k

theorem servedAt_refl (k : Nat) (s : State) : servedAt k s s := ⟨rfl, fun _ => rfl, rfl, fun _ _ => rfl⟩

theorem servedAt.trans (h : servedAt k s t) (h' : servedAt k t u) : servedAt k s u := by
  obtain ⟨h1, h2, h3, h4⟩ := h
  obtain ⟨h1', h2', h3', h4'⟩ := h'
  exact ⟨by rw [h1', h1], fun j => (h2' j).trans (h2 j), h3'.trans h3, fun j hj => (h4' j hj).trans (h4 j hj)⟩

theorem servedAt.watch (h : servedAt k s t) : (coreAt t k).watch = (coreAt s k).watch := by
  have hwatch := congrArg CoreSt.watch h.2.2.1
  exact hwatch

/-- A change of a context's counts is one. -/
theorem servedAt_updCtx (k : Nat) (s : State) (ctx : Nat) (f : Ctx → Ctx)
    (hf : { f (ctxAt s ctx) with cnt := [], spent := [] } = { ctxAt s ctx with cnt := [], spent := [] }) :
    servedAt k s (updCtx s ctx f) := by
  refine ⟨rfl, fun j => ?_, rfl, fun _ _ => rfl⟩
  by_cases hj : ctx = j
  · subst hj
    rw [ctxAt_updCtx_same, hf]
  · rw [ctxAt_updCtx_other _ _ hj]

theorem servedAt_countEvent (k : Nat) (s : State) (ctx ev n : Nat) : servedAt k s (countEvent s ctx ev n) := by
  simp only [countEvent]
  split
  · exact servedAt_refl k s
  · split
    · exact servedAt_refl k s
    · exact servedAt_updCtx k s ctx _ rfl

theorem servedAt_inject (k : Nat) (s : State) (port ctx n : Nat) : servedAt k s (inject s port ctx n) := by
  simp only [inject]
  split
  · exact servedAt_countEvent k s ctx 6 n
  · exact (servedAt_updCtx k s ctx _ rfl).trans (servedAt_countEvent k _ ctx 6 n)

/-- Steps each of which changes no more than a load does change no more together. -/
theorem servedAt_foldl {α : Type} {f : State → α → State} (hf : ∀ s x, servedAt k s (f s x)) (l : List α) (s : State) : servedAt k s (l.foldl f s) := by
  induction l generalizing s with
  | nil => exact servedAt_refl k s
  | cons x l ih => exact (hf s x).trans (ih _)

theorem servedAt_countSlice (k : Nat) (s : State) (line colour : Nat) : servedAt k s (countSlice s line colour) := by
  refine servedAt_foldl (fun s x => ?_) _ _
  split
  · exact servedAt_countEvent k s _ _ _
  · exact servedAt_refl k s

/-- An update of a line at its home changes slices alone. -/
theorem homeUpdate_frame (s : State) (line hint : Nat) (wr : Bool) (f : SLine → SLine) :
    ∃ x, (homeUpdate s line hint wr f).1 = { s with slices := x } := ⟨_, rfl⟩

theorem servedAt_homeUpdate (k : Nat) (s : State) (line hint : Nat) (wr : Bool) (f : SLine → SLine) : servedAt k s (homeUpdate s line hint wr f).1 := by
  obtain ⟨x, hx⟩ := homeUpdate_frame s line hint wr f
  rw [hx]
  exact ⟨rfl, fun _ => rfl, rfl, fun _ _ => rfl⟩

theorem servedAt_takeRenew (k : Nat) (s : State) (r : Renew) : servedAt k s (takeRenew s r).1 := by
  have hrenew : (takeRenew s r).1 = (homeRenew (countSlice s r.line r.colour) r.line r.pts r.hint).1 := by simp only [takeRenew]
  rw [hrenew]
  exact (servedAt_countSlice k s _ _).trans (servedAt_homeUpdate k _ _ _ _ _)

theorem resolveLine_unwatched {c : CoreSt} (h : c.watch = []) (line wts rts : Nat) : resolveLine c line wts rts = c := by
  unfold resolveLine
  rw [h, List.filterMap_nil, ← h]

theorem countStrikes_unwatched (before : State) (h : (coreAt s k).watch = []) : countStrikes before s k = s := by
  unfold countStrikes
  simp only [h, List.filter_nil, List.foldl_nil]

theorem servedAt_raisePts (k : Nat) (s : State) (n : Nat) : servedAt k s (raisePts (stamp s) k n) := by
  refine ⟨rfl, fun _ => rfl, ?_, fun j hj => coreAt_updCore_other _ _ (Ne.symm hj)⟩
  rw [raisePts, coreAt_updCore_same]
  rfl

/-- A reply that fills nothing at a core without watched loads raises the core's time and no more. -/
theorem takeReply_unwatched {r : Reply} (hfill : r.fill = false) (hw : (coreAt s r.core).watch = []) : takeReply s r = raisePts (stamp s) r.core r.wts := by
  have hupd : (updCore (stamp s) r.core fun c =>
      let c1 := resolveLine { c with pts := max c.pts r.wts } r.line r.wts r.rts
      if r.fill then coreFill c1 r.line r.sector r.wts r.rts r.data r.colour r.hint s.nextId else c1) = raisePts (stamp s) r.core r.wts := by
    have hres := resolveLine_unwatched (c := { coreAt s r.core with pts := max (coreAt s r.core).pts r.wts }) hw r.line r.wts r.rts
    simp only [hfill, Bool.false_eq_true, if_false]
    exact congrArg (setCore (stamp s) r.core) hres
  have hwatch : (coreAt (raisePts (stamp s) r.core r.wts) r.core).watch = [] := (servedAt_raisePts r.core s r.wts).watch.trans hw
  rw [takeReply, hupd, countStrikes_unwatched _ hwatch]

/-- A load of a signal word gives what memory holds. -/
theorem signalLoad_serves {a colour : Nat} (hw : (coreAt s k).watch = []) :
    servedAt k s (signalLoad s k a colour).1 ∧ (signalLoad s k a colour).2 = ofBytes (bytesAt s a 8) := by
  let r : Renew :=
    { core := k, line := lineOf (localOf a), pts := (coreAt s k).pts, w := none, colour := colour, hint := 3, sector := 0, seq := s.nextId }
  have hr : servedAt k s (takeRenew s r).1 := servedAt_takeRenew k s r
  have hreply : (signalLoad s k a colour).1 = raisePts (stamp (takeRenew s r).1) k (takeRenew s r).2.wts :=
    takeReply_unwatched (r := (takeRenew s r).2) (Bool.and_false _) (hr.watch.trans hw)
  refine ⟨by rw [hreply]; exact hr.trans (servedAt_raisePts k _ _), ?_⟩
  show ofBytes (readMem (takeRenew s r).1.mem (localOf a) 8) = _
  rw [hr.1]
  rfl

/-- With nothing on its way a request starts and no more. -/
theorem servedAt_request {e : Env} {line n : Nat} (hq : s.net = netEmpty) : servedAt k s (request s e line n) := by
  have hp : servedAt k s (packet s e n) := servedAt_inject k s _ _ _
  have hnet : (packet s e n).net = netEmpty := by rw [hp.1]; exact hq
  have hreq : request s e line n = packet s e n := by
    unfold request portFirst
    rw [drainSome_quiet hnet]
    simp only [renewSome, hnet, netEmpty, List.filter_nil, List.isEmpty_nil, if_true]
  rw [hreq]
  exact hp

/-! ### SIGWAIT (R241) -/

/-- What a load of SIGWAIT answers: past the word at the threshold, else the wait. -/
def signalAnswer (c : Cap) (thr : Nat) (ext : Bool) (v : Nat) : LaneRes := if thr ≤ v then .ok wrNone else .hold (.sigwait c thr ext)

/-- A load of SIGWAIT from local HBM of its colour, with nothing on its way. -/
theorem signalTest_serves {e : Env} {c : Cap} {a thr : Nat} {ext first : Bool} (hk : coreOf e.sh = k) (hq : quiet s k e.sf.ctx)
    (hreg : regionOf s.fabric.number a = .hbm) (hg : granuleCheck s (localOf a) (capColour c) = .pass) :
    ∃ t, signalTest s e c a thr ext first = (t, signalAnswer c thr ext (ofBytes (bytesAt s a 8))) ∧ servedAt k s t := by
  subst hk
  obtain ⟨hnet, hwatch, -, hmay⟩ := hq
  let s2 := if first then request s e (lineOf (localOf a)) 0 else s
  have hs2 : servedAt (coreOf e.sh) s s2 := by
    show servedAt (coreOf e.sh) s (if first then _ else _)
    split
    · exact servedAt_request hnet
    · exact servedAt_refl _ s
  have haw : awaiting s e.sh e.ln = false := by simp [awaiting, heldStore, hnet, netEmpty]
  have hg2 : granuleCheck s2 (localOf a) (capColour c) = .pass := by rw [hs2.1]; exact hg
  have hport : portReady s e = true := hmay
  obtain ⟨hserves, hval⟩ := signalLoad_serves (a := a) (colour := capColour c) (hs2.watch.trans hwatch)
  have hbytes : bytesAt s2 a 8 = bytesAt s a 8 := by rw [hs2.1]; rfl
  refine ⟨(signalLoad s2 (coreOf e.sh) a (capColour c)).1, ?_, hs2.trans hserves⟩
  simp only [signalTest, drainOwn_quiet hnet, haw, Bool.false_eq_true, if_false, hreg, hport, Bool.not_true, Bool.and_false]
  show (match granuleCheck s2 (localOf a) (capColour c) with
    | .fail => (s2, LaneRes.fault (mkFault causeGranule 0x74 a))
    | .transit => (heldLane s2 e (localOf a), LaneRes.hold (.sigwait c thr ext))
    | .pass =>
      let r := signalLoad s2 (coreOf e.sh) a (capColour c)
      (r.1, if thr ≤ r.2 then LaneRes.ok wrNone else LaneRes.hold (.sigwait c thr ext))) = _
  simp only [hg2, hval, hbytes, signalAnswer]

end Sys2Proof.Machine
end

section
/-! SIGWAIT and PHASE in one lane, the later loads of a wait, the overrun of a team, and the settled statement (R194, R195, R240 to R242). -/

namespace Sys2Proof.Machine

variable {s t : State} {sh ln : Nat} {sf : Sheaf} {th : Thread}

/-! ### SIGWAIT and PHASE in one lane -/

/-- What a lane does that settles after a load at its core's home. -/
theorem sigwait_settles {h : Guard} {o : Tri} {a : Nat} {new : Thread} (hone : oneLane s h sh ln sf th)
    (hmay : mayAccess (soloEnv s sh ln sf th) (capA (soloEnv s sh ln sf th) o.a) accLoad 0 8 8 a) (hq : quiet s (coreOf sh) sf.ctx)
    (hset : ∀ t, runnerOf t sf = runnerOf s sf → settle t sf th (signalAnswer (capA (soloEnv s sh ln sf th) o.a) (srcPair (soloEnv s sh ln sf th) o.b).toNat
      (decide (o.c.num % 2 = 1)) (ofBytes (bytesAt s a 8))) = .ok new) :
    ∃ t, exec (.sigwait h o) s = .next t ∧ becomes s t sh ln new ∧
      t = { s with sheaves := t.sheaves, slices := t.slices, cores := t.cores, ctxs := t.ctxs, nextId := t.nextId, focus := none } ∧
        accounts s t ∧ copiesOnly s t (coreOf sh) := by
  obtain ⟨haddr, hreg, hg⟩ := hmay
  obtain ⟨t, ht, hserves⟩ := signalTest_serves (e := soloEnv s sh ln sf th) (thr := (srcPair (soloEnv s sh ln sf th) o.b).toNat)
    (ext := decide (o.c.num % 2 = 1)) (first := true) rfl hq hreg hg
  obtain ⟨hframe, hacc, hcop⟩ := hserves
  have hsh : t.sheaves = s.sheaves := by rw [hframe]
  have hth : thread? t sh ln = some th := (thread?_congr hsh sh ln).trans (thread_one hone)
  let s' : State := { updThread t sh ln (fun _ => new) with focus := none }
  have hs' : s' = { t with sheaves := s'.sheaves, focus := none } := congrArg (fun x : State => { x with focus := none }) (updThread_frame t sh ln fun _ => new)
  have hrun : exec (.sigwait h o) s = .next s' := by
    refine congrArg Host.Outcome.next (runWord_solo_eq (s := s) (k := cfgNR h) hone rfl rfl (t := t) ?_ ?_ hsh ?_ ?_ ?_ (hset t ?_))
    · simp only [haddr]
      exact ht
    · rw [hframe]
    · unfold signalAnswer; split <;> rfl
    · unfold signalAnswer; split <;> rfl
    · unfold signalAnswer; split <;> rfl
    · rw [hframe]; rfl
  refine ⟨s', hrun, (becomes_updThread hth new).congr hsh.symm rfl, ?_, ?_, ?_⟩
  · rw [hs', hframe]
  · rw [hs']; exact hacc
  · rw [hs']; exact hcop

/-- A team whose timer counts to a limit, or does not count. -/
def phaseTimed (team : Team) (n : Word) : Team := { team with phaseN := if n = 0 then none else some n.toNat, phaseCount := 0 }

theorem phase_sets (h : Guard) (o : Tri) (k : Nat) (team : Team) : aloneDoes (.phase h o) h
    (fun e => e.sf.team = some k ∧ Tab.at? e.s.teams k = some team) fun e t => goesPast e t wrNone ∧
      t = { e.s with sheaves := t.sheaves, focus := none, teams := Tab.put e.s.teams k (phaseTimed team (src e o.a 1)) } := by
  rintro s sh ln sf th hone ⟨hk, hT⟩
  let n := src (soloEnv s sh ln sf th) o.a 1
  let t : State := { s with teams := Tab.put s.teams k (phaseTimed team n) }
  obtain ⟨-, -, hs, hl, -, hnorun, -, hrunner, hpc⟩ := id hone
  have hth : thread? t sh ln = some th := (thread?_congr (t := s) rfl sh ln).trans (thread_one hone)
  have hzero : n.toNat = 0 ↔ n = 0 := ⟨fun hn => BitVec.eq_of_toNat_eq hn, fun hn => by rw [hn]; rfl⟩
  have hrun : exec (.phase h o) s = .next { updThread t sh ln (fun _ => retired th wrNone) with focus := none } := by
    refine congrArg Host.Outcome.next (runWord_solo_eq (s := s) (k := cfgNRR h) (t := t) (r := .ok wrNone) hone rfl rfl ?_ rfl rfl
      rfl rfl rfl (settle_past hnorun hrunner hpc))
    rw [soloEnv_sf] at hk
    rw [soloEnv_s] at hT
    simp only [soloEnv_sf, hk, updTeam_eq hT]
    simp only [t, phaseTimed, ← hzero]
    rfl
  refine ⟨_, hrun, ((becomes_updThread hth _).congr rfl rfl).goesPast, ?_⟩
  exact congrArg (fun x : State => { x with focus := none }) (updThread_frame t sh ln fun _ => retired th wrNone)

/-! ### Later loads of a wait -/

theorem capBase_lt (c : Cap) : capBase c < 2 ^ 52 := (c.bits.extractLsb' 76 52).isLt

theorem sigwaitReload_loads {c : Cap} {thr : Nat} {ext : Bool} (hst : standing s sh ln sf th) (hh : th.hold = some (.sigwait c thr ext))
    (hreg : regionOf s.fabric.number (capBase c) = .hbm) (hg : granuleCheck s (localOf (capBase c)) (capColour c) = .pass) (hq : quiet s (coreOf sh) sf.ctx) :
    leadsTo (.sigwaitReload sh ln) s fun t => (if thr ≤ ofBytes (bytesAt s (capBase c) 8) then goesOn s t sh ln th wrNone else t.sheaves = s.sheaves) ∧
      accounts s t ∧ t = { s with sheaves := t.sheaves, slices := t.slices, cores := t.cores, ctxs := t.ctxs, nextId := t.nextId } := by
  obtain ⟨t, ht, hframe, hacc, -⟩ := signalTest_serves (e := soloEnv s sh ln sf th) (thr := thr) (ext := ext) (first := false) rfl hq hreg hg
  have hsh : t.sheaves = s.sheaves := by rw [hframe]
  obtain ⟨⟨hs, hl, hnorun, hrunner, hpc⟩, hmates⟩ := id hst
  have hth : thread? s sh ln = some th := by rw [thread?_of_sheaf? hs, hl]
  have hreload : reloadSignal s sh ln = match signalTest s (soloEnv s sh ln sf th) c (capBase c) thr ext false with
      | (s1, .ok w) => resume s1 sh ln w
      | (s1, .fault f) => resumeFault s1 sh ln f
      | (s1, _) => s1 := by
    simp only [reloadSignal, hs, hth, hh, Nat.mod_eq_of_lt (capBase_lt c), hreg, true_or, if_true]
    rfl
  refine ⟨reloadSignal s sh ln, rfl, ?_⟩
  rw [hreload, ht]
  unfold signalAnswer
  by_cases hthr : thr ≤ ofBytes (bytesAt s (capBase c) 8)
  · simp only [if_pos hthr]
    have hstt : standing t sh ln sf th := ⟨⟨by unfold sheaf?; rw [hsh]; exact hs, hl, hnorun, by rw [hframe]; exact hrunner, hpc⟩, hmates⟩
    obtain ⟨hb, hfr⟩ := becomes_resume hstt
    refine ⟨(hb.congr hsh.symm rfl).goesOn, ?_, ?_⟩
    · rw [hfr]; exact hacc
    · rw [hfr, hframe]
  · simp only [if_neg hthr]
    exact ⟨hsh, hacc, by rw [hframe]⟩

theorem sigwaitHostPoll_tests {c : Cap} {thr : Nat} {ext : Bool} (v : DWord) (hst : standing s sh ln sf th) (hh : th.hold = some (.sigwait c thr ext))
    (hreg : regionOf s.fabric.number (capBase c) = .host) : leadsTo (.sigwaitHostPoll sh ln v) s fun t =>
      if thr ≤ v.toNat then goesOn s t sh ln th wrNone ∧ signalsGivenUp s t sh ln ∧ t = { s with sheaves := t.sheaves, net := t.net } else t = s := by
  obtain ⟨⟨hs, hl, -⟩, -⟩ := id hst
  have hth : thread? s sh ln = some th := by rw [thread?_of_sheaf? hs, hl]
  have hpoll : exec (.sigwaitHostPoll sh ln v) s = .next (if thr ≤ v.toNat then resume (dropSig s sh ln) sh ln wrNone else s) := by
    show Host.Outcome.next _ = _
    simp only [hth, hh, hreg, true_and]
  refine ⟨_, hpoll, ?_⟩
  by_cases hthr : thr ≤ v.toNat
  · simp only [if_pos hthr, dropSig_eq]
    let s1 : State := { s with net := netWithoutSignals s.net sh ln }
    have hst1 : standing s1 sh ln sf th := hst
    obtain ⟨hb, hfr⟩ := becomes_resume hst1
    exact ⟨(hb.congr rfl rfl).goesOn, signalsGivenUp_of_net (by rw [hfr]), by rw [hfr]⟩
  · simp only [if_neg hthr]

/-! ### The overrun of a team (R194, R195) -/

theorem phaseMargin_eq (m : Word) (n : Nat) : phaseMargin m n = n * (m.toNat / 2 ^ 24) / 100 + m.toNat % 2 ^ 24 := by
  have hhigh : (m.extractLsb' 24 8).toNat = m.toNat / 2 ^ 24 := by
    have := m.isLt
    rw [BitVec.extractLsb'_toNat, Nat.shiftRight_eq_div_pow, Nat.mod_eq_of_lt (by omega)]
  have hlow : (m.extractLsb' 0 24).toNat = m.toNat % 2 ^ 24 := by rw [BitVec.extractLsb'_toNat, Nat.shiftRight_zero]
  rw [phaseMargin, hhigh, hlow]

theorem phaseOverrun_tells (s : State) (k n : Nat) (team : Team) (x : Nat × Nat) (th : Thread) (hT : Tab.at? s.teams k = some team) (hn : team.phaseN = some n)
    (hover : n + (n * ((ctxAt s team.ctx).phmargin.toNat / 2 ^ 24) / 100 + (ctxAt s team.ctx).phmargin.toNat % 2 ^ 24) < team.phaseCount)
    (hx : teamTarget s { ctx := team.ctx, launch := team.launch, stage := team.stage, teamid := team.index, gangid := 0, tid := 0 } = some x)
    (hth : thread? s x.1 x.2 = some th) :
    leadsTo (.phaseOverrun k) s fun t => becomes s t x.1 x.2 { th with overrun := some n } ∧
      t = { s with sheaves := t.sheaves, teams := Tab.put s.teams k { team with phaseN := none }, agenda := s.agenda ++ [.asyncFault x.1 x.2] } := by
  have hdue : overdue s team = true := by simpa only [overdue, hn, phaseMargin_eq, decide_eq_true_eq] using hover
  let s1 : State := { s with teams := Tab.put s.teams k { team with phaseN := none } }
  have hx1 : teamTarget s1 { ctx := team.ctx, launch := team.launch, stage := team.stage, teamid := team.index, gangid := 0, tid := 0 } = some x := hx
  have hth1 : thread? s1 x.1 x.2 = some th := (thread?_congr (t := s) rfl _ _).trans hth
  have hexec : exec (.phaseOverrun k) s = .next (due (updThread s1 x.1 x.2 fun th => { th with overrun := some n }) (.asyncFault x.1 x.2)) := by
    show Host.Outcome.next _ = _
    simp only [hT, hdue, if_true, updTeam_eq hT, hn]
    rw [hx1]
  rw [updThread_at (new := { th with overrun := some n }) hth1 rfl] at hexec
  refine ⟨_, hexec, (becomes_updThread hth1 _).congr rfl rfl, ?_⟩
  exact congrArg (fun y : State => due y (.asyncFault x.1 x.2)) (updThread_frame s1 x.1 x.2 fun _ => { th with overrun := some n })

/-- Settles O29: a load of a signal answers what memory holds and changes no more than its service (`signalTest_serves`). -/
theorem signalsAndPhase : Obligations.SignalsAndPhase := by
  refine ⟨fun h o a => ⟨?_, ?_, fun k team => phase_sets h o k team⟩, ?_, ?_⟩
  · rintro s sh ln sf th hone ⟨⟨hmay, hq⟩, hthr⟩
    obtain ⟨t, ht, hb, hfr⟩ := sigwait_settles (new := retired th wrNone) hone hmay hq fun t hrun => by
      obtain ⟨-, -, -, -, -, hnorun, -, hrunner, hpc⟩ := hone
      rw [signalAnswer, if_pos (by exact hthr)]
      exact settle_past hnorun (hrun.trans hrunner) hpc
    exact ⟨t, ht, hb.goesPast, hfr⟩
  · rintro s sh ln sf th hone ⟨⟨hmay, hq⟩, hthr⟩
    obtain ⟨t, ht, hb, hfr⟩ := sigwait_settles hone hmay hq fun t _ => by
      rw [signalAnswer, if_neg (Nat.not_le.2 (by exact hthr))]
      rfl
    exact ⟨t, ht, hb, hfr⟩
  · exact fun s sh ln sf th c thr ext v hst hh => ⟨sigwaitReload_loads hst hh, sigwaitHostPoll_tests v hst hh⟩
  · exact phaseOverrun_tells

end Sys2Proof.Machine
end

section
/-! The boundary of a season over a table of contexts that is not in rising order (R269). -/

namespace Sys2Proof.Machine

/-- Two free contexts, listed with the larger number first. -/
def fallingCtxs : State := { State.reset with ctxs := [(1, ctxFree), (0, ctxFree)] }

/-- The quotas are renewed context by context, and each write puts its record in its rising place. -/
theorem exec_seasonBoundary_fallingCtxs :
    exec .seasonBoundary fallingCtxs = .next { fallingCtxs with season := 1, ctxs := [(0, ctxFree), (1, ctxFree)] } := rfl

/-- Refutes O43: its clause on the boundary of a season has the listed order of the contexts kept, and asks of the table before only that no number stands in it
twice. Where the numbers fall, the writes of the renewed quotas put them in rising order. -/
theorem not_dispatchAndRetire : ¬ Obligations.DispatchAndRetire := by
  unfold Obligations.DispatchAndRetire
  rintro ⟨-, hseason, -⟩
  obtain ⟨t, ht, -, hkeys, -⟩ := hseason fallingCtxs (by simp [fallingCtxs, State.reset]) (by decide)
  rw [exec_seasonBoundary_fallingCtxs] at ht
  cases ht
  exact absurd hkeys (by decide)

end Sys2Proof.Machine
end

section
/-! Runner launches: the departure of a thread that keeps a count of losses beyond the list of those that wait (R213, R389). -/

namespace Sys2Proof.Machine

/-- A runner launch of one segment, the code from offset 0 to 64. -/
def oneSegment : Runner :=
  { ovf := nullCap, rsize := 1, segs := [{ codeOff := 0, codeLen := 64, choice := 0, gather := 0, fifob := 1, holders := [0], pending := none, draining := [] }],
    fifos := [], depths := [], banks := [], threads := 2, exits := 0, started := true }

/-- A thread that travels to offset 8: no loss is listed, and one more is counted. -/
def countingTraveller : Thread := { threadStart with hold := some (.travel 8 0), lossMore := 1 }

/-- The travelling thread in lane 0, and thread 1 of its team in lane 1; nothing is on its way. -/
def countedDeparture : State :=
  { State.reset with
    launches := [(0, { ctx := 0, code := nullCap, args := nullCap, signal := nullCap, stack := nullCap, entry := 0, n := 1, g := 1, w := 2, s := 1, regs := 64,
                       preds := 16, scratch := 0, stksz := 0, accHint := 0, allocRegs := 192, allocPreds := 48, tiles := 0, left := 1, handle := none,
                       queue := none, pts := 0, runner := some oneSegment })],
    ctxs := [(0, { ctxFree with state := .running, quota := 65535 })],
    sheaves := [(0, { sheafEmpty with width := 2, lanes := [(0, countingTraveller), (1, { threadStart with lane := 1, tid := 1 })] })] }

/-- The thread departs, and the thread of its team that R195 selects takes over its count. -/
theorem countedDeparture_passesCount : leadsTo (.travelDepart 0 0) countedDeparture fun t =>
    thread? t 0 1 = some { threadStart with lane := 1, tid := 1, lossMore := 1 } :=
  ⟨_, rfl, rfl⟩

/-- Refutes O44: its clause on departures has every other live lane of the sheaf kept, and asks of the travelling thread that no loss is listed and no overrun
waits, but not that its count of further losses is 0 (as O19 asks of a thread that exits). That count passes to another thread of the team. -/
theorem not_runnersComplete : ¬ Obligations.RunnersComplete := by
  unfold Obligations.RunnersComplete
  rintro ⟨-, -, htravel, -⟩
  obtain ⟨t, ht, -, -, -, -, hkept, -⟩ := htravel countedDeparture 0 0 0 _ countingTraveller 8 0 _ oneSegment rfl rfl rfl rfl rfl (by decide) rfl rfl
  obtain ⟨t', ht', hcount⟩ := countedDeparture_passesCount
  obtain rfl : t' = t := by injection ht'.symm.trans ht
  have hsame := hkept 1 { threadStart with lane := 1, tid := 1 } (by decide) rfl rfl
  exact absurd (hcount.symm.trans hsame) (by decide)

end Sys2Proof.Machine
end

section
/-! Tenancy: the end of a restore while a die is hot (R398, R444). -/

namespace Sys2Proof.Machine

/-- Context 0 is restored with no image on the cores of cluster 0, which its function has in this quantum, while die 0 is hot. -/
def hotRestore : State :=
  { State.reset with
    ctxs := [(0, { ctxFree with state := .restoring })], dies := [(0, { dieReset with hot := true })],
    host := { State.reset.host with shares := [(0, [0])], grants := [(0, [0, 1, 2, 3, 4, 5, 6])] } }

/-- The restored context is stopped at once. -/
theorem exec_restore_hotRestore :
    exec (.restore 0) hotRestore = .next { hotRestore with ctxs := [(0, stopping { ctxFree with state := .restoring } .thermal)] } := rfl

/-- Refutes O45: its clause on the end of a restore has the context run wherever its function is enabled and keeps its clusters. A die that is hot by then
stops it for the thermal limit instead. -/
theorem not_tenancyComplete : ¬ Obligations.TenancyComplete := by
  unfold Obligations.TenancyComplete
  rintro ⟨-, -, -, hrestore, -⟩
  obtain ⟨-, hend, -⟩ := hrestore hotRestore 0
  obtain ⟨t, ht, ⟨hruns, -⟩, -⟩ := (hend rfl (by simp [noRunner, hotRestore, State.reset]) (by simp [noAcquire, hotRestore, State.reset]) rfl rfl).1 rfl
  rw [exec_restore_hotRestore] at ht
  cases ht
  exact absurd (congrArg Ctx.state hruns) (by decide)

end Sys2Proof.Machine
end

section
/-! LANE words: what each lane writes from what the lanes of its gang held before the word (R226 to R234). -/

namespace Sys2Proof.Machine

/-- The lane that SHFL reads: the participating one nearest at or below the position asked for, and none beyond the gang (R231). -/
def shflSource (o : Tri) (e : Env) (ps : List (Nat × Env)) : Option (Nat × Env) :=
  if e.sf.width ≤ (src e o.b 0).toNat then none else (ps.filter fun x => x.1 ≤ (src e o.b 0).toNat).getLast?

/-- SHFL writes what the lane it reads holds in A, and its own lane's C where it reads none (R231). -/
theorem shfl_writes (h : Guard) (o : Tri) : wordWrites (.shfl h o) (cfg h) (fun _ => True) fun e =>
    match shflSource o e (gangParts e) with
      | some x => wrT o.d o.t.toNat (srcT x.2 o.a o.t.toNat)
      | none => wrT o.d o.t.toNat (srcT e o.c o.t.toNat) := by
  have hw : wordWrites (.shfl h o) (cfg h) (fun _ => True) fun e => wrT o.d o.t.toNat (match shflSource o e (gangParts e) with
      | some x => srcT x.2 o.a o.t.toNat
      | none => srcT e o.c o.t.toNat) := computeOk_writes fun _ => rfl
  convert hw using 2 with e
  cases shflSource o e (gangParts e) <;> rfl

/-- Settles O6: no LANE word has a fault of its own, so each completes by `computeOk_writes` with what its lane makes of `gangParts`, the participating lanes as they
were before the word; SHFL by `shfl_writes`. -/
theorem laneWordsComplete : Obligations.LaneWordsComplete := by
  intro h o
  exact ⟨shfl_writes h o, computeOk_writes fun _ => rfl, computeOk_writes fun _ => rfl, computeOk_writes fun _ => rfl, computeOk_writes fun _ => rfl,
    computeOk_writes fun _ => rfl, computeOk_writes fun _ => rfl, computeOk_writes fun _ => rfl⟩

end Sys2Proof.Machine
end

section
/-! The bytes and tags of a line as memory holds them (R5, R28, R262). -/

namespace Sys2Proof.Machine

variable {s : State}

theorem ofBytes_lt (l : List Byte) : ofBytes l < 2 ^ (8 * l.length) := by
  induction l with
  | nil => simp [ofBytes]
  | cons b l ih =>
    have hb := b.isLt
    have hcons : ofBytes (b :: l) = ofBytes l * 256 + b.toNat := rfl
    rw [hcons, List.length_cons, Nat.mul_succ 8, Nat.pow_add]
    omega

/-- The value of bytes without the first ones. -/
theorem ofBytes_shiftRight (l : List Byte) (k : Nat) : ofBytes l >>> (8 * k) = ofBytes (l.drop k) := by
  induction k generalizing l with
  | zero => rfl
  | succ k ih =>
    cases l with
    | nil => simp [ofBytes]
    | cons b l =>
      have hb := b.isLt
      have hcons : ofBytes (b :: l) >>> 8 = ofBytes l := by
        show (ofBytes l * 256 + b.toNat) >>> 8 = _
        rw [Nat.shiftRight_eq_div_pow]
        omega
      rw [Nat.mul_succ, Nat.add_comm, Nat.shiftRight_add, hcons, ih, List.drop_succ_cons]

/-- The bytes of a value of bytes are its first ones. -/
theorem toBytes_ofBytes {l : List Byte} {n : Nat} (h : n ≤ l.length) : toBytes n (ofBytes l) = l.take n := by
  induction n generalizing l with
  | zero => rfl
  | succ n ih =>
    cases l with
    | nil => simp at h
    | cons b l =>
      have hb := b.isLt
      have hcons : ofBytes (b :: l) = ofBytes l * 256 + b.toNat := rfl
      have hlow : BitVec.ofNat 8 (ofBytes (b :: l)) = b := BitVec.eq_of_toNat_eq (by rw [BitVec.toNat_ofNat, hcons]; omega)
      have hhigh : ofBytes (b :: l) / 256 = ofBytes l := by rw [hcons]; omega
      rw [toBytes, hlow, hhigh, ih (by simpa using h), List.take_succ_cons]

@[simp] theorem readMem_length (m : Memory) (a n : Nat) : (readMem m a n).length = n := by
  induction n generalizing a with
  | zero => rfl
  | succ n ih => rw [readMem, List.length_cons, ih]

/-- Bytes within those read are those read at their own address. -/
theorem readMem_drop_take (m : Memory) (a : Nat) {k n len : Nat} (h : k + n ≤ len) : ((readMem m a len).drop k).take n = readMem m (a + k) n := by
  induction len generalizing a k n with
  | zero =>
    obtain ⟨rfl, rfl⟩ : k = 0 ∧ n = 0 := by omega
    rfl
  | succ len ih =>
    cases k with
    | succ k => rw [readMem, List.drop_succ_cons, ih _ (by omega), Nat.add_assoc, Nat.add_comm 1]
    | zero =>
      cases n with
      | zero => rfl
      | succ n =>
        have htail := ih (a + 1) (k := 0) (n := n) (by omega)
        rw [List.drop_zero, Nat.add_zero] at htail
        rw [readMem, List.drop_zero, List.take_succ_cons, htail]
        rfl

/-- Bytes of a line's data are the bytes of memory there. -/
theorem copyBytes_lineData (line : Nat) {off n : Nat} (h : off + n ≤ 128) : copyBytes (lineData s line) off n = readMem s.mem (line * 128 + off) n := by
  have hval : ∀ w v, v < 2 ^ w → (BitVec.ofNat w v).toNat = v := fun w v hv => by rw [BitVec.toNat_ofNat, Nat.mod_eq_of_lt hv]
  have hfit := ofBytes_lt (readMem s.mem (line * 128) 128)
  rw [readMem_length] at hfit
  rw [copyBytes, lineData, hval _ _ hfit, ofBytes_shiftRight, toBytes_ofBytes, readMem_drop_take _ _ h]
  rw [List.length_drop, readMem_length]
  omega

/-- A number summed from bits at their places: it fits them, and holds each. -/
theorem sumBits_spec (p : Nat → Bool) (n : Nat) :
    (List.range n).foldl (fun acc k => acc + if p k then 2 ^ k else 0) 0 < 2 ^ n ∧
      ∀ j, j < n → ((List.range n).foldl (fun acc k => acc + if p k then 2 ^ k else 0) 0).testBit j = p j := by
  induction n with
  | zero => exact ⟨by simp, fun j hj => absurd hj (by omega)⟩
  | succ n ih =>
    obtain ⟨hlt, hbits⟩ := ih
    rw [List.range_succ, List.foldl_append, List.foldl_cons, List.foldl_nil]
    generalize (List.range n).foldl (fun acc k => acc + if p k then 2 ^ k else 0) 0 = v at hlt hbits
    have hzero : v.testBit n = false := Nat.testBit_lt_two_pow hlt
    refine ⟨by split <;> omega, fun j hj => ?_⟩
    rcases Nat.lt_succ_iff_lt_or_eq.1 hj with hj | rfl
    · rw [← hbits j hj]
      split
      · rw [Nat.add_comm, Nat.testBit_two_pow_add_gt hj]
      · rfl
    · split
      · next hp => rw [Nat.add_comm, Nat.testBit_two_pow_add_eq, hzero, hp]; rfl
      · next hp => simpa [hzero] using hp

/-- A tag bit of a line is the tag of its granule. -/
theorem getLsbD_lineTags (s : State) (line : Nat) {j : Nat} (h : j < 8) : (lineTags s line).getLsbD j = Tab.get false s.tags (line * 8 + j) := by
  obtain ⟨-, hbits⟩ := sumBits_spec (fun k => Tab.get false s.tags (line * 8 + k)) 8
  rw [lineTags, BitVec.getLsbD_ofNat, hbits j h]
  simp [h]

end Sys2Proof.Machine
end

section
/-! A lane's load of local HBM with nothing on its way: it answers the bytes and the tag that memory holds, and changes no more than its service
(R32, R272, R273). -/

namespace Sys2Proof.Machine

variable {s t u : State} {sh ln k ctx : Nat}

/-! ### What a request and a Renew leave alone -/

theorem countEvent_frame (s : State) (ctx ev n : Nat) : ∃ x, countEvent s ctx ev n = { s with ctxs := x } := by
  simp only [countEvent]
  split
  · exact ⟨_, rfl⟩
  · split
    · exact ⟨_, rfl⟩
    · exact ⟨_, rfl⟩

theorem inject_frame (s : State) (port ctx n : Nat) : ∃ x, inject s port ctx n = { s with ctxs := x } := by
  simp only [inject]
  split
  · exact countEvent_frame s ctx 6 n
  · obtain ⟨x, hx⟩ := countEvent_frame (updCtx s ctx fun c => { c with spent := Tab.put c.spent port (Tab.get 0 c.spent port + n) }) ctx 6 n
    exact ⟨x, hx⟩

theorem countSlice_frame (s : State) (line colour : Nat) : ∃ x, countSlice s line colour = { s with ctxs := x } := by
  refine List.foldlRecOn (motive := fun u : State => ∃ x, u = { s with ctxs := x }) s.ctxs _ ⟨s.ctxs, rfl⟩ fun u hu c _ => ?_
  obtain ⟨x, rfl⟩ := hu
  split
  · exact countEvent_frame _ _ _ _
  · exact ⟨x, rfl⟩

/-- With nothing on its way a request changes what contexts count alone. -/
theorem request_frame {e : Env} {line n : Nat} (hq : s.net = netEmpty) : ∃ x, request s e line n = { s with ctxs := x } := by
  obtain ⟨x, hx⟩ := inject_frame s (coreOf e.sh) e.sf.ctx (flits n)
  have hnet : (packet s e n).net = netEmpty := by rw [packet, hx]; exact hq
  refine ⟨x, ?_⟩
  unfold request portFirst
  rw [drainSome_quiet hnet]
  simp only [renewSome, hnet, netEmpty, List.filter_nil, List.isEmpty_nil, if_true]
  exact hx

theorem takeRenew_frame (s : State) (r : Renew) : ∃ x y, (takeRenew s r).1 = { s with ctxs := x, slices := y } := by
  obtain ⟨x, hx⟩ := countSlice_frame s r.line r.colour
  obtain ⟨y, hy⟩ := homeUpdate_frame (countSlice s r.line r.colour) r.line r.hint false fun z =>
    { z with rts := max (max z.rts (z.wts + Config.lease)) (r.pts + Config.lease) }
  exact ⟨x, y, by
    show (homeRenew (countSlice s r.line r.colour) r.line r.pts r.hint).1 = _
    rw [homeRenew, hy, hx]⟩

/-! ### Copies that hold what memory holds -/

/-- Every copy in a core's data cache holds the data and tags of its line in memory. -/
def copiesFaithful (s : State) (k : Nat) : Prop :=
  ∀ line cp, Tab.at? (coreAt s k).dcache line = some cp → cp.data = lineData s line ∧ cp.tags = lineTags s line

/-- A fill changes a core's data cache alone. -/
theorem coreFill_frame (c : CoreSt) (line sector wts rts : Nat) (data : Option (BitVec 1024 × Byte)) (colour hint now : Nat) :
    ∃ d, coreFill c line sector wts rts data colour hint now = { c with dcache := d } := by
  unfold coreFill
  split
  · exact ⟨_, rfl⟩
  · exact ⟨_, rfl⟩
  · split
    · exact ⟨_, rfl⟩
    · exact ⟨c.dcache, rfl⟩
  · exact ⟨c.dcache, rfl⟩

/-- A copy after a fill holds what it held, or it is the line's and holds the data that the fill carries. -/
theorem coreFill_holds {c : CoreSt} {line sector wts rts : Nat} {data : Option (BitVec 1024 × Byte)} {colour hint now n : Nat} {cp : Copy}
    (h : Tab.at? (coreFill c line sector wts rts data colour hint now).dcache n = some cp) :
    (∃ old, Tab.at? c.dcache n = some old ∧ cp.data = old.data ∧ cp.tags = old.tags) ∨ (n = line ∧ data = some (cp.data, cp.tags)) := by
  have hput : ∀ {d : Tab Copy} {x : Copy}, Tab.at? (Tab.put d line x) n = some cp → (n = line ∧ cp = x) ∨ Tab.at? d n = some cp := by
    intro d x hd
    by_cases hn : line = n
    · subst hn
      rw [Tab.at?_put_same] at hd
      exact .inl ⟨rfl, (Option.some.inj hd).symm⟩
    · rw [Tab.at?_put_other _ _ hn] at hd
      exact .inr hd
  unfold coreFill at h
  split at h
  · next old hold =>
    rcases hput h with ⟨rfl, rfl⟩ | h
    · exact .inl ⟨old, hold, rfl, rfl⟩
    · exact .inl ⟨cp, h, rfl, rfl⟩
  · rcases hput h with ⟨rfl, rfl⟩ | h
    · exact .inr ⟨rfl, rfl⟩
    · exact .inl ⟨cp, h, rfl, rfl⟩
  · split at h
    · next b out _ =>
      rcases hput h with ⟨rfl, rfl⟩ | h
      · exact .inr ⟨rfl, rfl⟩
      · cases out with
        | none => exact .inl ⟨cp, h, rfl, rfl⟩
        | some l =>
          by_cases hl : l = n
          · subst hl
            rw [Tab.at?_drop_same] at h
            cases h
          · rw [Tab.at?_drop_other _ hl] at h
            exact .inl ⟨cp, h, rfl, rfl⟩
    · exact .inl ⟨cp, h, rfl, rfl⟩
  · exact .inl ⟨cp, h, rfl, rfl⟩

/-- A core without watched loads that changes its time and its data cache alone. -/
theorem servedAt_updCore (s : State) (k : Nat) (f : CoreSt → CoreSt) (hf : ∃ p d, f (coreAt s k) = { coreAt s k with pts := p, dcache := d }) :
    servedAt k s (updCore (stamp s) k f) := by
  obtain ⟨p, d, hf⟩ := hf
  refine ⟨rfl, fun _ => rfl, ?_, fun j hj => coreAt_updCore_other _ _ (Ne.symm hj)⟩
  rw [coreAt_updCore_same, show coreAt (stamp s) k = coreAt s k from rfl, hf]

/-- The core a reply reaches, where it has no watched loads (R272). -/
def replied (s : State) (r : Reply) (c : CoreSt) : CoreSt :=
  if r.fill then coreFill { c with pts := max c.pts r.wts } r.line r.sector r.wts r.rts r.data r.colour r.hint s.nextId else { c with pts := max c.pts r.wts }

theorem replied_frame (s : State) (r : Reply) (c : CoreSt) : ∃ p d, replied s r c = { c with pts := p, dcache := d } := by
  unfold replied
  split
  · obtain ⟨d, hd⟩ := coreFill_frame { c with pts := max c.pts r.wts } r.line r.sector r.wts r.rts r.data r.colour r.hint s.nextId
    exact ⟨_, d, hd⟩
  · exact ⟨_, c.dcache, rfl⟩

/-- A reply at a core without watched loads raises the core's time and fills its line's copy, and no more. -/
theorem takeReply_eq {r : Reply} (hw : (coreAt s r.core).watch = []) : takeReply s r = updCore (stamp s) r.core (replied s r) := by
  have hres := resolveLine_unwatched (c := { coreAt s r.core with pts := max (coreAt s r.core).pts r.wts }) hw r.line r.wts r.rts
  have hupd : (updCore (stamp s) r.core fun c =>
      let c1 := resolveLine { c with pts := max c.pts r.wts } r.line r.wts r.rts
      if r.fill then coreFill c1 r.line r.sector r.wts r.rts r.data r.colour r.hint s.nextId else c1) = updCore (stamp s) r.core (replied s r) := by
    refine congrArg (setCore (stamp s) r.core) ?_
    show (if r.fill = true then coreFill (resolveLine _ _ _ _) _ _ _ _ _ _ _ _ else resolveLine _ _ _ _) = _
    rw [show coreAt (stamp s) r.core = coreAt s r.core from rfl, hres]
    rfl
  have hwatch : (coreAt (updCore (stamp s) r.core (replied s r)) r.core).watch = [] :=
    (servedAt_updCore s r.core _ (replied_frame s r _)).watch.trans hw
  rw [takeReply, hupd, countStrikes_unwatched _ hwatch]

theorem copiesFaithful.reply {r : Reply} (h : copiesFaithful s r.core)
    (hr : ∀ d, r.data = some d → d = (lineData s r.line, lineTags s r.line)) : copiesFaithful (updCore (stamp s) r.core (replied s r)) r.core := by
  intro line cp hcp
  rw [coreAt_updCore_same, show coreAt (stamp s) r.core = coreAt s r.core from rfl] at hcp
  show cp.data = lineData s line ∧ cp.tags = lineTags s line
  unfold replied at hcp
  split at hcp
  · rcases coreFill_holds hcp with ⟨old, hold, hd, ht⟩ | ⟨rfl, hd⟩
    · rw [hd, ht]
      exact h line old hold
    · exact Prod.mk.inj (hr _ hd)
  · exact h line cp hcp

theorem at?_of_cacheHit {l colour : Nat} {cp : Copy} (h : cacheHit s k l colour = some cp) : Tab.at? (coreAt s k).dcache (lineOf l) = some cp := by
  unfold cacheHit at h
  split at h
  · next x hx =>
    split at h
    · rw [hx, ← h]
    · cases h
  · cases h

/-- A copy that is used holds what it held. -/
theorem copiesFaithful.use {line used : Nat} {cp : Copy} (h : copiesFaithful s k) (hcp : Tab.at? (coreAt s k).dcache line = some cp) :
    copiesFaithful (updCore (stamp s) k fun c => { c with pts := max c.pts cp.wts, dcache := Tab.put c.dcache line { cp with used := used } }) k := by
  intro n x hx
  rw [coreAt_updCore_same] at hx
  change Tab.at? (Tab.put (coreAt s k).dcache line { cp with used := used }) n = some x at hx
  by_cases hl : line = n
  · subst hl
    rw [Tab.at?_put_same] at hx
    obtain rfl := Option.some.inj hx
    exact h line cp hcp
  · rw [Tab.at?_put_other _ _ hl] at hx
    exact h n x hx

/-- A Renew that its home answers at once (R272): the core's copies still hold what memory holds. -/
theorem takeReply_takeRenew_serves {r : Renew} (hk : r.core = k) (hw : (coreAt s k).watch = []) (hf : copiesFaithful s k) :
    servedAt k s (takeReply (takeRenew s r).1 (takeRenew s r).2) ∧ s.nextId ≤ (takeReply (takeRenew s r).1 (takeRenew s r).2).nextId ∧
      copiesFaithful (takeReply (takeRenew s r).1 (takeRenew s r).2) k := by
  obtain ⟨x, y, hfr⟩ := takeRenew_frame s r
  have hserved := servedAt_takeRenew k s r
  have hcore : (takeRenew s r).2.core = k := hk
  have hdata : ∀ d, (takeRenew s r).2.data = some d → d = (lineData (takeRenew s r).1 r.line, lineTags (takeRenew s r).1 r.line) := by
    intro d hd
    simp only [takeRenew] at hd ⊢
    split at hd
    · cases hd
    · exact (Option.some.inj hd).symm
  have hfaith : copiesFaithful (takeRenew s r).1 (takeRenew s r).2.core := by
    rw [hcore, hfr]
    exact hf
  have hfaith' := hfaith.reply (r := (takeRenew s r).2) hdata
  have hwatch : (coreAt (takeRenew s r).1 (takeRenew s r).2.core).watch = [] := by
    rw [hcore]
    exact hserved.watch.trans hw
  rw [takeReply_eq hwatch]
  refine ⟨?_, ?_, by rw [hcore] at hfaith' ⊢; exact hfaith'⟩
  · rw [hcore]
    exact hserved.trans (servedAt_updCore _ k _ (replied_frame _ _ _))
  · show s.nextId ≤ (takeRenew s r).1.nextId + 1
    rw [hfr]
    exact Nat.le_succ _

/-- A load of a line answers the bytes and tags that memory holds, from a copy or from the home. -/
theorem lineLoad_serves {l n colour hint : Nat} (hw : (coreAt s k).watch = []) (hf : copiesFaithful s k) :
    ∃ t w, lineLoad s k l n colour hint = (t, copyBytes (lineData s (lineOf l)) (l % 128) n, lineTags s (lineOf l), w) ∧
      servedAt k s t ∧ s.nextId ≤ t.nextId ∧ copiesFaithful t k := by
  unfold lineLoad
  dsimp only
  split
  · next cp hcp =>
    have hat := at?_of_cacheHit hcp
    obtain ⟨hdata, htags⟩ := hf _ _ hat
    exact ⟨_, _, by rw [← hdata, ← htags], servedAt_updCore s k _ ⟨_, _, rfl⟩, Nat.le_succ _, hf.use hat⟩
  · generalize hr : Renew.mk _ _ _ _ _ _ _ _ = r
    obtain ⟨x, y, hfr⟩ := takeRenew_frame s r
    refine ⟨_, (takeRenew s r).2.wts, ?_, takeReply_takeRenew_serves (r := r) (by rw [← hr]) hw hf⟩
    rw [hfr]
    rfl

/-! ### A lane's load -/

/-- A thread in no run with nothing posted decides no byte of a load (R32). -/
theorem ownBytes_quiet {e : Env} (hnet : s.net = netEmpty) (hrun : e.th.run = none) (a n : Nat) :
    ownBytes s e a n = (List.range n).map fun _ => none := by
  simp [ownBytes, ownStores, hnet, netEmpty, runStores, hrun, ownNames, storedByte]

theorem under_noRun {th : Thread} (hrun : th.run = none) (a : Nat) (b : List Byte) : under (runBytes s th a b.length) b = b := by
  refine List.ext_getElem (by simp [under, runBytes]) fun i hi _ => ?_
  have hlen : i < b.length := by simpa [under, runBytes] using hi
  simp [under, runBytes, runStores, hrun, ownNames, storedByte, hlen]

theorem noteLoad_noRun {th : Thread} (h : thread? s sh ln = some th) (hrun : th.run = none) (a n w : Nat) :
    noteLoad s sh ln a n w = updThread s sh ln fun _ => th :=
  updThread_at h (by rw [hrun, Option.map_none, ← hrun])

/-- The state in which a lane's load is made: its request has started unless a copy serves it (R272). -/
def loadStarted (s : State) (e : Env) (l colour : Nat) : State :=
  if (cacheHit s (coreOf e.sh) l colour).isSome then s else request s e (lineOf l) 0

theorem loadStarted_frame {e : Env} {l colour : Nat} (hnet : s.net = netEmpty) : ∃ x, loadStarted s e l colour = { s with ctxs := x } := by
  unfold loadStarted
  split
  · exact ⟨s.ctxs, rfl⟩
  · exact request_frame hnet

theorem servedAt_loadStarted {e : Env} {l colour : Nat} (hnet : s.net = netEmpty) : servedAt k s (loadStarted s e l colour) := by
  unfold loadStarted
  split
  · exact servedAt_refl k s
  · exact servedAt_request hnet

/-- A load by a lane with nothing posted and nothing to wait for is a load of its line. -/
theorem loadHbm_eq {e : Env} {a n colour hint : Nat} (hq : quiet s (coreOf e.sh) e.sf.ctx) (hrun : e.th.run = none)
    (hg : granuleCheck s (localOf a) colour = .pass) :
    loadHbm s e a n colour hint false =
      let r := lineLoad (loadStarted s e (localOf a) colour) (coreOf e.sh) (localOf a) n colour hint
      (noteLoad r.1 e.sh e.ln a n r.2.2.2, .ok (under (runBytes s e.th a n) r.2.1, r.2.2.1.getLsbD (localOf a % 128 / 16))) := by
  obtain ⟨hnet, -, hclusters, hmay⟩ := hq
  have hown : ((ownBytes s e a n).all (·.isSome) && !(ownBytes s e a n).isEmpty) = false := by
    rw [ownBytes_quiet hnet hrun]
    cases n <;> simp [List.range_succ_eq_map]
  have hsettle : settleRenew (drainTeam (drainOwn s e.sh e.ln) (coreOf e.sh) (lineOf (localOf a))) (coreOf e.sh) (lineOf (localOf a)) = s := by
    rw [drainOwn_quiet hnet, drainTeam, drainSome_quiet hnet]
    simp [settleRenew, renewOut, hnet, netEmpty]
  have hfree : (awaiting s e.sh e.ln || clusterBusy s (coreOf e.sh) a n) = false := by
    simp [awaiting, heldStore, clusterBusy, hnet, netEmpty, hclusters, Tab.get, Tab.at?, clusterReset]
  have hport : portReady s e = true := hmay
  have hg2 : granuleCheck (request s e (lineOf (localOf a)) 0) (localOf a) colour = .pass := by
    obtain ⟨x, hx⟩ := request_frame (e := e) (line := lineOf (localOf a)) (n := 0) hnet
    rw [hx]
    exact hg
  unfold loadHbm loadStarted
  simp only [hown, hsettle, hfree, hport, hg2, Bool.false_eq_true, if_false, Bool.not_true]
  split <;> rfl

/-- With nothing on its way a lane in no run loads bytes of a line from local HBM of its colour: it gets what memory holds, and the tag of their granule. -/
theorem loadHbm_serves {e : Env} {th : Thread} {a n colour hint : Nat} (hk : coreOf e.sh = k) (hq : quiet s k e.sf.ctx) (hf : copiesFaithful s k)
    (hrun : e.th.run = none) (hth : thread? s e.sh e.ln = some th) (hnorun : th.run = none)
    (hg : granuleCheck s (localOf a) colour = .pass) (hn : localOf a % 128 + n ≤ 128) :
    ∃ t, loadHbm s e a n colour hint false =
        (updThread t e.sh e.ln fun _ => th, .ok (readMem s.mem (localOf a) n, Tab.get false s.tags (localOf a / 16))) ∧
      servedAt k s t ∧ s.nextId ≤ t.nextId ∧ copiesFaithful t k := by
  subst hk
  obtain ⟨x, hx⟩ := loadStarted_frame (e := e) (l := localOf a) (colour := colour) hq.1
  have hstarted : servedAt (coreOf e.sh) s (loadStarted s e (localOf a) colour) := servedAt_loadStarted hq.1
  have hfaith : copiesFaithful (loadStarted s e (localOf a) colour) (coreOf e.sh) := by rw [hx]; exact hf
  obtain ⟨t, w, hload, hserved, hnext, hfaith'⟩ :=
    lineLoad_serves (l := localOf a) (n := n) (colour := colour) (hint := hint) (hstarted.watch.trans hq.2.1) hfaith
  refine ⟨t, ?_, hstarted.trans hserved, by rw [hx] at hnext; exact hnext, hfaith'⟩
  have hthread : thread? t e.sh e.ln = some th := by
    rw [← hth]
    refine thread?_congr ?_ _ _
    rw [hserved.1, hx]
  have hbytes : copyBytes (lineData s (lineOf (localOf a))) (localOf a % 128) n = readMem s.mem (localOf a) n := by
    rw [copyBytes_lineData _ hn, lineOf, Nat.div_add_mod']
  have htag : (lineTags s (lineOf (localOf a))).getLsbD (localOf a % 128 / 16) = Tab.get false s.tags (localOf a / 16) := by
    rw [getLsbD_lineTags _ _ (by omega), lineOf, show localOf a / 128 * 8 + localOf a % 128 / 16 = localOf a / 16 by omega]
  have hunder := under_noRun (s := s) hrun a (readMem s.mem (localOf a) n)
  rw [readMem_length] at hunder
  rw [loadHbm_eq hq hrun hg, hload]
  dsimp only
  rw [noteLoad_noRun hthread hnorun, hx]
  show (_, Except.ok (under _ (copyBytes (lineData s _) _ _), (lineTags s _).getLsbD _)) = _
  rw [hbytes, htag, hunder]

end Sys2Proof.Machine
end

section
/-! A structure in local HBM read granule by granule by one lane (R246, R321). -/

namespace Sys2Proof.Machine

variable {s t u : State} {sh ln : Nat} {sf : Sheaf} {th : Thread} {l : List Cap}

/-- The granule at a local address as a lane reads it (R144, R334). -/
def granuleAt (s : State) (a : Nat) : Cap := capOfBytes s (readMem s.mem a 16) (Tab.get false s.tags (a / 16))

/-- A state in which a lane has read some granules of its word's structure: its thread keeps them, and nothing changed but what its loads change. -/
structure HasRead (s : State) (sh ln : Nat) (th : Thread) (l : List Cap) (t : State) : Prop where
  frame : t = { s with sheaves := t.sheaves, slices := t.slices, cores := t.cores, ctxs := t.ctxs, nextId := t.nextId }
  accounts : Machine.accounts s t
  copies : copiesOnly s t (coreOf sh)
  stamps : s.nextId ≤ t.nextId
  faithful : copiesFaithful t (coreOf sh)
  lane : becomes s t sh ln { th with buf := l }

theorem becomes_refl (h : thread? s sh ln = some th) : becomes s s sh ln th := ⟨h, fun _ _ => rfl, fun _ => rfl, fun _ _ => rfl⟩

/-- A lane that begins has read nothing. -/
theorem hasRead_nil (hth : thread? s sh ln = some th) (hbuf : th.buf = []) (hd : (coreAt s (coreOf sh)).dcache = []) : HasRead s sh ln th [] s where
  frame := rfl
  accounts := fun _ => rfl
  copies := ⟨rfl, fun _ _ => rfl⟩
  stamps := Nat.le_refl _
  faithful := fun line cp h => by rw [hd] at h; cases h
  lane := by rw [← hbuf]; exact becomes_refl hth

namespace HasRead

theorem bufOf_eq {e : Env} (h : HasRead s e.sh e.ln th l t) : bufOf t e = l := by
  rw [bufOf, h.lane.1]
  rfl

/-- A later load of the lane, and what its thread has read then. -/
theorem serve (h : HasRead s sh ln th l t) (hs : servedAt (coreOf sh) t u) (hn : t.nextId ≤ u.nextId) (hf : copiesFaithful u (coreOf sh)) (l' : List Cap) :
    HasRead s sh ln th l' (updThread u sh ln fun _ => { th with buf := l' }) := by
  obtain ⟨h1, h2, h3, h4, -, h6⟩ := h
  obtain ⟨hs1, hs2, hs3, hs4⟩ := hs
  have hsh : u.sheaves = t.sheaves := by rw [hs1]
  have hth : thread? u sh ln = some { th with buf := l } := (thread?_congr hsh sh ln).trans h6.1
  constructor
  case frame => rw [updThread_frame, hs1, h1]
  case accounts => intro k; rw [← h2 k, ← hs2 k, ctxAt, updThread_ctxs, ctxAt]
  case copies =>
    rw [copiesOnly]
    simp only [coreAt, updThread_cores]
    exact ⟨hs3.trans h3.1, fun j hj => (hs4 j hj).trans (h3.2 j hj)⟩
  case stamps => rw [updThread_nextId]; exact h4.trans hn
  case faithful =>
    intro line cp hcp
    rw [coreAt, updThread_cores] at hcp
    rw [lineData, lineTags, updThread_mem, updThread_tags]
    exact hf line cp hcp
  case lane => exact h6.trans ((becomes_updThread hth _).congr hsh.symm rfl)

theorem quiet (h : HasRead s sh ln th l t) {ctx : Nat} (hq : Machine.quiet s (coreOf sh) ctx) (hquota : (ctxAt s ctx).quota = 65535) :
    Machine.quiet t (coreOf sh) ctx := by
  obtain ⟨hnet, hwatch, hclusters, -⟩ := hq
  have hw := congrArg CoreSt.watch h.copies.1
  have hc := congrArg Ctx.quota (h.accounts ctx)
  have hquota' : (ctxAt t ctx).quota = 65535 := hc.trans hquota
  exact ⟨by rw [h.frame]; exact hnet, Eq.trans hw hwatch, by rw [h.frame]; exact hclusters, by simp [mayInject, hquota']⟩

end HasRead

/-- An address within local HBM stays there and keeps its place as long as it does not reach the end (R17). -/
theorem regionOf_add {number a n : Nat} (h : regionOf number a = .hbm) (hn : localOf a + n < 2 ^ 42) :
    localOf (a + n) = localOf a + n ∧ regionOf number (a + n) = .hbm := by
  have hlocal : localOf (a + n) = localOf a + n := by unfold localOf at hn ⊢; omega
  have hdev : devOf (a + n) = devOf a := by unfold devOf; unfold localOf at hlocal hn; omega
  refine ⟨hlocal, ?_⟩
  have hlt : localOf a + n < 2 ^ 42 := hn
  unfold regionOf at h ⊢
  rw [hdev, hlocal]
  split at h
  · next hd => simp only [hd, if_true, hlt]
  · cases h

theorem checkCap_aligned {number : Nat} {colours : DWord} {c : Cap} {k : Access} {off : Int} {size align a : Nat}
    (h : checkCap number colours c k off size align = .ok a) : a % align = 0 := by
  unfold checkCap at h
  dsimp only at h
  iterate 8 (split at h; · cases h)
  next hal =>
    injection h with h
    rw [← h]
    simpa using hal

theorem accessAddr_aligned {e : Env} {c : Cap} {k : Access} {off : Int} {size align a : Nat} (h : accessAddr e c k off size align = .ok a) :
    a % align = 0 := by
  unfold accessAddr at h
  split at h
  · next x hx =>
    injection h with h
    exact checkCap_aligned (h ▸ hx)
  · cases h

section
variable {want : Want} {c : Cap} {a n : Nat} (hrun : th.run = none) (hq : quiet s (coreOf sh) sf.ctx)
  (hquota : (ctxAt s sf.ctx).quota = 65535) (hreg : regionOf s.fabric.number a = .hbm) (halign : a % 16 = 0) (hend : localOf a + 16 * n ≤ 2 ^ 42)
  (hg : ∀ i, i < n → granuleCheck s (localOf a + 16 * i) (capColour c) = .pass)
include hrun hq hquota hreg halign hend hg

/-- The next granule of a structure. -/
theorem readGranule_reads {i : Nat} (hi : i < n) (h : HasRead s sh ln th l t) :
    ∃ u, readGranule t (soloEnv s sh ln sf th) want c (a + 16 * i) = (u, .ok (granuleAt s (localOf a + 16 * i))) ∧
      HasRead s sh ln th (l ++ [granuleAt s (localOf a + 16 * i)]) (updThread u sh ln fun x => { x with buf := x.buf ++ [granuleAt s (localOf a + 16 * i)] }) := by
  obtain ⟨hloc, hreg'⟩ := regionOf_add (n := 16 * i) hreg (by omega)
  have hal : localOf a % 16 = 0 := by unfold localOf; omega
  have hgt : granuleCheck t (localOf (a + 16 * i)) (capColour c) = .pass := by rw [hloc, h.frame]; exact hg i hi
  obtain ⟨u, hload, hserved, hnext, hfaith⟩ := loadHbm_serves (e := soloEnv s sh ln sf th) (th := { th with buf := l }) (n := 16) (hint := 0) rfl
    (h.quiet hq hquota) h.faithful hrun h.lane.1 hrun hgt (by rw [hloc]; omega)
  refine ⟨updThread u sh ln fun _ => { th with buf := l }, ?_, ?_⟩
  · have hrake : rakeFilter (updThread u sh ln fun _ => { th with buf := l }) = rakeFilter s := by
      funext x
      rw [rakeFilter, updThread_rake, hserved.1, h.frame, rakeFilter]
    have hregt : regionOf t.fabric.number (a + 16 * i) = .hbm := by rw [h.frame]; exact hreg'
    unfold readGranule
    simp only [hregt, hload]
    simp only [soloEnv_sh, soloEnv_ln, hrake, hloc]
    rw [h.frame]
    rfl
  · rw [updThread_updThread]
    exact h.serve hserved hnext hfaith _

theorem readGranules_reads (k i : Nat) (hk : i + k = n) (h : HasRead s sh ln th ((List.range i).map fun j => granuleAt s (localOf a + 16 * j)) t) :
    ∃ u, readGranules (soloEnv s sh ln sf th) want c a 0 n k t = (u, .ok ()) ∧
      HasRead s sh ln th ((List.range n).map fun j => granuleAt s (localOf a + 16 * j)) u := by
  induction k generalizing i t with
  | zero =>
    obtain rfl : i = n := hk
    exact ⟨t, rfl, h⟩
  | succ k ih =>
    have hlen : (bufOf t (soloEnv s sh ln sf th)).length = i := by rw [h.bufOf_eq, List.length_map, List.length_range]
    obtain ⟨v, hread, hv⟩ := readGranule_reads (want := want) hrun hq hquota hreg halign hend hg (i := i) (by omega) h
    obtain ⟨u, hrest, hu⟩ := ih (i + 1) (by omega) (by rw [List.range_succ, List.map_append]; exact hv)
    refine ⟨u, ?_, hu⟩
    rw [readGranules]
    simp only [hlen, Nat.zero_add, Nat.sub_zero]
    rw [if_neg (by omega), hread]
    exact hrest

end

/-- A structure that a lane may read: it gets the granules that memory holds. -/
theorem readPart_reads {want : Want} {c : Cap} {k : Access} {n a : Nat} (hth : thread? s sh ln = some th) (hrun : th.run = none)
    (hr : readsStruct (soloEnv s sh ln sf th) c k n a) :
    ∃ t, readPart s (soloEnv s sh ln sf th) want c a 0 n = (t, .ok ((List.range n).map fun j => granuleAt s (localOf a + 16 * j))) ∧
      HasRead s sh ln th ((List.range n).map fun j => granuleAt s (localOf a + 16 * j)) t := by
  obtain ⟨haddr, hend, hreg, hg, hq, hd, hquota, hbuf⟩ := hr
  obtain ⟨t, ht, hread⟩ := readGranules_reads (s := s) (sh := sh) (sf := sf) (want := want) hrun hq hquota hreg (accessAddr_aligned haddr) hend hg
    n 0 (Nat.zero_add n) (hasRead_nil hth hbuf hd)
  refine ⟨t, ?_, hread⟩
  unfold readPart
  rw [ht]
  dsimp only
  rw [hread.bufOf_eq, List.drop_zero, List.take_of_length_le (by simp)]

/-- The granules that a lane reads are the structure of the statement. -/
theorem structAt_eq (e : Env) (a n : Nat) :
    structAt e a n = granuleBytes ((List.range n).map fun j => granuleAt e.s (localOf a + 16 * j)) := by
  have hi : ∀ i, (localOf a + 16 * i) / 16 = localOf a / 16 + i := fun i => by omega
  simp only [structAt, granuleAt, hi]

end Sys2Proof.Machine
end

section
/-! A launch: its checks after the lane's reads, and its acceptance (R197, R248, R249). -/

namespace Sys2Proof.Machine

variable {s t u : State} {sh ln : Nat} {sf : Sheaf} {th : Thread} {l : List Cap}

/-! ### The checks of a launch (R248) -/

theorem accounts.ctxAt_eq (h : accounts s t) (k : Nat) : ctxAt t k = { ctxAt s k with cnt := (ctxAt t k).cnt, spent := (ctxAt t k).spent } :=
  congrArg (fun c : Ctx => { c with cnt := (ctxAt t k).cnt, spent := (ctxAt t k).spent }) (h k)

section
variable {ctx p q : Nat} {d : LaunchDesc}

/-- The checks before those of a segment map see nothing that a lane's reads change. -/
theorem HasRead.launchFirst_eq (h : HasRead s sh ln th l t) : launchFirst t ctx d p = launchFirst s ctx d p := by
  have hctx := h.accounts.ctxAt_eq ctx
  have hcol : (ctxAt t ctx).colours = (ctxAt s ctx).colours := by rw [hctx]
  have hobj : (ctxAt t ctx).objects = (ctxAt s ctx).objects := by rw [hctx]
  have hentry : entryCount t d.code = entryCount s d.code := by rw [h.frame]; rfl
  have hkernel : kernelOf t ctx d.code d.entry = kernelOf s ctx d.code d.entry := by simp only [kernelOf, hobj]
  have htime : loadTime t ctx d.code = loadTime s ctx d.code := by simp only [loadTime, hobj]
  have hfits : ∀ x, setFits t x = setFits s x := fun x => by rw [h.frame]; rfl
  have hnumber : t.fabric.number = s.fabric.number := by rw [h.frame]
  simp only [launchFirst, hcol, hentry, hkernel, htime, hfits, hnumber]

/-- Whether a launch passes does not depend on its core's write time, which it carries; it names no queue. -/
theorem launchFirst_pts (s : State) (ctx : Nat) (d : LaunchDesc) (p q : Nat) : launchFirst s ctx d p =
    (launchFirst s ctx d q).map fun x => (x.1, { x.2 with pts := max p (loadTime s ctx d.code), queue := none }) := by
  have hite : ∀ {α β : Type} (f : α → β) (c : Prop) [Decidable c] (x : Nat) (r : Except Nat α),
      Except.map f (if c then .error x else r) = if c then .error x else r.map f := fun f c _ x r => apply_ite _ _ _ _
  unfold launchFirst
  dsimp only
  cases kernelOf s ctx d.code d.entry with
  | none => simp only [hite]; rfl
  | some x => simp only [hite]; rfl


/-- Where no segment map is to be read, a launch from the device passes once it has passed the first checks and a slot is free. -/
theorem launchCheck_noMap (h : needsMap s ctx d p = false) : launchCheck s ctx d p true none =
    (launchFirst s ctx d p).bind fun x =>
      if 1024 ≤ ((ctxAt s ctx).slots.filter fun y => y.2.launch.isSome).length then .error 0x0A else .ok { x.2 with runner := none } := by
  unfold launchCheck
  cases hf : launchFirst s ctx d p with
  | error x => rfl
  | ok x =>
    have hr : isRunner d = false := by
      rw [needsMap, hf] at h
      simpa using h
    simp only [hr, Bool.false_eq_true, if_false, true_and]
    rfl

theorem HasRead.needsMap_eq (h : HasRead s sh ln th l t) : needsMap t ctx d p = needsMap s ctx d q := by
  rw [needsMap, needsMap, h.launchFirst_eq, launchFirst_pts s ctx d p q]
  cases launchFirst s ctx d q <;> rfl

/-- The answer to a launch after the lane's reads is the answer before them, with the core's write time. -/
theorem HasRead.launchCheck_eq (h : HasRead s sh ln th l t) (hm : needsMap s ctx d q = false) : launchCheck t ctx d p true none =
    (launchCheck s ctx d q true none).map fun x => { x with pts := max p (loadTime s ctx d.code) } := by
  have hslots : (ctxAt t ctx).slots = (ctxAt s ctx).slots := by rw [h.accounts.ctxAt_eq ctx]
  have hpts : launchFirst s ctx d q = _ := launchFirst_pts s ctx d q q
  rw [launchCheck_noMap (h.needsMap_eq.trans hm), launchCheck_noMap hm, h.launchFirst_eq, launchFirst_pts s ctx d p q, hslots]
  cases hf : launchFirst s ctx d q with
  | error x => rfl
  | ok x =>
    rw [hf] at hpts
    have hx : x = (x.1, { x.2 with pts := max q (loadTime s ctx d.code), queue := none }) := by injection hpts
    show (if _ then Except.error 0x0A else _) = Except.map _ (if _ then Except.error 0x0A else _)
    rw [hx]
    split <;> rfl

/-- A launch that passes without a segment map names no queue and is no runner launch. -/
theorem launchCheck_ok {x : Launch} (hm : needsMap s ctx d p = false) (h : launchCheck s ctx d p true none = .ok x) :
    x.queue = none ∧ x.runner = none := by
  rw [launchCheck_noMap hm, launchFirst_pts s ctx d p p] at h
  cases hf : launchFirst s ctx d p with
  | error y => rw [hf] at h; cases h
  | ok y =>
    rw [hf] at h
    change (if _ then Except.error 0x0A else _) = _ at h
    split at h
    · cases h
    · injection h with h
      rw [← h]
      exact ⟨rfl, rfl⟩

end

/-! ### The acceptance of a launch (R197, R249) -/

theorem takeSlot_frame (s : State) (ctx lid : Nat) : ∃ x h, takeSlot s ctx lid = ({ s with ctxs := x }, h) := by
  unfold takeSlot
  dsimp only
  split
  · exact ⟨s.ctxs, _, rfl⟩
  · exact ⟨_, _, rfl⟩

/-- Steps each of which changes a cluster unit change the cluster units alone. -/
theorem foldl_updCluster {α : Type} (g : α → Nat) (f : α → Cluster → Cluster) (l : List α) (s : State) :
    ∃ x, l.foldl (fun s i => updCluster s (g i) (f i)) s = { s with clusters := x } := by
  refine List.foldlRecOn (motive := fun u : State => ∃ x, u = { s with clusters := x }) l _ ⟨s.clusters, rfl⟩ fun u hu i _ => ?_
  obtain ⟨x, rfl⟩ := hu
  exact ⟨_, rfl⟩

theorem dealLaunch_frame (s : State) (lid : Nat) (x : Launch) : ∃ c y, dealLaunch s lid x = { s with ctxs := c, clusters := y } := by
  unfold dealLaunch
  dsimp only
  split
  · exact ⟨s.ctxs, s.clusters, rfl⟩
  · generalize (grantedUnits s x.ctx).filter _ ++ (grantedUnits s x.ctx).filter _ = order
    obtain ⟨y, hy⟩ := foldl_updCluster (fun i => order.getD (i % order.length) 0)
      (fun i c => { c with queue := c.queue ++ [{ launch := lid, index := i }], empties := 0, quietUntil := 0 }) (List.range x.n) s
    obtain ⟨z, hz⟩ := foldl_updCluster (fun u => u) (fun _ c => { c with empties := 0, quietUntil := 0 }) (grantedUnits s x.ctx) { s with clusters := y }
    exact ⟨_, z, by rw [hy, hz]; rfl⟩

/-- A launch from the device that needs no runner gets the next number and a handle; it is recorded and dealt, and no more changes. -/
theorem acceptLaunch_accepts {x : Launch} (hx : x.runner = none) :
    ∃ c y h, acceptLaunch s x true none =
      ({ s with nextId := s.nextId + 1, ctxs := c, clusters := y, launches := Tab.put s.launches s.nextId { x with handle := h, queue := none } },
        s.nextId, h.getD 0xFFFFFFFF) := by
  obtain ⟨c, h, hslot⟩ := takeSlot_frame { s with nextId := s.nextId + 1 } x.ctx s.nextId
  obtain ⟨c', y, hdeal⟩ := dealLaunch_frame
    { s with nextId := s.nextId + 1, ctxs := c, launches := Tab.put s.launches s.nextId { x with handle := h, queue := none } } s.nextId
    { x with handle := h, queue := none }
  refine ⟨c', y, h, ?_⟩
  unfold acceptLaunch
  simp only [if_true, hslot, hx, Option.isSome_none, Bool.false_eq_true, if_false]
  rw [hx] at hdeal
  rw [hdeal]

end Sys2Proof.Machine
end

section
/-! LAUNCH and LWAIT in one lane (R244 to R249), and the settled statement. -/

namespace Sys2Proof.Machine

variable {s t u : State} {sh ln : Nat} {sf : Sheaf} {th : Thread} {l : List Cap}

/-! ### LAUNCH in one lane (R246, R248) -/

theorem HasRead.dropBuf {e : Env} (h : HasRead s e.sh e.ln th l t) : HasRead s e.sh e.ln th [] (Machine.dropBuf t e) := by
  rw [Machine.dropBuf, updThread_at h.lane.1 (new := { th with buf := [] }) rfl]
  exact h.serve (servedAt_refl _ t) (Nat.le_refl _) h.faithful []

theorem HasRead.thread (h : HasRead s sh ln th [] t) (hbuf : th.buf = []) : thread? t sh ln = some th := by
  rw [h.lane.1, ← hbuf]

/-- The descriptor that a lane's LAUNCH reads at an address (R246). -/
def descAt (e : Env) (a : Nat) : LaunchDesc := parseDesc (structAt e a 8).1 (structAt e a 8).2

/-- A lane whose descriptor needs no segment map is answered once it has read it. -/
theorem launchLane_reads {d : BitVec 8} {c : Cap} {a : Nat} (hth : thread? s sh ln = some th) (hrun : th.run = none)
    (hr : readsStruct (soloEnv s sh ln sf th) c (accStruct [0, 4]) 8 a) (hm : needsMap s sf.ctx (descAt (soloEnv s sh ln sf th) a) 0 = false) :
    ∃ u, launchLane s (soloEnv s sh ln sf th) d c = launchAnswer u (soloEnv s sh ln sf th) d (descAt (soloEnv s sh ln sf th) a) none ∧
      HasRead s sh ln th [] u := by
  have haddr : accessAddr (soloEnv s sh ln sf th) c (accStruct [0, 4]) 0 128 16 = .ok a := hr.1
  obtain ⟨t, hpart, hread⟩ := readPart_reads (want := .struct) hth hrun hr
  refine ⟨dropBuf t (soloEnv s sh ln sf th), ?_, HasRead.dropBuf (e := soloEnv s sh ln sf th) hread⟩
  have hdesc : parseDesc (granuleBytes ((List.range 8).map fun j => granuleAt s (localOf a + 16 * j))).1
      (granuleBytes ((List.range 8).map fun j => granuleAt s (localOf a + 16 * j))).2 = descAt (soloEnv s sh ln sf th) a := by
    rw [descAt, structAt_eq]
    rfl
  unfold launchLane
  simp only [haddr, hpart, hdesc, soloEnv_sf, hread.needsMap_eq (q := 0), hm, Bool.false_eq_true, if_false]

/-- What a LAUNCH leaves as it was: memory, what is on its way, teams, the cores but for their copies, and the other lanes. -/
def launchKeeps (e : Env) (t : State) : Prop :=
  t.mem = e.s.mem ∧ t.tags = e.s.tags ∧ t.net = netEmpty ∧ t.teams = e.s.teams ∧ t.granules = e.s.granules ∧ copiesOnly e.s t (coreOf e.sh) ∧
    lanesKept e.s t e.sh e.ln

theorem HasRead.launchKeeps {e : Env} {th : Thread} (h : HasRead e.s e.sh e.ln th l u) (hnet : e.s.net = netEmpty)
    (ht : t = { u with ctxs := t.ctxs, clusters := t.clusters, launches := t.launches, nextId := t.nextId, sheaves := t.sheaves, focus := t.focus })
    (hkept : lanesKept e.s t e.sh e.ln) : Machine.launchKeeps e t := by
  have hcores : t.cores = u.cores := by rw [ht]
  refine ⟨?_, ?_, ?_, ?_, ?_, ?_, hkept⟩
  · rw [ht, h.frame]
  · rw [ht, h.frame]
  · rw [ht, h.frame]; exact hnet
  · rw [ht, h.frame]
  · rw [ht, h.frame]
  · have hcopies := h.copies
    unfold copiesOnly coreAt at hcopies ⊢
    rw [hcores]
    exact hcopies

/-- A LAUNCH of one lane that is answered: its lane goes past the word with the answer. -/
theorem launch_settles {h : Guard} {o : Tri} {w : Wr} (hone : oneLane s h sh ln sf th) (hq : quiet s (coreOf sh) sf.ctx)
    (hread : HasRead s sh ln th [] u) (hbuf : th.buf = [])
    (hlane : launchLane s (soloEnv s sh ln sf th) o.d (capA (soloEnv s sh ln sf th) o.a) = (t, .ok w))
    (ht : t = { u with ctxs := t.ctxs, clusters := t.clusters, launches := t.launches, nextId := t.nextId })
    (hrunner : ∀ x : Sheaf, x.launch = sf.launch → runnerOf t x = none) :
    ∃ t', exec (.launch h o) s = .next t' ∧ thread? t' sh ln = some (retired th w) ∧ t'.launches = t.launches ∧ t'.nextId = t.nextId ∧
      launchKeeps (soloEnv s sh ln sf th) t' := by
  have hsh : t.sheaves = u.sheaves := by rw [ht]
  have hfo : t.focus = s.focus := by rw [ht, hread.frame]
  have hword : runWord { cfgNR h with resolve := true } (fun e s => resolveThen s e true false fun s => mustEnd (launchLane s e o.d (capA e o.a))) s =
      { finishWord t [((sh, ln), .ok w)] with focus := none } := by
    refine runWord_solo (k := { cfgNR h with resolve := true }) hone rfl (entriesWait_unwatched _ hq.2.1) ?_ hfo rfl
    simp only [resolveThen, if_true, soloEnv_sh, soloEnv_ln, releaseStep_quiet hq, hlane, mustEnd]
  obtain ⟨-, -, hs, -, -, hnorun, -, -, hpc⟩ := hone
  have hth : thread? t sh ln = some th := (thread?_congr hsh sh ln).trans (hread.thread hbuf)
  obtain ⟨sf', hsf', hlaunch⟩ : ∃ sf', sheaf? t sh = some sf' ∧ sf'.launch = sf.launch := by
    have hskel := hread.lane.2.2.1 sh
    rw [hs] at hskel
    obtain ⟨sf', hsf', heq⟩ := Option.map_eq_some_iff.1 hskel
    have hl := congrArg Sheaf.launch heq
    refine ⟨sf', ?_, hl⟩
    unfold sheaf? at hsf' ⊢
    rw [hsh]
    exact hsf'
  obtain ⟨hframe, hnew, hkept, -⟩ := finishWord_one (r := .ok w) hsf' hth rfl (settle_past hnorun (hrunner sf' hlaunch) hpc)
  generalize finishWord t [((sh, ln), .ok w)] = v at hword hframe hnew hkept
  refine ⟨{ v with focus := none }, congrArg Host.Outcome.next hword, hnew, ?_, ?_, ?_⟩
  · rw [hframe]
  · rw [hframe]
  · refine HasRead.launchKeeps (e := soloEnv s sh ln sf th) hread hq.1 ?_ fun y hy => ?_
    · rw [hframe, ht]
    · exact (hkept y hy).trans ((thread?_congr hsh _ _).trans (hread.lane.2.1 y hy))

/-- A LAUNCH whose descriptor lies in local HBM, is served by no copy and needs no segment map (R246, R248). -/
def mayLaunch (e : Env) (o : Tri) (a : Nat) : Prop :=
  readsStruct e (capA e o.a) (accStruct [0, 4]) 8 a ∧ needsMap e.s e.sf.ctx (descAt e a) 0 = false

/-- A launch that a check refuses answers all ones and the status, and none is recorded (R248). -/
theorem launch_refuses (h : Guard) (o : Tri) (a st : Nat) : aloneDoes (.launch h o) h
    (fun e => mayLaunch e o a ∧ launchCheck e.s e.sf.ctx (descAt e a) 0 true none = .error st)
    fun e t => thread? t e.sh e.ln = some (retired e.th (wrPair o.d (0xFFFFFFFF#32 ++ BitVec.ofNat 32 st))) ∧ t.launches = e.s.launches ∧ launchKeeps e t := by
  rintro s sh ln sf th hone ⟨⟨hr, hm⟩, hcheck⟩
  obtain ⟨-, -, -, -, hq, -, -, hbuf⟩ := id hr
  obtain ⟨-, -, -, -, -, hnorun, -, hrunner, -⟩ := id hone
  obtain ⟨u, hlane, hread⟩ := launchLane_reads (d := o.d) (thread_one hone) hnorun hr hm
  have hlaunches : u.launches = s.launches := by rw [hread.frame]
  have hcheck' := (hread.launchCheck_eq (p := (coreAt u (coreOf (soloEnv s sh ln sf th).sh)).pts) hm).trans (congrArg _ hcheck)
  have hanswer : launchAnswer u (soloEnv s sh ln sf th) o.d (descAt (soloEnv s sh ln sf th) a) none =
      (u, .ok (wrPair o.d (0xFFFFFFFF#32 ++ BitVec.ofNat 32 st))) := by
    unfold launchAnswer
    rw [hcheck']
    rfl
  obtain ⟨t, hexec, hnew, hl, -, hkeeps⟩ := launch_settles hone hq hread hbuf (hlane.trans hanswer) rfl fun x hx => by
    rw [← hrunner, runnerOf, runnerOf, hlaunches, hx]
  exact ⟨t, hexec, hnew, hl.trans hlaunches, hkeeps⟩

/-- A launch that passes every check is recorded under a new number and answers its handle (R248, R249). -/
theorem launch_accepts (h : Guard) (o : Tri) (a : Nat) (l : Launch) : aloneDoes (.launch h o) h
    (fun e => mayLaunch e o a ∧ launchCheck e.s e.sf.ctx (descAt e a) 0 true none = .ok l)
    fun e t => launchKeeps e t ∧ ∃ (handle id : Nat) (x : Launch),
      thread? t e.sh e.ln = some (retired e.th (wrPair o.d (BitVec.ofNat 32 handle ++ 0#32))) ∧
        e.s.nextId ≤ id ∧ id < t.nextId ∧ Tab.at? t.launches id = some x ∧ { x with handle := l.handle, pts := l.pts } = l ∧ x.handle.getD 0xFFFFFFFF = handle ∧
        ∀ j, j ≠ id → Tab.at? t.launches j = Tab.at? e.s.launches j := by
  rintro s sh ln sf th hone ⟨⟨hr, hm⟩, hcheck⟩
  obtain ⟨-, -, -, -, hq, -, -, hbuf⟩ := id hr
  obtain ⟨-, -, -, -, -, hnorun, -, hrunner, -⟩ := id hone
  obtain ⟨u, hlane, hread⟩ := launchLane_reads (d := o.d) (thread_one hone) hnorun hr hm
  obtain ⟨hqueue, hlr⟩ := launchCheck_ok hm hcheck
  have hlaunches : u.launches = s.launches := by rw [hread.frame]
  have hcheck' := (hread.launchCheck_eq (p := (coreAt u (coreOf (soloEnv s sh ln sf th).sh)).pts) hm).trans (congrArg _ hcheck)
  let l' := { l with pts := max (coreAt u (coreOf sh)).pts (loadTime s sf.ctx (descAt (soloEnv s sh ln sf th) a).code) }
  obtain ⟨c, y, hd, hacc⟩ := acceptLaunch_accepts (s := u) (x := l') hlr
  have hanswer : launchAnswer u (soloEnv s sh ln sf th) o.d (descAt (soloEnv s sh ln sf th) a) none =
      ((acceptLaunch u l' true none).1, .ok (wrPair o.d (BitVec.ofNat 32 (acceptLaunch u l' true none).2.2 ++ 0#32))) := by
    unfold launchAnswer
    rw [hcheck']
    rfl
  rw [hacc] at hanswer
  obtain ⟨t, hexec, hnew, hl, hid, hkeeps⟩ := launch_settles hone hq hread hbuf (hlane.trans hanswer) rfl fun x hx => by
    rw [runnerOf, hx]
    by_cases hj : u.nextId = sf.launch
    · rw [← hj, Tab.at?_put_same]
      exact hlr
    · rw [Tab.at?_put_other _ _ hj, hlaunches]
      exact hrunner
  refine ⟨t, hexec, hkeeps, hd.getD 0xFFFFFFFF, u.nextId, { l' with handle := hd, queue := none }, hnew, hread.stamps, ?_, ?_, ?_, rfl, fun j hj => ?_⟩
  · rw [hid]
    exact Nat.lt_succ_self _
  · rw [hl]
    exact Tab.at?_put_same _ _ _
  · rw [← hqueue]
  · rw [hl, soloEnv_s, ← hlaunches]
    exact Tab.at?_put_other _ _ (Ne.symm hj)

/-! ### LWAIT in one lane (R249) -/

/-- LWAIT of a handle that names no launch goes past, as an acquire of all that the cores have seen. -/
theorem lwait_passes (h : Guard) (o : Tri) : aloneDoes (.lwait h o) h (fun e => namedLaunch e.s e.sf.ctx (src e o.a 1) = none) fun e t =>
    goesPast e t wrNone ∧ t = { e.s with sheaves := t.sheaves, cores := t.cores, focus := none } ∧
      coreBecomes e.s t (coreOf e.sh) { coreAt e.s (coreOf e.sh) with pts := max (coreAt e.s (coreOf e.sh)).pts (latestPts e.s) } := by
  intro s sh ln sf th hone hnone
  obtain ⟨-, -, -, -, -, hnorun, -, hrunner, hpc⟩ := id hone
  let t := raisePts s (coreOf sh) (latestPts s)
  have hth : thread? t sh ln = some th := thread_one hone
  have hrun : exec (.lwait h o) s = .next { updThread t sh ln (fun _ => retired th wrNone) with focus := none } := by
    refine congrArg Host.Outcome.next (runWord_solo_eq (s := s) (k := cfgNR h) (t := t) (r := .ok wrNone) hone rfl rfl ?_ rfl rfl rfl rfl rfl
      (settle_past hnorun hrunner hpc))
    simp only [soloEnv_sf, soloEnv_s] at hnone
    simp only [soloEnv_sf, soloEnv_sh, hnone, Option.isSome_none, Bool.false_eq_true, if_false, t]
  have hframe := congrArg (fun x : State => { x with focus := none }) (updThread_frame t sh ln fun _ => retired th wrNone)
  refine ⟨_, hrun, ((becomes_updThread hth _).congr rfl rfl).goesPast, ?_, ?_, fun j hj => ?_⟩
  · rw [hframe]
    rfl
  · show Tab.get coreReset (updThread t sh ln _).cores (coreOf sh) = _
    rw [updThread_cores]
    exact coreAt_updCore_same _ _ _
  · show Tab.get coreReset (updThread t sh ln _).cores j = _
    rw [updThread_cores]
    exact coreAt_updCore_other _ _ (Ne.symm hj)

/-- LWAIT of a handle that names a launch waits. -/
theorem lwait_waits (h : Guard) (o : Tri) : aloneDoes (.lwait h o) h (fun e => (namedLaunch e.s e.sf.ctx (src e o.a 1)).isSome = true) fun e t =>
    waitsWith e t (.lwait (src e o.a 1)) ∧ t = { e.s with sheaves := t.sheaves, focus := none } := by
  intro s sh ln sf th hone hsome
  let v := src (soloEnv s sh ln sf th) o.a 1
  have hrun : exec (.lwait h o) s = .next { updThread s sh ln (fun _ => { th with hold := some (.lwait v) }) with focus := none } := by
    refine congrArg Host.Outcome.next (runWord_solo_eq (s := s) (k := cfgNR h) (t := s) (r := .hold (.lwait v)) hone rfl rfl ?_ rfl rfl rfl rfl rfl rfl)
    simp only [soloEnv_sf, soloEnv_s] at hsome
    simp only [soloEnv_sf, hsome, if_true, v]
  refine ⟨_, hrun, (becomes_updThread (thread_one hone) _).congr rfl rfl, ?_⟩
  exact congrArg (fun x : State => { x with focus := none }) (updThread_frame s sh ln fun _ => { th with hold := some (.lwait v) })

/-- Settles O30: a lane reads its descriptor as memory holds it (`readPart_reads`), the checks see nothing that the reads change (`HasRead.launchCheck_eq`), and the
acceptance changes launches, context records and cluster units alone (`acceptLaunch_accepts`). -/
theorem launchWordsComplete : Obligations.LaunchWordsComplete :=
  fun h o a st l => ⟨launch_refuses h o a st, launch_accepts h o a l, lwait_passes h o, lwait_waits h o⟩

end Sys2Proof.Machine
end

section
/-! Lanes of words that wait go on with writes of their own, each word once all of its lanes have theirs (R16, R84, R179, R180). -/

namespace Sys2Proof.Machine

variable {s t : State} {sh ln id : Nat} {sf : Sheaf} {th new : Thread} {w : Wr}

/-! ### A lane's part of a word -/

/-- The writes that a lane leaves to the end of its word: those of s-registers (R84). -/
def scalarRegs (w : Wr) : List (Nat × Word) := w.regs.filter fun y => decide (0xC0 ≤ y.1 ∧ y.1 < 0xE0)

/-- A lane that has done its part of a word that waits for others (R84, R179). -/
def partThread (th : Thread) (w : Wr) : Thread := { applyWr th w with hold := some (.done (scalarRegs w)) }

/-- A thread gone on past its word with some writes (R16, R180). -/
def goneOnWith (th : Thread) (w : Wr) : Thread := retired { th with hold := none, word := none } w

theorem goneOnWith_noWord (hw : th.word = none) (w : Wr) : goneOnWith th w = retired { th with hold := none } w := by
  unfold goneOnWith
  rw [← hw]

theorem goneOnWith_word (th : Thread) (w : Wr) : (goneOnWith th w).word = none := retired_word _ _

/-- s-registers are no part of a thread. -/
theorem applyWr_scalarRegs (th : Thread) (w : Wr) : applyWr th { wrNone with regs := scalarRegs w } = th := by
  have hscalar : ∀ x ∈ scalarRegs w, 0xC0 ≤ x.1 ∧ x.1 < 0xE0 := fun x hx => of_decide_eq_true (List.mem_filter.1 hx).2
  have hg : (scalarRegs w).foldl (fun g x => if x.1 < 0xC0 then Tab.set 0 g x.1 x.2 else g) th.g = th.g :=
    List.foldlRecOn (motive := (· = th.g)) _ _ rfl fun g hg x hx => by rw [if_neg (by have := hscalar x hx; omega), hg]
  have ht : (scalarRegs w).foldl (fun t x => if 0xE0 ≤ x.1 ∧ x.1 < 0xF0 then Tab.set 0 t (x.1 - 0xE0) x.2 else t) th.t = th.t :=
    List.foldlRecOn (motive := (· = th.t)) _ _ rfl fun t ht x hx => by rw [if_neg (by have := hscalar x hx; omega), ht]
  simp only [applyWr, wrNone, List.foldl_nil, hg, ht]
  simp

/-- The writes that wait in a lane for the end of its word. -/
def waitingWr (th : Thread) : Wr :=
  match th.hold with
  | some (.done ws) => { wrNone with regs := ws }
  | _ => wrNone

/-- A lane whose part is done, past its word as the word ends. -/
def partClosed (th : Thread) : Thread := retired (wordEnds th) (waitingWr th)

theorem partClosed_partThread (th : Thread) (w : Wr) : partClosed (partThread th w) = goneOnWith th w := by
  have happly : applyWr (wordEnds (partThread th w)) { wrNone with regs := scalarRegs w } = wordEnds (partThread th w) := applyWr_scalarRegs _ w
  show dropTemps (pastWord { applyWr (wordEnds (partThread th w)) { wrNone with regs := scalarRegs w } with pc := th.pc + 8 }) = _
  rw [happly]
  rfl

/-- A lane outside a word that its group waits for settles alone. -/
theorem resume_eq_finishWord (hth : thread? s sh ln = some th) (hw : th.word = none) (w : Wr) :
    resume s sh ln w = finishWord (updThread s sh ln fun _ => { th with hold := none }) [((sh, ln), .ok w)] := by
  have hupd : (updThread s sh ln fun th => { th with hold := none }) = updThread s sh ln fun _ => { th with hold := none } := updThread_at hth rfl
  unfold resume resumeRes
  simp only [hth, hw, hupd]

/-- A lane of a word that its group waits for does its part, and the word ends if no lane of it waits. -/
theorem resume_eq_closeWord (hth : thread? s sh ln = some th) (hw : th.word = some id) (hn : th.run = none) (w : Wr) :
    resume s sh ln w = closeWord (updThread s sh ln fun _ => partThread th w) sh id := by
  have hth1 : thread? (updThread s sh ln fun th => { th with hold := none }) sh ln = some { th with hold := none } := by rw [thread?_updThread_same, hth]; rfl
  have hpart : partDone id (updThread s sh ln fun th => { th with hold := none }) ((sh, ln), .ok w) = updThread s sh ln fun _ => partThread th w := by
    simp only [partDone, hth1, runForbids_noRun (th := { th with hold := none }) hn, Bool.false_eq_true, if_false, updThread_updThread]
    rw [← hw]
    rfl
  unfold resume resumeRes
  simp only [hth, hw, hpart]

/-! ### States that differ in their sheaves -/

/-- A state that differs from another in lanes and scalar registers alone, and lists no number twice where that lists none. -/
def sheavesOnly (s t : State) : Prop := t = { s with sheaves := t.sheaves } ∧ sheavesKept s t ∧ (tidy s → tidy t)

theorem sheavesOnly_refl (s : State) : sheavesOnly s s := ⟨rfl, fun _ => rfl, fun h => h⟩

theorem sheavesOnly.trans {u : State} (h : sheavesOnly s t) (h' : sheavesOnly t u) : sheavesOnly s u := by
  obtain ⟨h1, h2, h3⟩ := h
  obtain ⟨h1', h2', h3'⟩ := h'
  exact ⟨by rw [h1', h1], fun j => (h2' j).trans (h2 j), h3' ∘ h3⟩

theorem lanesOnly.sheavesOnly {p : Nat → Prop} (h : lanesOnly p s t) : sheavesOnly s t := ⟨h.1, fun j => (skel_scalars (h.2.1 j)).1, h.2.2.2⟩

/-- A sheaf is still there, and of the same launch. -/
theorem sheavesOnly.sheaf? (h : sheavesOnly s t) (hs : sheaf? s sh = some sf) : ∃ x, Machine.sheaf? t sh = some x ∧ runnerOf t x = runnerOf s sf := by
  obtain ⟨hframe, hkept, -⟩ := h
  have hj := hkept sh
  rw [hs] at hj
  obtain ⟨x, hx, hxs⟩ := Option.map_eq_some_iff.1 hj
  refine ⟨x, hx, ?_⟩
  have hlaunch : x.launch = sf.launch := by
    have hlaunch := congrArg Sheaf.launch hxs
    exact hlaunch
  have hlaunches : t.launches = s.launches := by rw [hframe]
  simp only [runnerOf, hlaunch, hlaunches]

/-- A lane that stands at a word stands there in every state that has its thread. -/
theorem sheavesOnly.standsAt (h : sheavesOnly s t) (hst : standsAt s sh ln sf th) (ht : thread? t sh ln = some new) (hrun : new.run = th.run) (hpc : new.pc = th.pc) :
    ∃ x, Machine.standsAt t sh ln x new := by
  obtain ⟨hs, -, hnorun, hrunner, halign⟩ := hst
  obtain ⟨x, hx, hxr⟩ := h.sheaf? hs
  exact ⟨x, hx, by rw [← thread?_of_sheaf? hx, ht], hrun.trans hnorun, hxr.trans hrunner, by rw [hpc]; exact halign⟩

/-! ### Lanes that go past their words -/

theorem tidy_writeScalars (ht : tidy s) : tidy (writeScalars s sh w) := by
  unfold writeScalars
  cases hs : sheaf? s sh with
  | none => exact ht
  | some sf =>
    dsimp only
    generalize (if sf.half = 1 then sf.pair.getD sh else sh) = home
    cases hh : sheaf? s home with
    | none => simpa [updSheaf, hh] using ht
    | some x =>
      rw [updSheaf_eq_setSheaf hh]
      exact tidy_setSheaf ht (ht.2 _ (Tab.mem_of_at? hh))

theorem tidy_settleStep_ok {acc : State × List (Nat × Nat × FaultInfo)} (x : Nat × Nat) (w : Wr) (ht : tidy acc.1) : tidy (settleStep acc (x, .ok w)).1 := by
  unfold settleStep
  split
  · split
    · exact (lanesOnly_updThread _ _ _ _).2.2.2 ht
    · exact ht
  · exact ht

/-- Lanes that go past their words, each with its writes: each is past its word, and beside them only scalar registers change. -/
theorem finishWord_allPast {l : List ((Nat × Nat) × Wr)} {new : Nat × Nat → Thread} (hn : (l.map (·.1)).Nodup)
    (hl : ∀ x ∈ l, ∃ sf th, standsAt s x.1.1 x.1.2 sf th ∧ retired th x.2 = new x.1) :
    let t := finishWord s (l.map fun x => (x.1, .ok x.2))
    sheavesOnly s t ∧ (∀ x ∈ l, thread? t x.1.1 x.1.2 = some (new x.1)) ∧ ∀ y, y ∉ l.map (·.1) → thread? t y.1 y.2 = thread? s y.1 y.2 := by
  intro t
  have hkeys : (l.map fun x => (x.1, LaneRes.ok x.2)).map (·.1) = l.map (·.1) := by simp
  have hr : ∀ x ∈ l.map fun x => (x.1, LaneRes.ok x.2), x.2.quietly = true ∧
      ∃ sf th, sheaf? s x.1.1 = some sf ∧ thread? s x.1.1 x.1.2 = some th ∧ settle s sf th x.2 = .ok (new x.1) := by
    intro x hx
    obtain ⟨y, hy, rfl⟩ := List.mem_map.1 hx
    obtain ⟨sf, th, ⟨hs, hlane, hnorun, hrunner, hpc⟩, hnew⟩ := hl y hy
    exact ⟨rfl, sf, th, hs, by rw [thread?_of_sheaf? hs, hlane], by rw [settle_past hnorun hrunner hpc, hnew]⟩
  obtain ⟨hframe, hin, hout, hkept, -⟩ := finishWord_ok s _ new (by rw [hkeys]; exact hn) hr
  have hbad := (foldl_settleStep s _ new (by rw [hkeys]; exact hn) hr s (sameBut_refl s) fun _ _ => rfl).1
  refine ⟨⟨hframe, hkept, fun ht => ?_⟩, fun x hx => hin _ (List.mem_map_of_mem hx), fun y hy => hout y (by rw [hkeys]; exact hy)⟩
  have hfold : tidy ((l.map fun x => (x.1, LaneRes.ok x.2)).foldl settleStep (s, [])).1 := by
    rw [List.foldl_map]
    exact List.foldlRecOn (motive := fun acc : State × List (Nat × Nat × FaultInfo) => tidy acc.1) _ _ ht fun acc hacc x _ => tidy_settleStep_ok x.1 x.2 hacc
  show tidy (finishWord s _)
  simp only [finishWord, hbad, parkAll, List.map_nil, List.eraseDups_nil, List.foldl_nil]
  split
  · exact tidy_writeScalars hfold
  · exact hfold

/-- The lanes of a word have all done their parts. -/
def partsDone (sf : Sheaf) (id : Nat) : Prop := ∀ e ∈ wordLanes sf id, (∃ ws, e.2.hold = some (.done ws)) ∧ e.2.run = none ∧ e.2.pc.toNat % 8 = 0

theorem closeWord_open {e : Nat × Thread} (hs : sheaf? s sh = some sf) (he : e ∈ wordLanes sf id) (ho : partOpen e.2.hold = true) : closeWord s sh id = s := by
  have hany : (wordLanes sf id).any (fun l => partOpen l.2.hold) = true := List.any_eq_true.2 ⟨e, he, ho⟩
  simp only [closeWord, hs, hany, if_true]

/-- A word whose lanes have all done their parts ends, and no other lane changes. -/
theorem closeWord_done (ht : tidy s) (hs : sheaf? s sh = some sf) (hr : runnerOf s sf = none) (hd : partsDone sf id) :
    let t := closeWord s sh id
    sheavesOnly s t ∧ (∀ e ∈ wordLanes sf id, thread? t sh e.1 = some (partClosed e.2)) ∧
      ∀ y : Nat × Nat, ¬(y.1 = sh ∧ y.2 ∈ (wordLanes sf id).map (·.1)) → thread? t y.1 y.2 = thread? s y.1 y.2 := by
  intro t
  let l : List ((Nat × Nat) × Wr) := (wordLanes sf id).map fun e => ((sh, e.1), waitingWr e.2)
  let mid := (wordLanes sf id).foldl (fun s x => updThread s sh x.1 wordEnds) s
  have hopen : (wordLanes sf id).any (fun x => partOpen x.2.hold) = false := List.any_eq_false.2 fun e he => by
    obtain ⟨⟨ws, hws⟩, -⟩ := hd e he
    simp [hws, partOpen, groupWait]
  have hres : (wordLanes sf id).filterMap (fun x => (partResult x.2.hold).map fun r => ((sh, x.1), r)) = l.map fun x => (x.1, .ok x.2) := by
    rw [List.map_map, ← List.filterMap_eq_map]
    refine List.filterMap_congr fun e he => ?_
    obtain ⟨⟨ws, hws⟩, -⟩ := hd e he
    simp [hws, partResult, waitingWr]
  have hclose : t = finishWord mid (l.map fun x => (x.1, .ok x.2)) := by
    rw [← hres]
    show closeWord s sh id = _
    simp only [closeWord, hs, hopen, Bool.false_eq_true, if_false]
    rfl
  have hat : ∀ e ∈ wordLanes sf id, thread? s sh e.1 = some e.2 := fun e he => by
    rw [thread?_of_sheaf? hs]
    exact Tab.at?_of_mem (ht.2 _ (Tab.mem_of_at? hs)) (List.mem_filter.1 he).1
  obtain ⟨hlo, hmid⟩ := foldl_wordEnds (sh := sh) (wordLanes sf id) s
  have hmidAt : ∀ e ∈ wordLanes sf id, thread? mid sh e.1 = some (wordEnds e.2) := fun e he => by
    rw [hmid, if_pos ⟨rfl, List.mem_map_of_mem he⟩, hat e he]
    rfl
  have hkeys : l.map (·.1) = (wordLanes sf id).map fun e => (sh, e.1) := by simp [l]
  have hnodup : ((wordLanes sf id).map (·.1)).Nodup := (ht.2 _ (Tab.mem_of_at? hs)).sublist (List.filter_sublist.map _)
  obtain ⟨h1, h2, h3⟩ := finishWord_allPast (s := mid) (l := l) (new := fun y => ((thread? s y.1 y.2).map partClosed).getD threadStart)
    (by rw [hkeys, show (fun e : Nat × Thread => (sh, e.1)) = Prod.mk sh ∘ (·.1) from rfl, ← List.map_map]
        exact hnodup.map fun _ _ h => (Prod.mk.inj h).2) fun x hx => by
      obtain ⟨e, he, rfl⟩ := List.mem_map.1 hx
      obtain ⟨-, hnorun, hpc⟩ := hd e he
      obtain ⟨x, hx⟩ := hlo.sheavesOnly.standsAt (sh := sh) (th := e.2) ⟨hs, by rw [← thread?_of_sheaf? hs, hat e he], hnorun, hr, hpc⟩ (hmidAt e he) rfl rfl
      exact ⟨x, _, hx, by rw [hat e he]; rfl⟩
  rw [hclose]
  refine ⟨hlo.sheavesOnly.trans h1, fun e he => ?_, fun y hy => ?_⟩
  · rw [h2 ((sh, e.1), waitingWr e.2) (List.mem_map_of_mem he)]
    dsimp only
    rw [hat e he]
    rfl
  · rw [h3 y, hmid, if_neg hy]
    rw [hkeys]
    rintro hc
    obtain ⟨e, he, rfl⟩ := List.mem_map.1 hc
    exact hy ⟨rfl, List.mem_map_of_mem he⟩

end Sys2Proof.Machine
end

section
/-! Lanes that one event lets go on, each with its writes (`wakes_resumeWaiters`) (R179, R180). -/

namespace Sys2Proof.Machine

variable {s t : State} {waits : Nat → Nat → Thread → Option Wr} {done : List (Nat × Nat)} {sh id : Nat} {x y : Nat × Nat} {sf : Sheaf} {th u : Thread} {w : Wr}

/-! ### The lanes that wait -/

/-- The lanes that wait for something, each with its writes, sheaf by sheaf. -/
def waitersOf (s : State) (waits : Nat → Nat → Thread → Option Wr) : List ((Nat × Nat) × Wr) :=
  s.sheaves.flatMap fun e => e.2.lanes.filterMap fun l => (waits e.1 l.1 l.2).map fun w => ((e.1, l.1), w)

/-- The lanes of a list go on, one after another. -/
def resumeWaiters (s : State) (l : List ((Nat × Nat) × Wr)) : State := l.foldl (fun s x => resume s x.1.1 x.1.2 x.2) s

theorem mem_waitersOf (ht : tidy s) :
    (x, w) ∈ waitersOf s waits ↔ ∃ th, thread? s x.1 x.2 = some th ∧ waits x.1 x.2 th = some w := by
  simp only [waitersOf, List.mem_flatMap, List.mem_filterMap, Option.map_eq_some_iff, Prod.mk.injEq]
  constructor
  · rintro ⟨e, he, l, hl, w', hw, rfl, rfl⟩
    have hs : sheaf? s e.1 = some e.2 := Tab.at?_of_mem ht.1 he
    exact ⟨l.2, by rw [thread?_of_sheaf? hs]; exact Tab.at?_of_mem (ht.2 e he) hl, hw⟩
  · rintro ⟨th, hth, hw⟩
    cases hs : sheaf? s x.1 with
    | none => simp [thread?, hs] at hth
    | some sf =>
      rw [thread?_of_sheaf? hs] at hth
      exact ⟨_, Tab.mem_of_at? hs, _, Tab.mem_of_at? hth, w, hw, rfl, rfl⟩

theorem laneNames_nodup (ht : tidy s) : (s.sheaves.flatMap fun e => e.2.lanes.map fun l => (e.1, l.1)).Nodup := by
  refine List.nodup_flatMap.2 ⟨fun e he => List.Nodup.of_map Prod.snd (by rw [List.map_map]; exact ht.2 e he),
    (List.pairwise_map.1 ht.1).imp fun {a b} hab => ?_⟩
  intro z hza hzb
  obtain ⟨_, -, rfl⟩ := List.mem_map.1 hza
  obtain ⟨_, -, hz⟩ := List.mem_map.1 hzb
  exact hab (congrArg Prod.fst hz).symm

theorem waitersOf_nodup (ht : tidy s) : ((waitersOf s waits).map (·.1)).Nodup := by
  refine (laneNames_nodup ht).sublist ?_
  rw [waitersOf, List.map_flatMap]
  exact List.Sublist.flatMap_right _ fun e _ => filterMap_map_sublist (fun l b hb => by
    obtain ⟨_, -, rfl⟩ := Option.map_eq_some_iff.1 hb
    rfl) _

/-- The lanes that wait stand at their words outside runs and runner launches, with parts of their words to do, each with all lanes of its word. -/
def waitsTogether (s : State) (waits : Nat → Nat → Thread → Option Wr) : Prop :=
  tidy s ∧ ∀ (x : Nat × Nat) th w, thread? s x.1 x.2 = some th → waits x.1 x.2 th = some w →
    (∃ sf, standsAt s x.1 x.2 sf th) ∧ partOpen th.hold = true ∧
      ∀ k u, th.word.isSome = true → u.word = th.word → thread? s x.1 k = some u → (waits x.1 k u).isSome = true

theorem waitsTogether_of_waitersStand (h : waitersStand s waits) (ho : ∀ sh ln th w, waits sh ln th = some w → partOpen th.hold = true) :
    waitsTogether s waits := by
  obtain ⟨ht, hstand⟩ := h
  refine ⟨ht, fun x th w hth hw => ?_⟩
  cases hs : sheaf? s x.1 with
  | none => simp [thread?, hs] at hth
  | some sf =>
    have hlane := hth
    rw [thread?_of_sheaf? hs] at hlane
    obtain ⟨hst, hmates⟩ := hstand _ (Tab.mem_of_at? hs) _ (Tab.mem_of_at? hlane) (by rw [hw]; rfl)
    refine ⟨⟨sf, hst⟩, ho _ _ _ _ hw, fun k u hsome hword hu => ?_⟩
    obtain ⟨id, hid⟩ := Option.isSome_iff_exists.1 hsome
    rw [thread?_of_sheaf? hs] at hu
    exact hmates id hid _ (Tab.mem_of_at? hu) (hword.trans hid)

/-! ### A word whose lanes go on one after another -/

/-- Some lane of a word has its part still to do, when the lanes of a list have done theirs. -/
def partsLeft (s : State) (done : List (Nat × Nat)) (sh : Nat) (word : Option Nat) : Bool :=
  match sheaf? s sh, word with
  | some sf, some id => (wordLanes sf id).any fun l => decide ((sh, l.1) ∉ done)
  | _, _ => false

theorem partsLeft_noWord (s : State) (done : List (Nat × Nat)) (sh : Nat) : partsLeft s done sh none = false := by
  unfold partsLeft
  split
  · next h => cases h
  · rfl

theorem partsLeft_iff (ht : tidy s) : partsLeft s done sh (some id) = true ↔ ∃ k u, thread? s sh k = some u ∧ u.word = some id ∧ (sh, k) ∉ done := by
  cases hs : sheaf? s sh with
  | none => simp [partsLeft, hs, thread?]
  | some sf =>
    simp only [partsLeft, hs, List.any_eq_true, decide_eq_true_eq, wordLanes, List.mem_filter, thread?_of_sheaf? hs]
    constructor
    · rintro ⟨l, ⟨hl, hw⟩, hd⟩
      exact ⟨l.1, l.2, Tab.at?_of_mem (ht.2 _ (Tab.mem_of_at? hs)) hl, hw, hd⟩
    · rintro ⟨k, u, hu, hw, hd⟩
      exact ⟨(k, u), ⟨Tab.mem_of_at? hu, hw⟩, hd⟩

/-- A lane of another word does not matter to a word. -/
theorem partsLeft_cons (ht : tidy s) (hx : thread? s x.1 x.2 = some th) {word : Option Nat} (h : sh = x.1 → word = th.word → word = none) :
    partsLeft s (x :: done) sh word = partsLeft s done sh word := by
  cases word with
  | none => rw [partsLeft_noWord, partsLeft_noWord]
  | some id =>
    rw [Bool.eq_iff_iff, partsLeft_iff ht, partsLeft_iff ht]
    refine exists_congr fun k => exists_congr fun u => and_congr_right fun hu => and_congr_right fun hw => not_congr ?_
    rw [List.mem_cons, or_iff_right]
    rintro rfl
    rw [hx] at hu
    obtain rfl := Option.some.inj hu
    exact Option.some_ne_none _ (h rfl hw.symm)

/-- A lane's thread when the lanes of a list have done their parts: those of a finished word are past it. -/
def laneStage (s : State) (waits : Nat → Nat → Thread → Option Wr) (done : List (Nat × Nat)) (x : Nat × Nat) (th : Thread) : Thread :=
  match waits x.1 x.2 th with
  | some w => if x ∈ done then (if partsLeft s done x.1 th.word = true then partThread th w else goneOnWith th w) else th
  | none => th

theorem laneStage_notDone (h : x ∉ done) (th : Thread) : laneStage s waits done x th = th := by
  unfold laneStage
  split
  · rw [if_neg h]
  · rfl

theorem laneStage_none (h : waits x.1 x.2 th = none) : laneStage s waits done x th = th := by
  unfold laneStage
  rw [h]

theorem laneStage_done (h : waits x.1 x.2 th = some w) (hd : x ∈ done) :
    laneStage s waits done x th = if partsLeft s done x.1 th.word = true then partThread th w else goneOnWith th w := by
  unfold laneStage
  rw [h]
  exact if_pos hd

theorem laneStage_cons (hy : y ≠ x) (h : partsLeft s (x :: done) y.1 th.word = partsLeft s done y.1 th.word) :
    laneStage s waits (x :: done) y th = laneStage s waits done y th := by
  unfold laneStage
  rw [h]
  simp only [List.mem_cons, hy, false_or]

/-- A state in which the lanes of a list have gone on: each lane is at its stage, and beside lanes only scalar registers differ. -/
def resumedSo (s : State) (waits : Nat → Nat → Thread → Option Wr) (done : List (Nat × Nat)) (t : State) : Prop :=
  sheavesOnly s t ∧ ∀ y : Nat × Nat, thread? t y.1 y.2 = (thread? s y.1 y.2).map (laneStage s waits done y)

theorem resumedSo_nil (s : State) (waits : Nat → Nat → Thread → Option Wr) : resumedSo s waits [] s := by
  refine ⟨sheavesOnly_refl s, fun y => ?_⟩
  cases thread? s y.1 y.2 with
  | none => rfl
  | some th => rw [Option.map_some, laneStage_notDone List.not_mem_nil]

theorem laneStage_word (s : State) (waits : Nat → Nat → Thread → Option Wr) (done : List (Nat × Nat)) (x : Nat × Nat) (th : Thread) :
    (laneStage s waits done x th).word = th.word ∨ (laneStage s waits done x th).word = none := by
  unfold laneStage
  split
  · split
    · split
      · exact .inl rfl
      · exact .inr (goneOnWith_word _ _)
    · exact .inl rfl
  · exact .inl rfl

section
variable (hwt : waitsTogether s waits) (ht : resumedSo s waits done t) (hx : thread? s x.1 x.2 = some th) (hw : waits x.1 x.2 th = some w) (hd : x ∉ done)
include hwt ht hx hw hd

/-- A lane whose group does not wait at its word goes past it at once. -/
theorem resumedSo_cons_noWord (hword : th.word = none) : resumedSo s waits (x :: done) (resume t x.1 x.2 w) := by
  obtain ⟨hso, hat⟩ := ht
  obtain ⟨⟨sf, hst⟩, -⟩ := hwt.2 x th w hx hw
  have hxt : thread? t x.1 x.2 = some th := by rw [hat, hx, Option.map_some, laneStage_notDone hd]
  let mid := updThread t x.1 x.2 fun _ => { th with hold := none }
  have hmid : thread? mid x.1 x.2 = some { th with hold := none } := by rw [thread?_updThread_same, hxt]; rfl
  have hso' : sheavesOnly s mid := hso.trans (lanesOnly_updThread t x.1 x.2 _).sheavesOnly
  obtain ⟨sf', hst'⟩ := hso'.standsAt hst hmid rfl rfl
  obtain ⟨h1, h2, h3⟩ := finishWord_allPast (s := mid) (l := [(x, w)]) (new := fun _ => goneOnWith th w) (by simp) fun z hz => by
    obtain rfl := List.mem_singleton.1 hz
    exact ⟨sf', _, hst', (goneOnWith_noWord hword w).symm⟩
  have hres : resume t x.1 x.2 w = finishWord mid ([(x, w)].map fun x => (x.1, .ok x.2)) := resume_eq_finishWord hxt hword w
  rw [hres]
  refine ⟨hso'.trans h1, fun y => ?_⟩
  by_cases hy : y = x
  · subst hy
    rw [h2 (y, w) (List.mem_singleton.2 rfl), hx, Option.map_some, laneStage_done hw List.mem_cons_self, hword, partsLeft_noWord]
    rfl
  · rw [h3 y (by simpa using hy), thread?_updThread_other _ _ (Ne.symm hy), hat]
    exact Option.map_congr fun u hu => (laneStage_cons hy (partsLeft_cons hwt.1 hx fun _ h => h.trans hword)).symm

end

/-- The state in which a lane has done its part of its word, the lanes of a list having gone on before it. -/
def partMade (s : State) (waits : Nat → Nat → Thread → Option Wr) (done : List (Nat × Nat)) (x : Nat × Nat) (th : Thread) (w : Wr) (m : State) : Prop :=
  sheavesOnly s m ∧ thread? m x.1 x.2 = some (partThread th w) ∧
    ∀ y : Nat × Nat, y ≠ x → thread? m y.1 y.2 = (thread? s y.1 y.2).map (laneStage s waits done y)

section
variable {m : State} (hwt : waitsTogether s waits) (hm : partMade s waits done x th w m) (hx : thread? s x.1 x.2 = some th)
  (hw : waits x.1 x.2 th = some w) (hd : x ∉ done) (hword : th.word = some id)
include hwt hm hx hw hd hword

/-- While a lane of a word has its part to do, the others stand at the word, their parts done or not. -/
theorem partMade_mate {k : Nat} (hu : thread? s x.1 k = some u) (huw : u.word = some id) :
    ∃ w', waits x.1 k u = some w' ∧ thread? m x.1 k = some (if (x.1, k) ∈ x :: done then partThread u w' else u) := by
  obtain ⟨-, hmx, hmy⟩ := hm
  obtain ⟨-, -, hmates⟩ := hwt.2 x th w hx hw
  obtain ⟨w', hw'⟩ := Option.isSome_iff_exists.1 (hmates k u (by rw [hword]; rfl) (huw.trans hword.symm) hu)
  refine ⟨w', hw', ?_⟩
  by_cases hk : (x.1, k) = x
  · obtain rfl : k = x.2 := congrArg Prod.snd hk
    obtain rfl : th = u := Option.some.inj (hx.symm.trans hu)
    obtain rfl : w = w' := Option.some.inj (hw.symm.trans hw')
    rw [hmx, if_pos List.mem_cons_self]
  · have hleft : partsLeft s done x.1 u.word = true := by
      rw [huw]
      exact (partsLeft_iff hwt.1).2 ⟨x.2, th, hx, hword, hd⟩
    rw [hmy _ hk, hu, Option.map_some]
    simp only [List.mem_cons, hk, false_or]
    split
    · next h => rw [laneStage_done hw' h, if_pos hleft]
    · next h => rw [laneStage_notDone h]

omit hwt hw hd in
/-- The lanes of the word were its lanes before. -/
theorem partMade_word {k : Nat} (hu : thread? m x.1 k = some u) (huw : u.word = some id) : ∃ v, thread? s x.1 k = some v ∧ v.word = some id := by
  obtain ⟨-, -, hmy⟩ := hm
  by_cases hk : (x.1, k) = x
  · obtain rfl : k = x.2 := congrArg Prod.snd hk
    exact ⟨th, hx, hword⟩
  · rw [hmy _ hk] at hu
    obtain ⟨v, hv, rfl⟩ := Option.map_eq_some_iff.1 hu
    refine ⟨v, hv, ?_⟩
    rcases laneStage_word s waits done (x.1, k) v with h | h
    · rw [← h, huw]
    · rw [huw] at h
      cases h

omit hd in
/-- A lane of another word is where it was. -/
theorem partMade_other (hy : ¬(y.1 = x.1 ∧ ∃ u, thread? s y.1 y.2 = some u ∧ u.word = some id)) :
    thread? m y.1 y.2 = (thread? s y.1 y.2).map (laneStage s waits (x :: done) y) := by
  have hyx : y ≠ x := by
    rintro rfl
    exact hy ⟨rfl, th, hx, hword⟩
  obtain ⟨-, -, hmy⟩ := hm
  rw [hmy y hyx]
  exact Option.map_congr fun u hu => (laneStage_cons hyx (partsLeft_cons hwt.1 hx fun h1 h2 => absurd ⟨h1, u, hu, h2.trans hword⟩ hy)).symm

/-- A word that has parts left stays. -/
theorem resumedSo_of_partsLeft (hleft : partsLeft s (x :: done) x.1 (some id) = true) : resumedSo s waits (x :: done) (closeWord m x.1 id) := by
  obtain ⟨k, u, hu, huw, hnot⟩ := (partsLeft_iff hwt.1).1 hleft
  obtain ⟨w', hw', huk⟩ := partMade_mate hwt hm hx hw hd hword hu huw
  obtain ⟨⟨sf, hst⟩, -⟩ := hwt.2 x th w hx hw
  obtain ⟨-, hopen, -⟩ := hwt.2 (x.1, k) u w' hu hw'
  obtain ⟨sfm, hsm, -⟩ := hm.1.sheaf? hst.1
  rw [if_neg hnot, thread?_of_sheaf? hsm] at huk
  rw [closeWord_open hsm (List.mem_filter.2 ⟨Tab.mem_of_at? huk, decide_eq_true huw⟩) hopen]
  refine ⟨hm.1, fun y => ?_⟩
  by_cases hy : y.1 = x.1 ∧ ∃ u, thread? s y.1 y.2 = some u ∧ u.word = some id
  · obtain ⟨j, k⟩ := y
    obtain ⟨rfl, v, hv, hvw⟩ := hy
    obtain ⟨w'', hw'', hvk⟩ := partMade_mate hwt hm hx hw hd hword hv hvw
    rw [hvk, hv, Option.map_some]
    split
    · next h => rw [laneStage_done hw'' h, hvw, if_pos hleft]
    · next h => rw [laneStage_notDone h]
  · exact partMade_other hwt hm hx hw hword hy

/-- A word whose last part is done ends: all of its lanes are past it. -/
theorem resumedSo_of_lastPart (hleft : ¬partsLeft s (x :: done) x.1 (some id) = true) : resumedSo s waits (x :: done) (closeWord m x.1 id) := by
  have hin : ∀ {k u}, thread? s x.1 k = some u → u.word = some id → (x.1, k) ∈ x :: done := fun hu huw =>
    Classical.byContradiction fun h => hleft ((partsLeft_iff hwt.1).2 ⟨_, _, hu, huw, h⟩)
  obtain ⟨⟨sf, hst⟩, -⟩ := hwt.2 x th w hx hw
  obtain ⟨sfm, hsm, hrm⟩ := hm.1.sheaf? hst.1
  have htidy := hm.1.2.2 hwt.1
  have hlanes : ∀ e ∈ wordLanes sfm id, thread? m x.1 e.1 = some e.2 ∧ e.2.word = some id := fun e he => by
    obtain ⟨he, hew⟩ := List.mem_filter.1 he
    exact ⟨by rw [thread?_of_sheaf? hsm]; exact Tab.at?_of_mem (htidy.2 _ (Tab.mem_of_at? hsm)) he, of_decide_eq_true hew⟩
  obtain ⟨h1, h2, h3⟩ := closeWord_done htidy hsm (hrm.trans hst.2.2.2.1) fun e he => by
    obtain ⟨hte, hew⟩ := hlanes e he
    obtain ⟨v, hv, hvw⟩ := partMade_word hm hx hword hte hew
    obtain ⟨w', hw', hvk⟩ := partMade_mate hwt hm hx hw hd hword hv hvw
    rw [if_pos (hin hv hvw)] at hvk
    obtain ⟨⟨_, -, -, hnorun, -, hpc⟩, -⟩ := hwt.2 (x.1, e.1) v w' hv hw'
    rw [Option.some.inj (hte.symm.trans hvk)]
    exact ⟨⟨_, rfl⟩, hnorun, hpc⟩
  refine ⟨hm.1.trans h1, fun y => ?_⟩
  by_cases hy : y.1 = x.1 ∧ ∃ u, thread? s y.1 y.2 = some u ∧ u.word = some id
  · obtain ⟨j, k⟩ := y
    obtain ⟨rfl, v, hv, hvw⟩ := hy
    obtain ⟨w', hw', hvk⟩ := partMade_mate hwt hm hx hw hd hword hv hvw
    rw [if_pos (hin hv hvw), thread?_of_sheaf? hsm] at hvk
    rw [h2 (k, partThread v w') (List.mem_filter.2 ⟨Tab.mem_of_at? hvk, decide_eq_true hvw⟩), partClosed_partThread, hv, Option.map_some,
      laneStage_done hw' (hin hv hvw), hvw, if_neg hleft]
  · rw [h3 y, partMade_other hwt hm hx hw hword hy]
    rintro ⟨hyx, hyk⟩
    obtain ⟨e, he, hek⟩ := List.mem_map.1 hyk
    obtain ⟨hte, hew⟩ := hlanes e he
    obtain ⟨v, hv, hvw⟩ := partMade_word hm hx hword hte hew
    exact hy ⟨hyx, v, by rw [hyx, ← hek, hv], hvw⟩

end

/-- One more of the lanes that wait goes on. -/
theorem resumedSo_cons (hwt : waitsTogether s waits) (ht : resumedSo s waits done t) (hx : thread? s x.1 x.2 = some th)
    (hw : waits x.1 x.2 th = some w) (hd : x ∉ done) : resumedSo s waits (x :: done) (resume t x.1 x.2 w) := by
  cases hword : th.word with
  | none => exact resumedSo_cons_noWord hwt ht hx hw hd hword
  | some id =>
    obtain ⟨hso, hat⟩ := ht
    obtain ⟨⟨sf, hst⟩, -⟩ := hwt.2 x th w hx hw
    have hxt : thread? t x.1 x.2 = some th := by rw [hat, hx, Option.map_some, laneStage_notDone hd]
    have hm : partMade s waits done x th w (updThread t x.1 x.2 fun _ => partThread th w) :=
      ⟨hso.trans (lanesOnly_updThread t x.1 x.2 _).sheavesOnly, by rw [thread?_updThread_same, hxt]; rfl,
        fun y hy => by rw [thread?_updThread_other _ _ (Ne.symm hy), hat]⟩
    rw [resume_eq_closeWord hxt hword hst.2.2.1]
    by_cases hleft : partsLeft s (x :: done) x.1 (some id) = true
    · exact resumedSo_of_partsLeft hwt hm hx hw hd hword hleft
    · exact resumedSo_of_lastPart hwt hm hx hw hd hword hleft

theorem resumedSo_resumeWaiters (hwt : waitsTogether s waits) (l : List ((Nat × Nat) × Wr)) (hl : (l.map (·.1)).Nodup)
    (hlw : ∀ e ∈ l, e.1 ∉ done ∧ ∃ th, thread? s e.1.1 e.1.2 = some th ∧ waits e.1.1 e.1.2 th = some e.2) (ht : resumedSo s waits done t) :
    resumedSo s waits ((l.map (·.1)).reverse ++ done) (resumeWaiters t l) := by
  induction l generalizing done t with
  | nil => exact ht
  | cons e l ih =>
    obtain ⟨hnot, hl⟩ := List.nodup_cons.1 hl
    obtain ⟨hd, th, hth, hw⟩ := hlw e List.mem_cons_self
    have ih := ih (done := e.1 :: done) (t := resume t e.1.1 e.1.2 e.2) hl (fun e' he' => by
      obtain ⟨hd', hth'⟩ := hlw e' (List.mem_cons_of_mem _ he')
      refine ⟨?_, hth'⟩
      rw [List.mem_cons, not_or]
      exact ⟨fun h => hnot (List.mem_map.2 ⟨e', he', h⟩), hd'⟩) (resumedSo_cons hwt ht hth hw hd)
    rw [List.map_cons, List.reverse_cons, List.append_assoc]
    exact ih

/-- Lanes that wait together go on: each is past its word with its writes, and no other lane has changed. -/
theorem wakes_resumeWaiters (hwt : waitsTogether s waits) :
    let t := resumeWaiters s (waitersOf s waits)
    t = { s with sheaves := t.sheaves } ∧ wakes s t [] waits := by
  have hl : ∀ e ∈ waitersOf s waits, e.1 ∉ ([] : List (Nat × Nat)) ∧ ∃ th, thread? s e.1.1 e.1.2 = some th ∧ waits e.1.1 e.1.2 th = some e.2 :=
    fun e he => ⟨List.not_mem_nil, (mem_waitersOf hwt.1).1 he⟩
  obtain ⟨hso, hat⟩ := resumedSo_resumeWaiters hwt _ (waitersOf_nodup hwt.1) hl (resumedSo_nil s waits)
  rw [List.append_nil] at hat
  have hmem : ∀ {y : Nat × Nat} {th w}, thread? s y.1 y.2 = some th → waits y.1 y.2 th = some w → y ∈ ((waitersOf s waits).map (·.1)).reverse :=
    fun hth hw => List.mem_reverse.2 (List.mem_map.2 ⟨_, (mem_waitersOf hwt.1).2 ⟨_, hth, hw⟩, rfl⟩)
  refine ⟨hso.1, fun e he l hlane _ => ?_⟩
  have hs : sheaf? s e.1 = some e.2 := Tab.at?_of_mem hwt.1.1 he
  have hth : thread? s (e.1, l.1).1 (e.1, l.1).2 = some l.2 := by
    rw [thread?_of_sheaf? hs]
    exact Tab.at?_of_mem (hwt.1.2 e he) hlane
  rw [hat (e.1, l.1), hth, Option.map_some]
  cases hw : waits e.1 l.1 l.2 with
  | none => rw [laneStage_none hw]
  | some w =>
    obtain ⟨-, -, hmates⟩ := hwt.2 (e.1, l.1) l.2 w hth hw
    rw [laneStage_done hw (hmem hth hw), if_neg]
    · rfl
    · intro hleft
      cases hword : l.2.word with
      | none => rw [hword, partsLeft_noWord] at hleft; cases hleft
      | some id =>
        rw [hword] at hleft
        obtain ⟨k, u, hu, huw, hnot⟩ := (partsLeft_iff hwt.1).1 hleft
        obtain ⟨w', hw'⟩ := Option.isSome_iff_exists.1 (hmates k u (by rw [hword]; rfl) (huw.trans hword.symm) hu)
        exact hnot (hmem (y := (e.1, k)) hu hw')

end Sys2Proof.Machine
end

section
/-! Scratch banks: BANKCFG in one lane, the end of a switch, and the settled statement (R258 to R260, R307). -/

namespace Sys2Proof

theorem Tab.at?_filter {α : Type} (p : Nat → Bool) (t : Tab α) (k : Nat) : Tab.at? (t.filter fun e => p e.1) k = if p k = true then Tab.at? t k else none := by
  induction t with
  | nil => simp [Tab.at?]
  | cons e t ih =>
    obtain ⟨j, v⟩ := e
    by_cases hj : j = k
    · subst hj
      cases hp : p j <;> simp [Tab.at?, hp, ih]
    · cases hp : p j <;> simp [Tab.at?, hp, ih, hj]

theorem Tab.get_filter {α : Type} (d : α) (p : Nat → Bool) (t : Tab α) (k : Nat) :
    Tab.get d (t.filter fun e => p e.1) k = if p k = true then Tab.get d t k else d := by
  rw [Tab.get, Tab.at?_filter]
  by_cases hp : p k = true
  · rw [if_pos hp, if_pos hp]
    rfl
  · rw [if_neg hp, if_neg hp]

namespace Machine

variable {s t : State} {sh ln k b : Nat} {sf : Sheaf} {th : Thread} {m : BankMode}

/-! ### A word-scope word of one lane -/

theorem goesPast_congr {u : State} {w : Wr} (h : goesPast (soloEnv t sh ln sf th) u w) (hsh : t.sheaves = s.sheaves) {u' : State} (hu : u'.sheaves = u.sheaves) :
    goesPast (soloEnv s sh ln sf th) u' w := by
  unfold goesPast lanesKept sheavesKept scalarsKept thread? sheaf? at h ⊢
  simp only [soloEnv_s, soloEnv_sh, soloEnv_ln, soloEnv_th] at h ⊢
  rw [← hsh, hu]
  exact h

/-- One lane's writes: its thread is past its word, and beside its sheaf nothing changes. -/
theorem finishWord_goesPast {w : Wr} (hst : standsAt s sh ln sf th) :
    goesPast (soloEnv s sh ln sf th) (finishWord s [((sh, ln), .ok w)]) w ∧
      finishWord s [((sh, ln), .ok w)] = { s with sheaves := (finishWord s [((sh, ln), .ok w)]).sheaves } := by
  obtain ⟨hs, hl, hnorun, hrunner, hpc⟩ := hst
  obtain ⟨hframe, hin, hout, hkept, hscal⟩ := finishWord_ok s [((sh, ln), .ok w)] (fun _ => retired th w) (by simp) fun x hx => by
    obtain rfl := List.mem_singleton.1 hx
    exact ⟨rfl, sf, th, hs, by rw [thread?_of_sheaf? hs, hl], settle_past hnorun hrunner hpc⟩
  refine ⟨⟨hin _ (List.mem_singleton.2 rfl), fun y hy => hout y (by simpa using hy), hkept, fun hw j => hscal (fun x hx r hr => ?_) j⟩, hframe⟩
  obtain rfl := List.mem_singleton.1 hx
  have hr := hw r hr
  omega

section
variable {c : WordCfg} {f : Env → State → State × (Nat → LaneRes)} {r : Nat → LaneRes} (hone : oneLane s c.guard sh ln sf th) (hc : c.handler = false)
  (hf : f (soloEnv s sh ln sf th) s = (t, r)) (hfo : t.focus = s.focus) (hsh : t.sheaves = s.sheaves)
include hone hc hf hfo hsh

/-- The lane goes past the word with its writes. -/
theorem wordScope_past {w : Wr} (hr : r ln = .ok w) (hla : t.launches = s.launches) :
    goesPast (soloEnv s sh ln sf th) (wordScope c f s) w ∧ wordScope c f s = { t with sheaves := (wordScope c f s).sheaves, focus := none } := by
  have hfresh : fresh t := fun g hg => fresh_one hone g (hfo ▸ hg)
  have hword : wordScope c f s = { finishWord t [((sh, ln), .ok w)] with focus := none } := by
    rw [wordScope_one c hone hc f, hf]
    dsimp only
    rw [hr, endWord_fresh hfresh (by simp [resWaits]), List.append_nil]
  obtain ⟨-, -, hs, hl, -, hnorun, -, hrunner, hpc⟩ := hone
  have hst : standsAt t sh ln sf th := ⟨by unfold sheaf?; rw [hsh]; exact hs, hl, hnorun, by unfold runnerOf; rw [hla]; exact hrunner, hpc⟩
  obtain ⟨hpast, hframe⟩ := finishWord_goesPast (w := w) hst
  rw [hword]
  exact ⟨goesPast_congr hpast hsh rfl, congrArg (fun x : State => { x with focus := none }) hframe⟩

/-- The lane stands at the word with its group, which waits (R179). -/
theorem wordScope_waits {h : Hold} (hr : r ln = .hold h) (hwait : groupWait h = true) (hbegun : notBegun (.hold h) = false) :
    waitsBegun (soloEnv s sh ln sf th) (wordScope c f s) h ∧
      wordScope c f s = { t with sheaves := (wordScope c f s).sheaves, nextId := t.nextId + 1, focus := none } := by
  let mid : State := { t with nextId := t.nextId + 1 }
  let new : Thread := { th with word := some t.nextId, hold := some h }
  have hth : thread? mid sh ln = some th := (thread?_congr hsh sh ln).trans (thread_one hone)
  have hgroup : t.focus.getD { sh := 0, mask := 0, pairMask := 0, rest := 0, word := none } =
      { sh := sh, mask := BitVec.ofNat 32 (2 ^ ln), pairMask := 0, rest := 0, word := none } := by rw [hfo, hone.1]; rfl
  have hs : sheaf? mid sh = some sf := by
    show Tab.at? t.sheaves sh = some sf
    rw [hsh]
    exact hone.2.2.1
  have hpart : partDone t.nextId mid ((sh, ln), .hold h) = updThread mid sh ln fun _ => new := by
    simp only [partDone, hth]
    rfl
  have hclose : closeWord (updThread mid sh ln fun _ => new) sh t.nextId = updThread mid sh ln fun _ => new := by
    have hs' := sheaf?_setSheaf_same mid sh { sf with lanes := Tab.put sf.lanes ln new }
    rw [← updThread_eq_setSheaf hs hone.2.2.2.1 fun _ => new] at hs'
    exact closeWord_open hs' (e := (ln, new)) (List.mem_filter.2 ⟨Tab.mem_put.2 (.inl rfl), by simp [new]⟩) hwait
  have hword : wordScope c f s = { updThread mid sh ln (fun _ => new) with focus := none } := by
    rw [wordScope_one c hone hc f, hf]
    dsimp only
    rw [hr]
    simp only [endWord, hgroup, List.isEmpty_nil, Option.isNone_none, Bool.and_self, List.any_cons, List.any_nil, resWaits, hwait, Bool.true_or, Bool.not_true,
      Bool.and_false, Bool.false_eq_true, if_false, List.all_cons, List.all_nil, hbegun, Bool.false_and, List.map_nil, List.append_nil, List.foldl_cons,
      List.foldl_nil, Option.getD_none]
    rw [hpart, hclose]
  rw [hword]
  exact ⟨⟨t.nextId, (becomes_updThread hth new).congr hsh.symm rfl⟩,
    congrArg (fun x : State => { x with focus := none }) (updThread_frame mid sh ln fun _ => new)⟩

end

/-! ### BANKCFG (R260, R307) -/

theorem coreBecomes_updCore (f : CoreSt → CoreSt) (h : t.cores = (updCore s k f).cores) : coreBecomes s t k (f (coreAt s k)) := by
  have hat : ∀ j, coreAt t j = coreAt (updCore s k f) j := fun j => by unfold coreAt; rw [h]
  exact ⟨(hat k).trans (coreAt_updCore_same _ _ _), fun j hj => (hat j).trans (coreAt_updCore_other _ _ (Ne.symm hj))⟩

/-- A team of another context is on the lane's core. -/
def coreShared (e : Env) : Bool := e.s.teams.any fun t => decide (t.2.core = coreOf e.sh) && decide (t.2.ctx ≠ e.sf.ctx)

/-- What BANKCFG answers to the outcome of its request. -/
def bankAnswer (o : MF) (r : SwitchRes) : LaneRes :=
  match r with
  | .same => .ok (wrReg o.d 0)
  | .busy => .ok (wrReg o.d 1)
  | .started => .hold (.bank (o.disp.toNat % 64) o.d)

/-- BANKCFG in its leading lane. -/
def bankLane (o : MF) (e : Env) (s : State) : State × (Nat → LaneRes) :=
  if coreShared { e with s := s } then (s, fun _ => .ok (wrReg o.d 2))
  else ((bankSwitch s (coreOf e.sh) (o.disp.toNat % 64) (bankMode (o.disp.toNat / 256 % 4)) false).1,
    fun _ => bankAnswer o (bankSwitch s (coreOf e.sh) (o.disp.toNat % 64) (bankMode (o.disp.toNat / 256 % 4)) false).2)

theorem exec_bankcfg (h : Guard) (o : MF) (s : State) : exec (.bankcfg h o) s = .next (wordScope { cfgNR h with noRunner := true } (bankLane o) s) := by
  refine congrArg Host.Outcome.next (congrArg (wordScope _ · s) (funext fun e => funext fun s => ?_))
  unfold bankLane
  refine if_congr Iff.rfl rfl ?_
  obtain ⟨s1, r⟩ := bankSwitch s (coreOf e.sh) (o.disp.toNat % 64) (bankMode (o.disp.toNat / 256 % 4)) false
  cases r <;> rfl

theorem bankSwitch_switching (h : (bankAt (coreAt s k) b).switching.isSome = true) : bankSwitch s k b m false = (s, .busy) := if_pos h

/-- A core whose bank is asked for the mode that it is in: who set the mode is noted (R261). -/
def bankClaimed (c : CoreSt) (b : Nat) (m : BankMode) : CoreSt :=
  { c with banks := Tab.put c.banks b { bankAt c b with byUnit := false, byCfg := decide (m ≠ .cache) } }

theorem bankSwitch_same (hsw : (bankAt (coreAt s k) b).switching = none) (hm : (bankAt (coreAt s k) b).mode = m) :
    bankSwitch s k b m false = (updCore s k fun c => bankClaimed c b m, .same) := by
  simp [bankSwitch, hsw, hm, updCore, bankClaimed]

/-- A request for another mode is refused where the bank is used in its own. -/
theorem bankSwitch_used (hsw : (bankAt (coreAt s k) b).switching = none) (hm : (bankAt (coreAt s k) b).mode ≠ m)
    (hused : (bankAt (coreAt s k) b).mode = .scratch ∧ bankUsed s k b = true ∨ (bankAt (coreAt s k) b).mode = .fifo ∧ (bankAt (coreAt s k) b).reserved = true) :
    bankSwitch s k b m false = (s, .busy) := by
  rcases hused with ⟨hmode, hu⟩ | ⟨hmode, hu⟩
  · rw [hmode] at hm
    simp [bankSwitch, hsw, hm, hmode, hu]
  · rw [hmode] at hm
    simp [bankSwitch, hsw, hm, hmode, hu]

/-- A core whose bank begins to switch: the copies that a CACHE bank holds are lost. -/
def bankSwitching (c : CoreSt) (b : Nat) (m : BankMode) : CoreSt :=
  { c with banks := Tab.put c.banks b { bankAt c b with switching := some m, byUnit := false, byCfg := decide (m ≠ .cache) },
           dcache := c.dcache.filter fun x => decide (x.2.bank ≠ b ∨ (bankAt c b).mode ≠ .cache) }

theorem bankSwitch_started (hsw : (bankAt (coreAt s k) b).switching = none) (hm : (bankAt (coreAt s k) b).mode ≠ m)
    (hs : (bankAt (coreAt s k) b).mode = .scratch → bankUsed s k b = false)
    (hr : (bankAt (coreAt s k) b).mode = .fifo → (bankAt (coreAt s k) b).reserved = false) :
    bankSwitch s k b m false = (updCore s k fun c => bankSwitching c b m, .started) := by
  have hgo : bankSwitch.go s k b m false (bankAt (coreAt s k) b) = (updCore s k fun c => bankSwitching c b m, .started) := by
    simp only [bankSwitch.go, updCore, bankSwitching, Bool.not_false, Bool.true_and, Bool.decide_or]
  rw [← hgo]
  cases hmode : (bankAt (coreAt s k) b).mode with
  | cache => rw [hmode] at hm; simp [bankSwitch, hsw, hm, hmode]
  | scratch => rw [hmode] at hm; simp [bankSwitch, hsw, hm, hmode, hs hmode]
  | fifo => rw [hmode] at hm; simp [bankSwitch, hsw, hm, hmode, hr hmode]

/-- BANKCFG answers a value and changes at most its core. -/
theorem bankcfg_answers {h : Guard} {o : MF} {v : Word} (hone : oneLane s h sh ln sf th) (hf : bankLane o (soloEnv s sh ln sf th) s = (t, fun _ => .ok (wrReg o.d v)))
    (ht : t = { s with cores := t.cores }) : ∃ u, exec (.bankcfg h o) s = .next u ∧ goesPast (soloEnv s sh ln sf th) u (wrReg o.d v) ∧
      u = { t with sheaves := u.sheaves, focus := none } :=
  ⟨_, exec_bankcfg h o s, wordScope_past (c := { cfgNR h with noRunner := true }) hone rfl hf (by rw [ht]) (by rw [ht]) rfl (by rw [ht])⟩

theorem bankLane_shared {o : MF} {e : Env} (h : coreShared e = true) : bankLane o e e.s = (e.s, fun _ => .ok (wrReg o.d 2)) := if_pos h

theorem bankLane_alone {o : MF} {e : Env} {r : SwitchRes} (h : coreShared e = false)
    (hr : bankSwitch e.s (coreOf e.sh) (o.disp.toNat % 64) (bankMode (o.disp.toNat / 256 % 4)) false = (t, r)) :
    bankLane o e e.s = (t, fun _ => bankAnswer o r) := by
  rw [bankLane, if_neg (by rw [show coreShared { e with s := e.s } = coreShared e from rfl, h]; exact Bool.false_ne_true), hr]

section
variable (h : Guard) (o : MF)

/-- The bank that BANKCFG names, on the lane's core. -/
def namedBank (e : Env) : Bank := bankAt (coreAt e.s (coreOf e.sh)) (o.disp.toNat % 64)

/-- The mode that BANKCFG asks for. -/
def askedMode : BankMode := bankMode (o.disp.toNat / 256 % 4)

/-- BANKCFG answers a value and changes nothing. -/
def bankAnswers (e : Env) (t : State) (v : Word) : Prop := goesPast e t (wrReg o.d v) ∧ t = { e.s with sheaves := t.sheaves, focus := none }

theorem bankcfg_shared : aloneDoes (.bankcfg h o) h (fun e => coreShared e = true) fun e t => bankAnswers o e t 2 :=
  fun _ _ _ _ _ hone hok => bankcfg_answers hone (bankLane_shared hok) rfl

theorem bankcfg_same : aloneDoes (.bankcfg h o) h (fun e => coreShared e = false ∧ (namedBank o e).switching = none ∧ (namedBank o e).mode = askedMode o) fun e t =>
    goesPast e t (wrReg o.d 0) ∧ t = { e.s with sheaves := t.sheaves, cores := t.cores, focus := none } ∧
      coreBecomes e.s t (coreOf e.sh) (bankClaimed (coreAt e.s (coreOf e.sh)) (o.disp.toNat % 64) (askedMode o)) := by
  rintro s sh ln sf th hone ⟨hsh, hsw, hmode⟩
  obtain ⟨u, hu, hpast, hframe⟩ := bankcfg_answers hone (bankLane_alone hsh (bankSwitch_same hsw hmode)) rfl
  have hcores := congrArg State.cores hframe
  exact ⟨u, hu, hpast, hframe.trans (by rw [hcores]; rfl), coreBecomes_updCore (bankClaimed · _ _) hcores⟩

theorem bankcfg_switching : aloneDoes (.bankcfg h o) h (fun e => coreShared e = false ∧ (namedBank o e).switching.isSome = true) fun e t => bankAnswers o e t 1 :=
  fun _ _ _ _ _ hone ⟨hsh, hsw⟩ => bankcfg_answers hone (bankLane_alone hsh (bankSwitch_switching hsw)) rfl

theorem bankcfg_used : aloneDoes (.bankcfg h o) h (fun e => coreShared e = false ∧ (namedBank o e).switching = none ∧ (namedBank o e).mode ≠ askedMode o ∧
      ((namedBank o e).mode = .scratch ∧ bankUsed e.s (coreOf e.sh) (o.disp.toNat % 64) = true ∨ (namedBank o e).mode = .fifo ∧ (namedBank o e).reserved = true))
    fun e t => bankAnswers o e t 1 :=
  fun _ _ _ _ _ hone ⟨hsh, hsw, hmode, hused⟩ => bankcfg_answers hone (bankLane_alone hsh (bankSwitch_used hsw hmode hused)) rfl

theorem bankcfg_starts : aloneDoes (.bankcfg h o) h (fun e => coreShared e = false ∧ (namedBank o e).switching = none ∧ (namedBank o e).mode ≠ askedMode o ∧
      ((namedBank o e).mode = .scratch → bankUsed e.s (coreOf e.sh) (o.disp.toNat % 64) = false) ∧
      ((namedBank o e).mode = .fifo → (namedBank o e).reserved = false))
    fun e t => waitsBegun e t (.bank (o.disp.toNat % 64) o.d) ∧
      t = { e.s with sheaves := t.sheaves, cores := t.cores, nextId := e.s.nextId + 1, focus := none } ∧
      coreBecomes e.s t (coreOf e.sh) (bankSwitching (coreAt e.s (coreOf e.sh)) (o.disp.toNat % 64) (askedMode o)) := by
  rintro s sh ln sf th hone ⟨hsh, hsw, hmode, hused, hres⟩
  have hlane := bankLane_alone (o := o) hsh (bankSwitch_started hsw hmode hused hres)
  obtain ⟨hwait, hframe⟩ := wordScope_waits (c := { cfgNR h with noRunner := true }) hone rfl hlane rfl rfl rfl rfl rfl
  have hcores := congrArg State.cores hframe
  exact ⟨_, exec_bankcfg h o s, hwait, hframe.trans (by rw [hcores]; rfl), coreBecomes_updCore (bankSwitching · _ _) hcores⟩

end

/-! ### The end of a switch (R260, R307) -/

/-- The lanes of a core that wait for a bank, which go on with status 0. -/
def bankWaits (core b : Nat) (sh _ln : Nat) (th : Thread) : Option Wr :=
  if coreOf sh = core then (match th.hold with
    | some (.bank x d) => if x = b then some (wrReg d 0) else none
    | _ => none) else none

theorem partOpen_of_bankWaits {core : Nat} {w : Wr} (h : bankWaits core b sh ln th = some w) : partOpen th.hold = true := by
  unfold bankWaits at h
  split at h
  · split at h
    · next hh => rw [hh]; rfl
    · cases h
  · cases h

theorem bankWaiters_eq (s : State) (core b : Nat) : bankWaiters s core b = resumeWaiters s (waitersOf s (bankWaits core b)) := by
  unfold bankWaiters resumeWaiters waitersOf
  rw [List.foldl_flatMap]
  refine congrFun (congrFun (congrArg List.foldl (funext fun t => funext fun e => ?_)) s) s.sheaves
  rw [List.foldl_filterMap]
  by_cases hc : coreOf e.1 = core
  · rw [if_pos hc]
    refine congrFun (congrFun (congrArg List.foldl (funext fun t => funext fun l => ?_)) t) e.2.lanes
    simp only [bankWaits, hc, if_true]
    cases hh : l.2.hold with
    | none => rfl
    | some x => cases x with
      | bank x d => by_cases hx : x = b <;> simp [hx]
      | _ => rfl
  · simp only [bankWaits, hc, if_false, Option.map_none]
    induction e.2.lanes with
    | nil => rfl
    | cons l ls ih => exact ih

/-- A core whose bank has switched: a bank that enters SCRATCH or FIFO is zero. -/
def bankSwitched (c : CoreSt) (b : Nat) (m : BankMode) : CoreSt :=
  { c with banks := Tab.put c.banks b { bankAt c b with mode := m, switching := none },
           scratch := if m = .cache then c.scratch else c.scratch.filter fun e => decide (e.1 / 65536 ≠ b),
           stags := if m = .cache then c.stags else c.stags.filter fun e => decide (e.1 / 4096 ≠ b) }

theorem bankDone_eq (h : (bankAt (coreAt s k) b).switching = some m) : bankDone s k b = updCore s k fun c => bankSwitched c b m := by
  unfold bankDone
  simp only [h]
  rfl

theorem bankAt_bankSwitched_same (c : CoreSt) (b : Nat) (m : BankMode) : bankAt (bankSwitched c b m) b = { bankAt c b with mode := m, switching := none } :=
  Tab.get_put_same _ _ _ _

theorem bankAt_bankSwitched_other (c : CoreSt) (m : BankMode) {j : Nat} (h : j ≠ b) : bankAt (bankSwitched c b m) j = bankAt c j :=
  Tab.get_put_other _ _ _ (Ne.symm h)

theorem readByte_bankSwitched (c : CoreSt) (b : Nat) (m : BankMode) (x : Nat) :
    readByte (bankSwitched c b m).scratch x = if m ≠ .cache ∧ x / 65536 = b then 0 else readByte c.scratch x := by
  unfold bankSwitched
  by_cases hm : m = .cache
  · simp [hm]
  · have hget := Tab.get_filter (0 : Byte) (fun n => decide (n / 65536 ≠ b)) c.scratch x
    by_cases hx : x / 65536 = b <;> simpa [hm, hx, readByte] using hget

theorem stag_bankSwitched (c : CoreSt) (b : Nat) {m : BankMode} {g : Nat} (hm : m ≠ .cache) (hg : g / 4096 = b) :
    Tab.get false (bankSwitched c b m).stags g = false := by
  have hget := Tab.get_filter false (fun n => decide (n / 4096 ≠ b)) c.stags g
  simpa [bankSwitched, hm, hg] using hget

/-- Settles O27: a word of one lane is its one evaluation (`wordScope_past`, `wordScope_waits`), the switch changes one bank of one core (`bankSwitched`), and the lanes
that wait for it go on together (`wakes_resumeWaiters`). -/
theorem banksComplete : Obligations.BanksComplete := by
  refine ⟨fun h o => ⟨bankcfg_shared h o, bankcfg_same h o, bankcfg_switching h o, bankcfg_used h o, bankcfg_starts h o⟩, ?_⟩
  intro s core b m waits hcore hb hsw hstand
  let mid := updCore s core fun c => bankSwitched c b m
  have hmid : waitersStand mid (bankWaits core b) := hstand
  obtain ⟨hframe, hwakes⟩ := wakes_resumeWaiters (waitsTogether_of_waitersStand hmid fun _ _ _ _ => partOpen_of_bankWaits)
  have hexec : exec (.bankSwitchDone core b) s = .next (resumeWaiters mid (waitersOf mid (bankWaits core b))) := by
    show execBankSwitchDone core b s = _
    rw [execBankSwitchDone, if_pos ⟨hcore, hb, by rw [hsw]; rfl⟩, bankDone_eq hsw, bankWaiters_eq]
  have hat : ∀ j, coreAt (resumeWaiters mid (waitersOf mid (bankWaits core b))) j = coreAt mid j := fun j => by rw [hframe]; rfl
  refine ⟨_, hexec, hwakes, ?_⟩
  have hown : coreAt mid core = bankSwitched (coreAt s core) b m := coreAt_updCore_same _ _ _
  rw [hat core, hown, bankAt_bankSwitched_same]
  refine ⟨rfl, rfl, fun hm => ⟨fun x hx => ?_, fun g hg => stag_bankSwitched _ b hm hg⟩, fun x hx => ?_,
    fun j hj => bankAt_bankSwitched_other _ m hj, fun j hj => ?_, ?_⟩
  · rw [readByte_bankSwitched, if_pos ⟨hm, hx⟩]
  · rw [readByte_bankSwitched, if_neg fun hc => hx hc.2]
  · rw [hat, coreAt_updCore_other _ _ (Ne.symm hj)]
  · rw [hframe]
    rfl

end Machine

end Sys2Proof
end

section
/-! The machine after reset: its tables are empty, so what is read of them is their default (R259, R264, R271, R311, R401, R425, R438). -/

namespace Sys2Proof.Machine

theorem coreAt_reset (k : Nat) : coreAt State.reset k = coreReset := rfl

theorem bankAt_coreReset (b : Nat) : bankAt coreReset b = bankReset := rfl

theorem tileAt_reset (k i : Nat) : tileAt State.reset k i = tileReset := rfl

theorem homeTimes_reset (line : Nat) : homeTimes State.reset line = (0, 0) := rfl

theorem ctxAt_reset (k : Nat) : ctxAt State.reset k = ctxFree := rfl

/-- Settles O52: each part reads a table that is empty after reset, and the default of that table is the value that the part states. -/
theorem resetState : Obligations.ResetState := by
  refine ⟨fun k b => ?_, fun k i => ?_, fun k => ?_, homeTimes_reset, fun k => ?_, fun _ => rfl, fun _ => rfl, rfl,
    fun _ => ⟨rfl, rfl, rfl, rfl, rfl, rfl, rfl, rfl, rfl, rfl, rfl⟩, fun _ => rfl, rfl, rfl, rfl⟩
  · rw [coreAt_reset, bankAt_coreReset]
    exact ⟨rfl, rfl⟩
  · rw [tileAt_reset]
    exact ⟨rfl, rfl, rfl, rfl, rfl, rfl, rfl, rfl, rfl, rfl, rfl⟩
  · rw [coreAt_reset]
    rfl
  · rw [ctxAt_reset]
    rfl

end Sys2Proof.Machine
end

section
/-! Writes by other parties: a write of no bytes (R28, R273). -/

namespace Sys2Proof.Machine

/-- The machine after reset with a tag on the granule at address 0. -/
def taggedGranule : State := { State.reset with tags := [(0, true)] }

/-- Another party's write of no bytes changes nothing, wherever it is. -/
theorem exec_otherPartyWrite_nil (s : State) (addr : Nat) : exec (.otherPartyWrite addr []) s = .next s :=
  congrArg Host.Outcome.next (ite_self s)

/-- Refutes O40: its clause on writes by other parties has the tag of every granule cleared that begins before the end of the write and ends after its start, and
admits a write of no bytes. One at address 8, inside a tagged granule, touches no byte and leaves the tag. -/
theorem not_homesAnswer : ¬ Obligations.HomesAnswer := by
  unfold Obligations.HomesAnswer
  rintro ⟨-, -, -, hwrite, -⟩
  obtain ⟨t, ht, -, htags, -⟩ := hwrite taggedGranule 8 [] (by decide)
  rw [exec_otherPartyWrite_nil] at ht
  cases ht
  exact absurd (htags 0 (by decide) (by decide)) (by decide)

end Sys2Proof.Machine
end
